-- ==== Sys2Proof/Word.lean ====
section
/-! DEFINITION. The word types of the C9 and their plainest arithmetic (R2, R3, R27). -/

namespace Sys2Proof

/-- A 32-bit register word. -/
abbrev Word := BitVec 32
/-- A 64-bit value: a register pair, a program counter, a virtual address, an identity. -/
abbrev DWord := BitVec 64
/-- One bit per thread slot of a course, bit t for thread t (R23, R24). -/
abbrev Mask := BitVec 96
/-- A byte of memory. -/
abbrev Byte := BitVec 8
/-- An 8-bit failure code (R352). -/
abbrev Code := BitVec 8

/-- The low half of a 64-bit value, held in the even register of a pair (R3). -/
abbrev lo32 (x : DWord) : Word := x.extractLsb' 0 32
/-- The high half of a 64-bit value, held in the odd register of a pair (R3). -/
abbrev hi32 (x : DWord) : Word := x.extractLsb' 32 32
/-- The 64-bit value of a low and a high half. -/
abbrev pair64 (lo hi : Word) : DWord := hi ++ lo

end Sys2Proof
end

