-- ==== Sys2Proof/Syntax.lean ====
section
/-! DEFINITION. The instructions of the C9 and the steps the device takes by itself: one constructor of
`Instr` per row of spec/opcode_table.json, its operands as the encodings of chapters 10 to 15 name them. -/

namespace Sys2Proof

/-- The control fields of every instruction word (R32, R184). -/
structure Ctl where
  dist : BitVec 4
  wait : BitVec 12
  sig  : BitVec 4
  deriving DecidableEq, Repr

/-- The fields every C-format word has above its operand sets (R189). -/
structure CHdr where
  k    : Ctl
  face : BitVec 2
  uni  : BitVec 1
  grd  : BitVec 3
  gneg : BitVec 1
  slot : BitVec 3
  ro   : BitVec 2
  typ  : BitVec 4
  deriving DecidableEq, Repr

/-- One 40-bit operand set (R189). -/
structure OpSet where
  d    : BitVec 7
  s1   : BitVec 7
  s2   : BitVec 7
  s3   : BitVec 7
  n1   : BitVec 1
  a1   : BitVec 1
  n2   : BitVec 1
  a2   : BitVec 1
  n3   : BitVec 1
  a3   : BitVec 1
  clmp : BitVec 2
  scl  : BitVec 3
  deriving DecidableEq, Repr

/-- The tail of a C-format word (R190): nothing (`IMM` = 0), an immediate (`IMM` = 1), operand set B
(`FACE` = 11), or a branch offset. -/
inductive Tail where
  | none
  | imm (v : BitVec 32)
  | setB (b : OpSet)
  | off (v : BitVec 32)
  deriving DecidableEq, Repr

/-- The layout that replaces the operand sets of `EXPR` (R191); token i is bits [43-4i : 40-4i] of `toks`. -/
structure ExprBody where
  d    : BitVec 7
  s1   : BitVec 7
  s2   : BitVec 7
  s3   : BitVec 7
  s4   : BitVec 7
  toks : BitVec 44
  deriving DecidableEq, Repr

/-- What a DRAM read of one granule meets (R122, R365): its bad code symbols, each by the sub-channel of the granule it lies in (0 up
to the width less 1) and its number there. -/
structure Ecc where
  bad : List (Nat × Nat)
  deriving DecidableEq, Repr

/-- A read without an error. -/
def Ecc.clean : Ecc := ⟨[]⟩

/-- A request that reaches this device from outside: a client function's or its host's (R151, R307, R327), or a peer's (R330). -/
inductive BusReq where
  | read (len : Nat)
  /-- A write; one that is not posted is answered (R363). -/
  | write (bytes : List Byte) (posted : Bool)
  /-- An atomic of R215: its operation code, whether it is 64 bits wide, its operand and its key (R388). -/
  | atomic (op : BitVec 4) (wide : Bool) (operand : BitVec 64) (who : BitVec 64) (n : Nat)
  /-- A compare-and-swap of R216: width, expected and new value, key (R388). -/
  | cas (wide : Bool) (expected new : BitVec 64) (who : BitVec 64) (n : Nat)
  /-- A read of `len` bytes of the attachment block in BAR 0, at the offset the address gives (R327). -/
  | blockRead (len : Nat)
  /-- A write of the attachment block at the offset the address gives (R327). -/
  | blockWrite (bytes : List Byte)
  /-- The host behind a link writes its own memory, at the byte of the client window the address gives, without snooping (R307). -/
  | hostWrite (bytes : List Byte)
  deriving DecidableEq, Repr

/-- The client-window registers of the attachment block (R327). -/
inductive WinReg where
  | base
  | len
  | ctl
  deriving DecidableEq, Repr

/-- A firmware image as its bytes (R331). -/
abbrev Image := List Byte

/-- Every row of spec/opcode_table.json. The A-format rows come first, then the C-format rows, then the steps the
device takes by itself, and last the inputs that reach it from outside and the physical events. -/
inductive Instr where
  /-- NOP (R203). -/
  | nop (k : Ctl)
  /-- ADD (R203). -/
  | add (k : Ctl) (rd ra rb : BitVec 6)
  /-- SUB (R203). -/
  | sub (k : Ctl) (rd ra rb : BitVec 6)
  /-- AND (R203). -/
  | and (k : Ctl) (rd ra rb : BitVec 6)
  /-- OR (R203). -/
  | or (k : Ctl) (rd ra rb : BitVec 6)
  /-- XOR (R203). -/
  | xor (k : Ctl) (rd ra rb : BitVec 6)
  /-- SHL (R204). -/
  | shl (k : Ctl) (rd ra rb : BitVec 6)
  /-- SHR (R204). -/
  | shr (k : Ctl) (rd ra rb : BitVec 6)
  /-- SAR (R204). -/
  | sar (k : Ctl) (rd ra rb : BitVec 6)
  /-- MUL (R203). -/
  | mul (k : Ctl) (rd ra rb : BitVec 6)
  /-- MULH (R203). -/
  | mulh (k : Ctl) (rd ra rb : BitVec 6)
  /-- MULHN (R203). -/
  | mulhn (k : Ctl) (rd ra rb : BitVec 6)
  /-- DIV (R204). -/
  | div (k : Ctl) (rd ra rb : BitVec 6)
  /-- DIVN (R204). -/
  | divn (k : Ctl) (rd ra rb : BitVec 6)
  /-- REM (R204). -/
  | rem (k : Ctl) (rd ra rb : BitVec 6)
  /-- REMN (R204). -/
  | remn (k : Ctl) (rd ra rb : BitVec 6)
  /-- MIN (R203). -/
  | min (k : Ctl) (rd ra rb : BitVec 6)
  /-- MAX (R203). -/
  | max (k : Ctl) (rd ra rb : BitVec 6)
  /-- MINN (R203). -/
  | minn (k : Ctl) (rd ra rb : BitVec 6)
  /-- MAXN (R203). -/
  | maxn (k : Ctl) (rd ra rb : BitVec 6)
  /-- SET (R203). -/
  | set (k : Ctl) (rd ra rb : BitVec 6) (cond : BitVec 4)
  /-- SEL (R203). -/
  | sel (k : Ctl) (rd ra rb : BitVec 6) (cond : BitVec 4)
  /-- CLZ (R203). -/
  | clz (k : Ctl) (rd ra : BitVec 6)
  /-- POPC (R203). -/
  | popc (k : Ctl) (rd ra : BitVec 6)
  /-- BREV (R203). -/
  | brev (k : Ctl) (rd ra : BitVec 6)
  /-- ADDP (R205). -/
  | addp (k : Ctl) (rd ra rb : BitVec 6)
  /-- SUBP (R205). -/
  | subp (k : Ctl) (rd ra rb : BitVec 6)
  /-- SHLP (R205). -/
  | shlp (k : Ctl) (rd ra rb : BitVec 6)
  /-- SHRP (R205). -/
  | shrp (k : Ctl) (rd ra rb : BitVec 6)
  /-- MOV (R205). -/
  | mov (k : Ctl) (rd ra : BitVec 6)
  /-- ADDI (R206). -/
  | addi (k : Ctl) (rd ra : BitVec 6) (imm : BitVec 24)
  /-- ANDI (R206). -/
  | andi (k : Ctl) (rd ra : BitVec 6) (imm : BitVec 24)
  /-- ORI (R206). -/
  | ori (k : Ctl) (rd ra : BitVec 6) (imm : BitVec 24)
  /-- XORI (R206). -/
  | xori (k : Ctl) (rd ra : BitVec 6) (imm : BitVec 24)
  /-- SHLI (R206). -/
  | shli (k : Ctl) (rd ra : BitVec 6) (imm : BitVec 24)
  /-- SHRI (R206). -/
  | shri (k : Ctl) (rd ra : BitVec 6) (imm : BitVec 24)
  /-- SARI (R206). -/
  | sari (k : Ctl) (rd ra : BitVec 6) (imm : BitVec 24)
  /-- MULI (R206). -/
  | muli (k : Ctl) (rd ra : BitVec 6) (imm : BitVec 24)
  /-- SETI (R206). -/
  | seti (k : Ctl) (rd ra : BitVec 6) (imm : BitVec 24)
  /-- MOVHI (R206). -/
  | movhi (k : Ctl) (rd ra : BitVec 6) (imm : BitVec 24)
  /-- ADDPI (R206). -/
  | addpi (k : Ctl) (rd ra : BitVec 6) (imm : BitVec 24)
  /-- BIND (R155). -/
  | bind (k : Ctl) (rd : BitVec 6) (bp : BitVec 5) (sp : BitVec 1) (bt : BitVec 3) (off : BitVec 20)
  /-- LEA (R208). -/
  | lea (k : Ctl) (rd : BitVec 6) (bt sel : BitVec 3) (imm : BitVec 24)
  /-- UNBIND (R209). -/
  | unbind (k : Ctl) (bt : BitVec 3)
  /-- LDU (R210). -/
  | ldu (k : Ctl) (sz : BitVec 2) (rd : BitVec 6) (bp : BitVec 5) (ord : BitVec 1) (imm : BitVec 24)
  /-- STU (R210). -/
  | stu (k : Ctl) (sz : BitVec 2) (rd : BitVec 6) (bp : BitVec 5) (ord : BitVec 1) (imm : BitVec 24)
  /-- VLD (R211). -/
  | vld (k : Ctl) (sz : BitVec 2) (q bt : BitVec 3) (rs : BitVec 6) (nr : BitVec 1) (hint : BitVec 2) (imm : BitVec 21)
  /-- VST (R211). -/
  | vst (k : Ctl) (sz : BitVec 2) (q bt : BitVec 3) (rs : BitVec 6) (nr : BitVec 1) (hint : BitVec 2) (imm : BitVec 21)
  /-- VLDX (R211). -/
  | vldx (k : Ctl) (sz : BitVec 2) (q bt : BitVec 3) (rs : BitVec 6) (nr : BitVec 1) (hint : BitVec 2) (imm : BitVec 21)
  /-- VSTX (R211). -/
  | vstx (k : Ctl) (sz : BitVec 2) (q bt : BitVec 3) (rs : BitVec 6) (nr : BitVec 1) (hint : BitVec 2) (imm : BitVec 21)
  /-- AMO (R216). -/
  | amo (k : Ctl) (rd : BitVec 6) (bp : BitVec 5) (kind : BitVec 3) (scope : BitVec 4) (op : BitVec 5) (rb : BitVec 6)
  /-- CAS (R216). -/
  | cas (k : Ctl) (rd : BitVec 6) (bp : BitVec 5) (kind : BitVec 3) (scope : BitVec 4) (op : BitVec 5) (rb : BitVec 6)
  /-- VAMO (R217). -/
  | vamo (k : Ctl) (rd : BitVec 6) (kind : BitVec 3) (scope : BitVec 4) (op : BitVec 5) (rb : BitVec 6) (bt q : BitVec 3)
  /-- VCAS (R217). -/
  | vcas (k : Ctl) (rd : BitVec 6) (kind : BitVec 3) (scope : BitVec 4) (op : BitVec 5) (rb : BitVec 6) (bt q : BitVec 3)
  /-- FENCE (R218). -/
  | fence (k : Ctl) (kind : BitVec 3) (scope : BitVec 4)
  /-- QPUSH (R219). -/
  | qpush (k : Ctl) (q ra : BitVec 6)
  /-- QPOP (R219). -/
  | qpop (k : Ctl) (rd q : BitVec 6)
  /-- TAGLK (R101). -/
  | taglk (k : Ctl) (rd ra : BitVec 6)
  /-- TAGSET (R101). -/
  | tagset (k : Ctl) (ra rb : BitVec 6)
  /-- TAGINV (R101). -/
  | taginv (k : Ctl) (ra : BitVec 6)
  /-- TAGRD (R101). -/
  | tagrd (k : Ctl) (rd ra : BitVec 6)
  /-- BR (R221). -/
  | br (k : Ctl) (off : BitVec 26)
  /-- BCND (R221). -/
  | bcnd (k : Ctl) (cond : BitVec 4) (ra : BitVec 6) (off : BitVec 26)
  /-- CALL (R221). -/
  | call (k : Ctl) (off : BitVec 26)
  /-- RET (R222). -/
  | ret (k : Ctl)
  /-- JMPR (R222). -/
  | jmpr (k : Ctl) (rd ra : BitVec 6)
  /-- LOOP (R221). -/
  | loop (k : Ctl) (cond : BitVec 4) (ra : BitVec 6) (off : BitVec 26)
  /-- BAR (R224). -/
  | bar (k : Ctl) (rd ra : BitVec 6) (id scope : BitVec 4)
  /-- SLEEPT (R226). -/
  | sleept (k : Ctl) (rd : BitVec 6)
  /-- WFE (R227). -/
  | wfe (k : Ctl)
  /-- SEV (R227). -/
  | sev (k : Ctl)
  /-- EXIT (R223). -/
  | exit (k : Ctl)
  /-- SRD (R228). -/
  | srd (k : Ctl) (rd : BitVec 6) (idx : BitVec 12)
  /-- SWR (R228). -/
  | swr (k : Ctl) (ra : BitVec 6) (idx : BitVec 12)
  /-- CPY (R258). -/
  | cpy (k : Ctl) (rd ra : BitVec 6)
  /-- CPYR (R108). -/
  | cpyr (k : Ctl) (rd ra : BitVec 6)
  /-- CPYG (R260). -/
  | cpyg (k : Ctl) (rd ra : BitVec 6)
  /-- CPYP (R261). -/
  | cpyp (k : Ctl) (rd ra : BitVec 6)
  /-- SHADOW (R262). -/
  | shadow (k : Ctl) (rd : BitVec 6) (bp : BitVec 5) (rb ra : BitVec 6) (sp : BitVec 1)
  /-- SHADOW_DISMISS (R262). -/
  | shadowDismiss (k : Ctl) (ra : BitVec 6)
  /-- PUBLISH (R138). -/
  | publish (k : Ctl) (ra : BitVec 6) (scope : BitVec 4)
  /-- CHDEF (R264). -/
  | chdef (k : Ctl) (ch : BitVec 4) (ra : BitVec 6)
  /-- CHPUT (R265). -/
  | chput (k : Ctl) (ch : BitVec 4) (rd rs : BitVec 6)
  /-- CHGET (R265). -/
  | chget (k : Ctl) (ch : BitVec 4) (rd rs : BitVec 6)
  /-- CHWAIT_GET (R265). -/
  | chwaitGet (k : Ctl) (ch : BitVec 4) (rd rs : BitVec 6)
  /-- CHWAIT_PUT (R265). -/
  | chwaitPut (k : Ctl) (ch : BitVec 4) (rd rs : BitVec 6)
  /-- GANG (R267). -/
  | gang (k : Ctl) (ra : BitVec 6)
  /-- MMA (R274). -/
  | mma (k : Ctl) (a c : BitVec 4) (wb : BitVec 6) (kt : BitVec 8) (fa fb : BitVec 3) (g : BitVec 1)
  /-- MMAG (R275). -/
  | mmag (k : Ctl) (a c : BitVec 4) (ra : BitVec 6) (kt : BitVec 8) (fa fb : BitVec 3) (g : BitVec 1)
  /-- WBLD (R271). -/
  | wbld (k : Ctl) (sl : BitVec 6) (fs : BitVec 3) (ra : BitVec 6) (bp : BitVec 5) (rb : BitVec 6) (sp : BitVec 1)
  /-- RALLOC (R278). -/
  | ralloc (k : Ctl) (rd ra rb : BitVec 6)
  /-- REMIT (R279). -/
  | remit (k : Ctl) (ra : BitVec 6) (q res : BitVec 1)
  /-- RTAKE (R280). -/
  | rtake (k : Ctl) (q : BitVec 2) (wi : BitVec 5) (n : BitVec 3)
  /-- RDONE (R280). -/
  | rdone (k : Ctl) (q : BitVec 1)
  /-- SNAP (R281). -/
  | snap (k : Ctl)
  /-- SNAPC (R282). -/
  | snapc (k : Ctl) (rd : BitVec 6) (cl : BitVec 1)
  /-- PGREQ (R283). -/
  | pgreq (k : Ctl) (ra rb : BitVec 6)
  /-- TRAP (R302). -/
  | trap (k : Ctl) (imm : BitVec 16)
  /-- SVC (R302). -/
  | svc (k : Ctl) (imm : BitVec 16)
  /-- HVC (R302). -/
  | hvc (k : Ctl) (imm : BitVec 16)
  /-- MONC_VERIFY_IMAGE (R337). -/
  | moncVerifyImage (k : Ctl)
  /-- MONC_EXTEND_MEASUREMENT (R337). -/
  | moncExtendMeasurement (k : Ctl)
  /-- MONC_ATTESTATION_REPORT (R337). -/
  | moncAttestationReport (k : Ctl)
  /-- MONC_CONFIRM_SLOT (R337). -/
  | moncConfirmSlot (k : Ctl)
  /-- MONC_COMMIT_SVN (R337). -/
  | moncCommitSvn (k : Ctl)
  /-- MONC_UNKNOWN_SERVICE (R337). -/
  | moncUnknownService (k : Ctl) (imm : BitVec 16)
  /-- ERET (R302). -/
  | eret (k : Ctl)
  /-- BKPT (R302). -/
  | bkpt (k : Ctl) (imm : BitVec 16)
  /-- TLBINV_RANGE (R306). -/
  | tlbinvRange (k : Ctl) (ra : BitVec 6) (bp : BitVec 5) (rb : BitVec 6)
  /-- TLBINV_ASID (R306). -/
  | tlbinvAsid (k : Ctl) (ra : BitVec 6)
  /-- TLBINV_ALL (R306). -/
  | tlbinvAll (k : Ctl)
  /-- CINV (R307). -/
  | cinv (k : Ctl) (bp : BitVec 5) (rb : BitVec 6)
  /-- CWB (R307). -/
  | cwb (k : Ctl) (bp : BitVec 5) (rb : BitVec 6)
  /-- WAYGT_WAYS (R308). -/
  | waygtWays (k : Ctl) (ra rb : BitVec 6)
  /-- WAYGT_BANKS (R308). -/
  | waygtBanks (k : Ctl) (ra rb : BitVec 6) (pl : BitVec 2)
  /-- HALT (R305). -/
  | halt (k : Ctl)
  /-- CTXREQ_BIND (R311). -/
  | ctxreqBind (k : Ctl) (bp : BitVec 5)
  /-- CTXREQ_UNBIND (R311). -/
  | ctxreqUnbind (k : Ctl) (bp : BitVec 5)
  /-- CTXREQ_SWITCH (R311). -/
  | ctxreqSwitch (k : Ctl) (bp : BitVec 5)
  /-- CTXREQ_STREAM_OUT (R311). -/
  | ctxreqStreamOut (k : Ctl) (bp : BitVec 5)
  /-- CTXREQ_STREAM_IN (R311). -/
  | ctxreqStreamIn (k : Ctl) (bp : BitVec 5)
  /-- CTXREQ_RESERVED_OP (R311). -/
  | ctxreqReservedOp (k : Ctl) (bp : BitVec 5)
  /-- FENCEI (R310). -/
  | fencei (k : Ctl)
  /-- GRANSET (R309). -/
  | granset (k : Ctl) (bp : BitVec 5) (rb : BitVec 6) (gr : BitVec 2)
  /-- UDF (R192). -/
  | udf (w : BitVec 36) (k : Ctl)
  /-- CNOP (R253). -/
  | cnop (h : CHdr) (a : OpSet) (t : Tail)
  /-- VADD (R234). -/
  | vadd (h : CHdr) (a : OpSet) (t : Tail)
  /-- VSUB (R234). -/
  | vsub (h : CHdr) (a : OpSet) (t : Tail)
  /-- VMUL (R234). -/
  | vmul (h : CHdr) (a : OpSet) (t : Tail)
  /-- VMULH (R234). -/
  | vmulh (h : CHdr) (a : OpSet) (t : Tail)
  /-- VMAD (R234). -/
  | vmad (h : CHdr) (a : OpSet) (t : Tail)
  /-- VAND (R234). -/
  | vand (h : CHdr) (a : OpSet) (t : Tail)
  /-- VOR (R234). -/
  | vor (h : CHdr) (a : OpSet) (t : Tail)
  /-- VXOR (R234). -/
  | vxor (h : CHdr) (a : OpSet) (t : Tail)
  /-- VSHL (R234). -/
  | vshl (h : CHdr) (a : OpSet) (t : Tail)
  /-- VSHR (R234). -/
  | vshr (h : CHdr) (a : OpSet) (t : Tail)
  /-- VSAR (R234). -/
  | vsar (h : CHdr) (a : OpSet) (t : Tail)
  /-- VMIN (R234). -/
  | vmin (h : CHdr) (a : OpSet) (t : Tail)
  /-- VMAX (R234). -/
  | vmax (h : CHdr) (a : OpSet) (t : Tail)
  /-- VABS (R234). -/
  | vabs (h : CHdr) (a : OpSet) (t : Tail)
  /-- VCMP (R234). -/
  | vcmp (h : CHdr) (a : OpSet) (t : Tail)
  /-- VSEL (R234). -/
  | vsel (h : CHdr) (a : OpSet) (t : Tail)
  /-- VCLZ (R234). -/
  | vclz (h : CHdr) (a : OpSet) (t : Tail)
  /-- VPOPC (R234). -/
  | vpopc (h : CHdr) (a : OpSet) (t : Tail)
  /-- FADD (R235). -/
  | fadd (h : CHdr) (a : OpSet) (t : Tail)
  /-- FSUB (R235). -/
  | fsub (h : CHdr) (a : OpSet) (t : Tail)
  /-- FMUL (R235). -/
  | fmul (h : CHdr) (a : OpSet) (t : Tail)
  /-- FFMA (R235). -/
  | ffma (h : CHdr) (a : OpSet) (t : Tail)
  /-- FMIN (R238). -/
  | fmin (h : CHdr) (a : OpSet) (t : Tail)
  /-- FMAX (R238). -/
  | fmax (h : CHdr) (a : OpSet) (t : Tail)
  /-- FRCP (R237). -/
  | frcp (h : CHdr) (a : OpSet) (t : Tail)
  /-- FRSQ (R237). -/
  | frsq (h : CHdr) (a : OpSet) (t : Tail)
  /-- FSQRT (R237). -/
  | fsqrt (h : CHdr) (a : OpSet) (t : Tail)
  /-- FEXP2 (R237). -/
  | fexp2 (h : CHdr) (a : OpSet) (t : Tail)
  /-- FLOG2 (R237). -/
  | flog2 (h : CHdr) (a : OpSet) (t : Tail)
  /-- FCMP (R238). -/
  | fcmp (h : CHdr) (a : OpSet) (t : Tail)
  /-- FCLASS (R238). -/
  | fclass (h : CHdr) (a : OpSet) (t : Tail)
  /-- PLOP (R239). -/
  | plop (h : CHdr) (a : OpSet) (t : Tail)
  /-- PFROM (R239). -/
  | pfrom (h : CHdr) (a : OpSet) (t : Tail)
  /-- PTO (R239). -/
  | pto (h : CHdr) (a : OpSet) (t : Tail)
  /-- SHFL (R246). -/
  | shfl (h : CHdr) (a : OpSet) (t : Tail)
  /-- VOTE (R246). -/
  | vote (h : CHdr) (a : OpSet) (t : Tail)
  /-- BALLOT (R247). -/
  | ballot (h : CHdr) (a : OpSet) (t : Tail)
  /-- SCAN (R246). -/
  | scan (h : CHdr) (a : OpSet) (t : Tail)
  /-- REDUX (R246). -/
  | redux (h : CHdr) (a : OpSet) (t : Tail)
  /-- CVT (R241). -/
  | cvt (h : CHdr) (a : OpSet) (t : Tail)
  /-- CVTI (R241). -/
  | cvti (h : CHdr) (a : OpSet) (t : Tail)
  /-- PACK (R242). -/
  | pack (h : CHdr) (a : OpSet) (t : Tail)
  /-- UNPK (R243). -/
  | unpk (h : CHdr) (a : OpSet) (t : Tail)
  /-- VMOV (R240). -/
  | vmov (h : CHdr) (a : OpSet) (t : Tail)
  /-- VMOVI (R240). -/
  | vmovi (h : CHdr) (a : OpSet) (t : Tail)
  /-- VBCAST (R240). -/
  | vbcast (h : CHdr) (a : OpSet) (t : Tail)
  /-- EXPR (R248). -/
  | expr (h : CHdr) (e : ExprBody)
  /-- MELD (R69). -/
  | meld (h : CHdr) (a : OpSet) (t : Tail)
  /-- MEND (R69). -/
  | mend (h : CHdr) (a : OpSet) (t : Tail)
  /-- MLOOP (R69). -/
  | mloop (h : CHdr) (a : OpSet) (t : Tail)
  /-- MBRK (R69). -/
  | mbrk (h : CHdr) (a : OpSet) (t : Tail)
  /-- CBR (R37). -/
  | cbr (h : CHdr) (a : OpSet) (t : Tail)
  /-- CJOIN (R37). -/
  | cjoin (h : CHdr) (a : OpSet) (t : Tail)
  /-- CLOOP (R251). -/
  | cloop (h : CHdr) (a : OpSet) (t : Tail)
  /-- CCALL (R252). -/
  | ccall (h : CHdr) (a : OpSet) (t : Tail)
  /-- CCALL_PAIR (R72). -/
  | ccallPair (h : CHdr) (a : OpSet) (t : Tail)
  /-- CRET (R252). -/
  | cret (h : CHdr) (a : OpSet) (t : Tail)
  /-- CEXIT (R38). -/
  | cexit (h : CHdr) (a : OpSet) (t : Tail)
  /-- QZERO (R289). -/
  | qzero (h : CHdr) (a : OpSet) (t : Tail)
  /-- QLD (R289). -/
  | qld (h : CHdr) (a : OpSet) (t : Tail)
  /-- QST (R289). -/
  | qst (h : CHdr) (a : OpSet) (t : Tail)
  /-- QSHAPE (R289). -/
  | qshape (h : CHdr) (a : OpSet) (t : Tail)
  /-- QMUL (R290). -/
  | qmul (h : CHdr) (a : OpSet) (t : Tail)
  /-- QMAD (R290). -/
  | qmad (h : CHdr) (a : OpSet) (t : Tail)
  /-- QADD (R290). -/
  | qadd (h : CHdr) (a : OpSet) (t : Tail)
  /-- QTRN (R289). -/
  | qtrn (h : CHdr) (a : OpSet) (t : Tail)
  /-- QCHOL (R292). -/
  | qchol (h : CHdr) (a : OpSet) (t : Tail)
  /-- QLUP (R293). -/
  | qlup (h : CHdr) (a : OpSet) (t : Tail)
  /-- QSOLV (R294). -/
  | qsolv (h : CHdr) (a : OpSet) (t : Tail)
  /-- QMV (R290). -/
  | qmv (h : CHdr) (a : OpSet) (t : Tail)
  /-- QDIAG_GET (R289). -/
  | qdiagGet (h : CHdr) (a : OpSet) (t : Tail)
  /-- QDIAG_SET (R289). -/
  | qdiagSet (h : CHdr) (a : OpSet) (t : Tail)
  /-- QDIAG_ADD (R289). -/
  | qdiagAdd (h : CHdr) (a : OpSet) (t : Tail)
  /-- LDPI (R197). -/
  | ldpi (h : CHdr) (a : OpSet) (t : Tail)
  /-- STPI (R197). -/
  | stpi (h : CHdr) (a : OpSet) (t : Tail)
  /-- UNDEFINED_C_WORD (R192). -/
  | undefinedCWord (k : Ctl) (w : BitVec 98)
  /-- FIXED_LATENCY_COMMIT (R35). -/
  | fixedLatencyCommit (who : DWord) (id : Nat)
  /-- FLAG_WORK_COMPLETE (R34). -/
  | flagWorkComplete (who : DWord) (id : Nat)
  /-- PROMISE_WRITE (R111). -/
  | promiseWrite (who : DWord) (id : Nat)
  /-- COPY_START (R259). -/
  | copyStart (wall ch : Nat)
  /-- COPY_ENTRY_CONSUMED (R259). -/
  | copyEntryConsumed (wall ch : Nat)
  /-- COPY_COMPLETE (R114). -/
  | copyComplete (wall ch : Nat)
  /-- REMOTE_SIGNAL (R110). -/
  | remoteSignal (wall ch : Nat)
  /-- GANG_ISSUE (R268). -/
  | gangIssue (wall plane : Nat) (lid : Word) (gid : Nat)
  /-- ENGINE_FIRE (R118). -/
  | engineFire (wall : Nat)
  /-- ENGINE_ENTRY_CONSUMED (R118). -/
  | engineEntryConsumed (wall member : Nat)
  /-- ENGINE_OPERATION_COMPLETE (R276). -/
  | engineOperationComplete (wall : Nat)
  /-- WBLD_COMPLETE (R271). -/
  | wbldComplete (who : DWord) (id : Nat)
  /-- CHDEF_REPLACE (R264). -/
  | chdefReplace (who : DWord) (id : Nat)
  /-- SNAPC_COMMIT (R180). -/
  | snapcCommit (who : DWord) (id : Nat)
  /-- TLBINV_COMPLETE (R158). -/
  | tlbinvComplete (who : DWord) (id : Nat)
  /-- SLEEPT_WAKE (R113). -/
  | sleeptWake (who : DWord)
  /-- TRAP_RECORD_WRITE (R355). -/
  | trapRecordWrite (who : DWord)
  /-- EVENT_ENTRY (R302). -/
  | eventEntry (core : Nat)
  /-- COURSE_RETIRE (R39). -/
  | courseRetire (who : DWord)
  /-- PLACEMENT_PASS (R171). -/
  | placementPass (die : Nat)
  /-- HEAD_AGE_EXPIRE (R172). -/
  | headAgeExpire (queue : Nat)
  /-- LAUNCH_COMPLETE (R173). -/
  | launchComplete (n : Nat)
  /-- LAUNCH_CERTIFY (R174). -/
  | launchCertify (n : Nat)
  /-- KILN_TIMER_EXPIRE (R177). -/
  | kilnTimerExpire (n node : Nat)
  /-- KILN_LAUNCH (R177). -/
  | kilnLaunch (n node : Nat)
  /-- GRAPH_EXHAUSTED (R379). -/
  | graphExhausted (n : Nat)
  /-- PLANE_SWITCH_COMPLETE (R17). -/
  | planeSwitchComplete (wall : Nat)
  /-- STREAM_OUT_BEGIN (R167). -/
  | streamOutBegin (wall plane : Nat)
  /-- STREAM_OUT_COMPLETE (R17). -/
  | streamOutComplete (wall plane : Nat)
  /-- STREAM_IN_COMPLETE (R17). -/
  | streamInComplete (wall plane : Nat)
  /-- STORAGE_WAKE_COMPLETE (R120). -/
  | storageWakeComplete (bank : Bool) (unit idx : Nat)
  /-- PROMISE_MATURE (R112). -/
  | promiseMature (die : Nat)
  /-- LQBELL_WRITE (R313). -/
  | lqbellWrite (q : Word)
  /-- PGANS_WRITE (R314). -/
  | pgansWrite (v : Word)
  /-- TRACK_RETRY (R357). -/
  | trackRetry (desc idx : Nat)
  /-- TRACK_SKIP (R357). -/
  | trackSkip (desc idx : Nat)
  /-- TRACK_TERMINATE (R357). -/
  | trackTerminate (desc idx : Nat)
  /-- LQRST_WRITE (R390). -/
  | lqrstWrite (q : Word)
  /-- LIFESEL_WRITE (R392). -/
  | lifeselWrite (v : Word)
  /-- SWPBASE_WRITE (R348). -/
  | swpbaseWrite (hi : Bool) (v : Word)
  /-- SWEEP (R349). -/
  | sweep (die : Nat)
  /-- STALL_SAMPLE (R351). -/
  | stallSample (wall lset : Nat)
  /-- W6_FILL_TRANSLATE (R200). -/
  | w6FillTranslate (who : DWord) (addr : DWord)
  /-- COPY_FAILURE (R373). -/
  | copyFailure (wall ch : Nat) (code : Code) (written : Nat)
  /-- ENGINE_OPERATION_CANCEL (R367). -/
  | engineOperationCancel (wall : Nat)
  /-- PAGE_WALK (R150). -/
  | pageWalk (who : DWord) (va : DWord)
  /-- PLUMB_DRAIN (R174). -/
  | plumbDrain (bay : Nat)
  /-- PLUMB_SCAN_PASS (R174). -/
  | plumbScanPass (wall : Nat)
  /-- PLUMB_SCAN_FAIL (R382). -/
  | plumbScanFail (wall : Nat) (pattern : Byte)
  /-- WALL_RETIRE (R385). -/
  | wallRetire (wall : Nat)
  /-- BAY_CACHE_WRITEBACK (R105). -/
  | bayCacheWriteback (bay sector : Nat)
  /-- BAY_CACHE_FILL (R122). -/
  | bayCacheFill (bay sector : Nat) (ecc : Ecc)
  /-- CLOCK_CHANGE (R112). -/
  | clockChange (die mhz : Nat)
  /-- PEER_TIMEOUT (R376). -/
  | peerTimeout (who : DWord) (id : Nat)
  /-- ATOMIC_REQUEST (R388). -/
  | atomicRequest (who : DWord) (n : Nat)
  /-- PAIR_COMPARE (R387). -/
  | pairCompare (who : DWord) (match_ : Bool)
  /-- PAIR_PARTNER_TIMEOUT (R387). -/
  | pairPartnerTimeout (who : DWord)
  /-- CLIENT_ACCESS (R151). -/
  | clientAccess (vf : Nat) (va : DWord) (rq : BusReq)
  /-- FGO_WRITE (R329). -/
  | fgoWrite (vf : Nat) (v : Word)
  /-- FACCEPT_WRITE (R329). -/
  | facceptWrite (vf word : Nat) (v : DWord)
  /-- WINDOW_REGISTER_WRITE (R327). -/
  | windowRegisterWrite (link : Nat) (r : WinReg) (v : DWord)
  /-- QBELL_WRITE (R327). -/
  | qbellWrite (vf : Nat) (q : Word)
  /-- BOOT (R336). -/
  | boot (fabric : Bool) (dev : Nat)
  /-- SLOT_UPDATE (R335). -/
  | slotUpdate (imgs : List Image)
  /-- LIFE_COUNTER_UPDATE (R392). -/
  | lifeCounterUpdate
  /-- OPEN (R341). -/
  | openMsg (conn : Nat) (seq : Word) (asid : Nat)
  /-- PROVE (R338). -/
  | proveMsg (conn : Nat) (seq : Word) (key sig : List Byte)
  /-- CLOSE (R341). -/
  | closeMsg (conn : Nat) (seq : Word)
  /-- PING (R341). -/
  | pingMsg (conn : Nat) (seq : Word)
  /-- DEBUG_HALT (R342). -/
  | debugHalt (conn : Nat) (seq : Word) (name : BitVec 128)
  /-- RESUME (R341). -/
  | resumeMsg (conn : Nat) (seq : Word) (name : BitVec 128)
  /-- STEP (R344). -/
  | stepMsg (conn : Nat) (seq : Word) (name : BitVec 128) (stream : Byte)
  /-- STEP_BLOCKED (R344). -/
  | stepBlocked
  /-- SETBP (R343). -/
  | setbp (conn : Nat) (seq : Word) (name : BitVec 128) (stream cmp : Byte) (pc : DWord)
  /-- CLRBP (R341). -/
  | clrbp (conn : Nat) (seq : Word) (name : BitVec 128) (stream cmp : Byte)
  /-- READ (R341). -/
  | readMsg (conn : Nat) (seq : Word) (name : BitVec 128) (area off len : Word)
  /-- WRITE (R341). -/
  | writeMsg (conn : Nat) (seq : Word) (name : BitVec 128) (area off : Word) (bytes : List Byte)
  /-- TSTART (R345). -/
  | tstart (conn : Nat) (seq : Word) (name : BitVec 128) (base : DWord) (pages : Word)
  /-- TSTOP (R341). -/
  | tstop (conn : Nat) (seq : Word) (name : BitVec 128)
  /-- TACK (R346). -/
  | tack (conn : Nat) (seq : Word) (name : BitVec 128) (n : DWord)
  /-- RESERVED_DEBUG_MESSAGE (R341). -/
  | reservedDebugMessage (conn : Nat) (seq : Word) (opcode : Byte)
  /-- BREAKPOINT_MATCH (R343). -/
  | breakpointMatch (who : DWord) (compute : Bool)
  /-- DEBUG_SESSION_TIMEOUT (R338). -/
  | debugSessionTimeout (asid : Nat)
  /-- MANAGEMENT_LINK_DROP (R338). -/
  | managementLinkDrop
  /-- POWER_LOSS (R391). -/
  | powerLoss (cut : Bool)
  /-- PEER_REQUEST_ARRIVAL (R330). -/
  | peerRequestArrival (dev : Nat) (pa : BitVec 52) (rq : BusReq)
  /-- MANAGEMENT_PORT_IMAGE (R391). -/
  | managementPortImage (img : Image)
  deriving DecidableEq, Repr

end Sys2Proof
end

