-- ==== Sys2Proof/WellFormed.lean ====
section
/-! DEFINITION. Which operands of an instruction are well formed: steps 2 to 4 of R183, as far as they depend on the
word alone. Values that depend on a course's state (step 5, slot contents) are checked by the instruction's meaning. -/

namespace Sys2Proof

/-- Why a word is not an instruction, in the order in which R183 checks it (codes 0x60 to 0x63 of R352). -/
inductive DecErr where
  | opcode
  | control
  | zeroField
  | reserved
  deriving DecidableEq, Repr

/-- The failure code of a decoding error (R352). -/
def DecErr.code : DecErr → Code
  | .opcode => 0x60
  | .control => 0x61
  | .zeroField => 0x62
  | .reserved => 0x63

/-- The first error of a list of checks. -/
def firstErr : List (Bool × DecErr) → Option DecErr
  | [] => none
  | (true, e) :: _ => some e
  | (false, _) :: r => firstErr r

/-- A register field that must name a pair is even (R202). -/
def odd {n : Nat} (x : BitVec n) : Bool := x.toNat % 2 == 1

/-- The class of a 7-bit field of an operand set (R189, R288). -/
inductive FClass where
  | none
  | vecD
  | vecS
  | uniD
  | uniS
  | pred
  | qm
  | lit (lo hi : Nat)
  | scanOp
  | reduxOp
  | ballot
  | runS
  | runD
  | run6
  | even
  deriving DecidableEq, Repr

/-- What a C-format instruction does with its fields: the class of each, the modifiers, immediate form (0 none, 1
optional, 2 required), whether it is uniform-capable, its types, whether it uses `SLOT`, `RO` and a guard
(R233 to R250, R287). -/
structure CShape where
  d    : FClass
  s1   : FClass
  s2   : FClass
  s3   : FClass
  n1   : Bool
  a1   : Bool
  n2   : Bool
  a2   : Bool
  na3  : Bool
  clmp : Bool
  scl  : Bool
  imm  : Nat
  uni  : Bool
  types : List Nat
  slot : Bool
  ro   : Bool
  guard : Bool

/-- A C-format instruction as its opcode and fields. -/
structure CView where
  opc : Nat
  h   : CHdr
  a   : OpSet
  t   : Tail

/-- The opcode (R194) and the fields of an instruction of the common C format. -/
def Instr.cview : Instr → Option CView
  | .cnop h a t => some ⟨0x000, h, a, t⟩
  | .vadd h a t => some ⟨0x001, h, a, t⟩
  | .vsub h a t => some ⟨0x002, h, a, t⟩
  | .vmul h a t => some ⟨0x003, h, a, t⟩
  | .vmulh h a t => some ⟨0x004, h, a, t⟩
  | .vmad h a t => some ⟨0x005, h, a, t⟩
  | .vand h a t => some ⟨0x006, h, a, t⟩
  | .vor h a t => some ⟨0x007, h, a, t⟩
  | .vxor h a t => some ⟨0x008, h, a, t⟩
  | .vshl h a t => some ⟨0x009, h, a, t⟩
  | .vshr h a t => some ⟨0x00A, h, a, t⟩
  | .vsar h a t => some ⟨0x00B, h, a, t⟩
  | .vmin h a t => some ⟨0x00C, h, a, t⟩
  | .vmax h a t => some ⟨0x00D, h, a, t⟩
  | .vabs h a t => some ⟨0x00E, h, a, t⟩
  | .vcmp h a t => some ⟨0x010, h, a, t⟩
  | .vsel h a t => some ⟨0x011, h, a, t⟩
  | .vclz h a t => some ⟨0x012, h, a, t⟩
  | .vpopc h a t => some ⟨0x013, h, a, t⟩
  | .fadd h a t => some ⟨0x020, h, a, t⟩
  | .fsub h a t => some ⟨0x021, h, a, t⟩
  | .fmul h a t => some ⟨0x022, h, a, t⟩
  | .ffma h a t => some ⟨0x023, h, a, t⟩
  | .fmin h a t => some ⟨0x024, h, a, t⟩
  | .fmax h a t => some ⟨0x025, h, a, t⟩
  | .frcp h a t => some ⟨0x026, h, a, t⟩
  | .frsq h a t => some ⟨0x027, h, a, t⟩
  | .fsqrt h a t => some ⟨0x028, h, a, t⟩
  | .fexp2 h a t => some ⟨0x029, h, a, t⟩
  | .flog2 h a t => some ⟨0x02A, h, a, t⟩
  | .fcmp h a t => some ⟨0x030, h, a, t⟩
  | .fclass h a t => some ⟨0x031, h, a, t⟩
  | .plop h a t => some ⟨0x040, h, a, t⟩
  | .pfrom h a t => some ⟨0x041, h, a, t⟩
  | .pto h a t => some ⟨0x042, h, a, t⟩
  | .shfl h a t => some ⟨0x050, h, a, t⟩
  | .vote h a t => some ⟨0x051, h, a, t⟩
  | .ballot h a t => some ⟨0x052, h, a, t⟩
  | .scan h a t => some ⟨0x053, h, a, t⟩
  | .redux h a t => some ⟨0x054, h, a, t⟩
  | .cvt h a t => some ⟨0x060, h, a, t⟩
  | .cvti h a t => some ⟨0x061, h, a, t⟩
  | .pack h a t => some ⟨0x062, h, a, t⟩
  | .unpk h a t => some ⟨0x063, h, a, t⟩
  | .vmov h a t => some ⟨0x070, h, a, t⟩
  | .vmovi h a t => some ⟨0x071, h, a, t⟩
  | .vbcast h a t => some ⟨0x072, h, a, t⟩
  | .meld h a t => some ⟨0x090, h, a, t⟩
  | .mend h a t => some ⟨0x091, h, a, t⟩
  | .mloop h a t => some ⟨0x092, h, a, t⟩
  | .mbrk h a t => some ⟨0x093, h, a, t⟩
  | .cbr h a t => some ⟨0x0A0, h, a, t⟩
  | .cjoin h a t => some ⟨0x0A1, h, a, t⟩
  | .cloop h a t => some ⟨0x0A2, h, a, t⟩
  | .ccall h a t => some ⟨0x0A3, h, a, t⟩
  | .ccallPair h a t => some ⟨0x0A3, h, a, t⟩
  | .cret h a t => some ⟨0x0A4, h, a, t⟩
  | .cexit h a t => some ⟨0x0A5, h, a, t⟩
  | .qzero h a t => some ⟨0x100, h, a, t⟩
  | .qld h a t => some ⟨0x101, h, a, t⟩
  | .qst h a t => some ⟨0x102, h, a, t⟩
  | .qshape h a t => some ⟨0x103, h, a, t⟩
  | .qmul h a t => some ⟨0x104, h, a, t⟩
  | .qmad h a t => some ⟨0x105, h, a, t⟩
  | .qadd h a t => some ⟨0x106, h, a, t⟩
  | .qtrn h a t => some ⟨0x107, h, a, t⟩
  | .qchol h a t => some ⟨0x108, h, a, t⟩
  | .qlup h a t => some ⟨0x109, h, a, t⟩
  | .qsolv h a t => some ⟨0x10A, h, a, t⟩
  | .qmv h a t => some ⟨0x10B, h, a, t⟩
  | .qdiagGet h a t => some ⟨0x10C, h, a, t⟩
  | .qdiagSet h a t => some ⟨0x10C, h, a, t⟩
  | .qdiagAdd h a t => some ⟨0x10C, h, a, t⟩
  | .ldpi h a t => some ⟨0x300, h, a, t⟩
  | .stpi h a t => some ⟨0x301, h, a, t⟩
  | _ => none

/-- The table of field uses (R234, R236, R239 to R242, R246, R250, R287, R197). -/
def Instr.shape : Instr → Option CShape
  | .cnop _ _ _ => some ⟨.none, .none, .none, .none, false, false, false, false, false, false, false, 0, false, [0], false, false, false⟩
  | .vadd _ _ _ => some ⟨.vecD, .vecS, .vecS, .none, false, false, false, false, false, false, false, 1, true, [8, 14], false, false, true⟩
  | .vsub _ _ _ => some ⟨.vecD, .vecS, .vecS, .none, false, false, false, false, false, false, false, 1, true, [8, 14], false, false, true⟩
  | .vmul _ _ _ => some ⟨.vecD, .vecS, .vecS, .none, false, false, false, false, false, false, false, 1, true, [8, 14], false, false, true⟩
  | .vmulh _ _ _ => some ⟨.vecD, .vecS, .vecS, .none, false, false, false, false, false, false, false, 1, true, [8, 14], false, false, true⟩
  | .vmad _ _ _ => some ⟨.vecD, .vecS, .vecS, .vecS, false, false, false, false, false, false, false, 1, true, [8, 14], false, false, true⟩
  | .vand _ _ _ => some ⟨.vecD, .vecS, .vecS, .none, false, false, false, false, false, false, false, 1, true, [8, 14], false, false, true⟩
  | .vor _ _ _ => some ⟨.vecD, .vecS, .vecS, .none, false, false, false, false, false, false, false, 1, true, [8, 14], false, false, true⟩
  | .vxor _ _ _ => some ⟨.vecD, .vecS, .vecS, .none, false, false, false, false, false, false, false, 1, true, [8, 14], false, false, true⟩
  | .vshl _ _ _ => some ⟨.vecD, .vecS, .vecS, .none, false, false, false, false, false, false, false, 1, true, [8, 14], false, false, true⟩
  | .vshr _ _ _ => some ⟨.vecD, .vecS, .vecS, .none, false, false, false, false, false, false, false, 1, true, [8, 14], false, false, true⟩
  | .vsar _ _ _ => some ⟨.vecD, .vecS, .vecS, .none, false, false, false, false, false, false, false, 1, true, [8, 14], false, false, true⟩
  | .vmin _ _ _ => some ⟨.vecD, .vecS, .vecS, .none, false, false, false, false, false, false, false, 1, true, [8, 14], false, false, true⟩
  | .vmax _ _ _ => some ⟨.vecD, .vecS, .vecS, .none, false, false, false, false, false, false, false, 1, true, [8, 14], false, false, true⟩
  | .vabs _ _ _ => some ⟨.vecD, .vecS, .none, .none, false, false, false, false, false, false, false, 0, true, [8], false, false, true⟩
  | .vcmp _ _ _ => some ⟨.pred, .vecS, .vecS, (.lit 0 10), false, false, false, false, false, false, false, 1, false, [8], false, false, true⟩
  | .vsel _ _ _ => some ⟨.vecD, .vecS, .vecS, .pred, false, false, false, false, false, false, false, 1, false, [8], false, false, true⟩
  | .vclz _ _ _ => some ⟨.vecD, .vecS, .none, .none, false, false, false, false, false, false, false, 0, true, [8, 14], false, false, true⟩
  | .vpopc _ _ _ => some ⟨.vecD, .vecS, .none, .none, false, false, false, false, false, false, false, 0, true, [8, 14], false, false, true⟩
  | .fadd _ _ _ => some ⟨.vecD, .vecS, .vecS, .none, true, true, true, true, false, true, true, 1, true, [0, 1], true, true, true⟩
  | .fsub _ _ _ => some ⟨.vecD, .vecS, .vecS, .none, true, true, true, true, false, true, true, 1, true, [0, 1], true, true, true⟩
  | .fmul _ _ _ => some ⟨.vecD, .vecS, .vecS, .none, true, true, true, true, false, true, true, 1, true, [0, 1], true, true, true⟩
  | .ffma _ _ _ => some ⟨.vecD, .vecS, .vecS, .vecS, true, true, true, true, true, true, true, 1, true, [0, 1], true, true, true⟩
  | .fmin _ _ _ => some ⟨.vecD, .vecS, .vecS, .none, true, true, true, true, false, true, true, 1, true, [0, 1], true, true, true⟩
  | .fmax _ _ _ => some ⟨.vecD, .vecS, .vecS, .none, true, true, true, true, false, true, true, 1, true, [0, 1], true, true, true⟩
  | .frcp _ _ _ => some ⟨.vecD, .vecS, .none, .none, true, true, false, false, false, true, true, 0, true, [0, 1], true, true, true⟩
  | .frsq _ _ _ => some ⟨.vecD, .vecS, .none, .none, true, true, false, false, false, true, true, 0, true, [0, 1], true, true, true⟩
  | .fsqrt _ _ _ => some ⟨.vecD, .vecS, .none, .none, true, true, false, false, false, true, true, 0, true, [0, 1], true, true, true⟩
  | .fexp2 _ _ _ => some ⟨.vecD, .vecS, .none, .none, true, true, false, false, false, true, true, 0, true, [0, 1], true, true, true⟩
  | .flog2 _ _ _ => some ⟨.vecD, .vecS, .none, .none, true, true, false, false, false, true, true, 0, true, [0, 1], true, true, true⟩
  | .fcmp _ _ _ => some ⟨.pred, .vecS, .vecS, (.lit 0 7), true, true, true, true, false, false, false, 1, false, [0, 1], true, false, true⟩
  | .fclass _ _ _ => some ⟨.vecD, .vecS, .none, .none, false, false, false, false, false, false, false, 0, true, [0, 1], false, false, true⟩
  | .plop _ _ _ => some ⟨.pred, .pred, .pred, (.lit 0 15), false, false, false, false, false, false, false, 0, false, [8], false, false, true⟩
  | .pfrom _ _ _ => some ⟨.pred, .vecS, .none, .none, false, false, false, false, false, false, false, 0, false, [8], false, false, true⟩
  | .pto _ _ _ => some ⟨.vecD, .pred, .none, .none, false, false, false, false, false, false, false, 0, false, [8], false, false, true⟩
  | .shfl _ _ _ => some ⟨.vecD, .vecS, .vecS, (.lit 0 3), false, false, false, false, false, false, false, 1, false, [8], false, false, true⟩
  | .vote _ _ _ => some ⟨.pred, .pred, .none, (.lit 0 2), false, false, false, false, false, false, false, 0, false, [8], false, false, true⟩
  | .ballot _ _ _ => some ⟨.ballot, .pred, .none, .none, false, false, false, false, false, false, false, 0, false, [8], false, false, true⟩
  | .scan _ a _ => some ⟨.vecD, .vecS, .none, .scanOp, false, false, false, false, false, false, false, 0, false, (if (a.s3.toNat % 8) = 5 then [0, 1] else [8]), (a.s3.toNat % 8 == 5), (a.s3.toNat % 8 == 5), true⟩
  | .redux _ a _ => some ⟨.vecD, .vecS, .none, .reduxOp, false, false, false, false, false, false, false, 0, false, (if (a.s3.toNat % 8) = 5 then [0, 1] else [8]), (a.s3.toNat % 8 == 5), (a.s3.toNat % 8 == 5), true⟩
  | .cvt _ _ _ => some ⟨.vecD, .vecS, .none, .none, false, false, false, false, false, false, true, 0, true, [0, 1, 2, 3, 4, 5, 6, 7], true, true, true⟩
  | .cvti _ _ _ => some ⟨.vecD, .vecS, .none, .none, false, false, false, false, false, false, true, 0, true, [0, 1, 2, 3, 4, 5, 6, 7, 8, 9, 10, 11, 13, 14], true, true, true⟩
  | .pack _ _ _ => some ⟨.vecD, .vecS, .none, .none, false, false, false, false, false, false, false, 0, false, [1, 2, 3, 4, 5, 6, 7, 9, 10, 11, 12, 13], true, true, true⟩
  | .unpk _ _ _ => some ⟨.vecD, .vecS, .none, .none, false, false, false, false, false, false, false, 0, false, [1, 2, 3, 4, 5, 6, 7, 9, 10, 11, 12, 13], true, false, true⟩
  | .vmov _ _ _ => some ⟨.vecD, .vecS, .none, .none, false, false, false, false, false, false, false, 0, true, [8], false, false, true⟩
  | .vmovi _ _ _ => some ⟨.vecD, .none, .none, .none, false, false, false, false, false, false, false, 2, true, [8], false, false, true⟩
  | .vbcast _ _ _ => some ⟨.vecD, .uniS, .none, .none, false, false, false, false, false, false, false, 0, false, [8], false, false, true⟩
  | .meld _ _ _ => some ⟨.none, .pred, .none, .none, false, false, false, false, false, false, false, 0, false, [0], false, false, false⟩
  | .mend _ _ _ => some ⟨.none, .none, .none, .none, false, false, false, false, false, false, false, 0, false, [0], false, false, false⟩
  | .mloop _ _ _ => some ⟨.none, .vecS, .none, .none, false, false, false, false, false, false, false, 0, false, [0], false, false, false⟩
  | .mbrk _ _ _ => some ⟨.none, .none, .none, .none, false, false, false, false, false, false, false, 0, false, [0], false, false, true⟩
  | .cbr _ _ _ => some ⟨.none, .none, .none, .none, false, false, false, false, false, false, false, 0, false, [0], false, false, true⟩
  | .cjoin _ _ _ => some ⟨.none, .none, .none, .none, false, false, false, false, false, false, false, 0, false, [0], false, false, false⟩
  | .cloop _ _ _ => some ⟨.none, (.lit 1 28), .none, .none, false, false, false, false, false, false, false, 0, false, [0], false, false, false⟩
  | .ccall _ _ _ => some ⟨.none, .none, .none, .none, false, false, false, false, false, false, false, 0, false, [0], false, false, false⟩
  | .ccallPair _ _ _ => some ⟨.none, .uniS, .none, .none, false, false, false, false, false, false, false, 0, false, [0], false, false, false⟩
  | .cret _ _ _ => some ⟨.none, .none, .none, .none, false, false, false, false, false, false, false, 0, false, [0], false, false, false⟩
  | .cexit _ _ _ => some ⟨.none, .none, .none, .none, false, false, false, false, false, false, false, 0, false, [0], false, false, true⟩
  | .qzero _ _ _ => some ⟨.qm, .none, (.lit 1 6), (.lit 1 6), false, false, false, false, false, false, false, 0, false, [0], false, false, true⟩
  | .qld _ _ _ => some ⟨.qm, .runS, (.lit 0 35), (.lit 1 36), false, false, false, false, false, false, false, 0, false, [0], false, false, true⟩
  | .qst _ _ _ => some ⟨.runD, .qm, (.lit 0 35), (.lit 1 36), false, false, false, false, false, false, false, 0, false, [0], false, false, true⟩
  | .qshape _ _ _ => some ⟨.qm, .none, (.lit 1 6), (.lit 1 6), false, false, false, false, false, false, false, 0, false, [0], false, false, true⟩
  | .qmul _ _ _ => some ⟨.qm, .qm, .qm, .none, false, false, false, false, false, false, false, 0, false, [0], true, true, true⟩
  | .qmad _ _ _ => some ⟨.qm, .qm, .qm, .qm, false, false, false, false, false, false, false, 0, false, [0], true, true, true⟩
  | .qadd _ _ _ => some ⟨.qm, .qm, .qm, .none, true, false, true, false, false, false, false, 0, false, [0], true, true, true⟩
  | .qtrn _ _ _ => some ⟨.qm, .qm, .none, .none, false, false, false, false, false, false, false, 0, false, [0], false, false, true⟩
  | .qchol _ _ _ => some ⟨.qm, .qm, .vecD, .pred, false, false, false, false, false, false, false, 0, false, [0], true, true, true⟩
  | .qlup _ _ _ => some ⟨.qm, .qm, .vecD, .pred, false, false, false, false, false, false, false, 0, false, [0], true, true, true⟩
  | .qsolv _ _ _ => some ⟨.qm, .qm, .qm, .vecS, false, false, false, false, false, false, false, 0, false, [0], true, true, true⟩
  | .qmv _ _ _ => some ⟨.run6, .qm, .run6, .none, false, false, false, false, false, false, false, 0, false, [0], true, true, true⟩
  | .qdiagGet _ _ _ => some ⟨.run6, .qm, .none, (.lit 0 0), false, false, false, false, false, false, false, 0, false, [0], false, false, true⟩
  | .qdiagSet _ _ _ => some ⟨.qm, .run6, .none, (.lit 1 1), false, false, false, false, false, false, false, 0, false, [0], false, false, true⟩
  | .qdiagAdd _ _ _ => some ⟨.qm, .qm, .run6, (.lit 2 2), false, false, false, false, false, false, false, 0, false, [0], true, true, true⟩
  | .ldpi _ _ _ => some ⟨.vecD, .even, .even, .none, false, false, false, false, false, false, false, 2, false, [8, 14, 9, 10, 13], false, false, true⟩
  | .stpi _ _ _ => some ⟨.vecS, .even, .even, .none, false, false, false, false, false, false, false, 2, false, [8, 14, 9, 10, 13], false, false, true⟩
  | _ => none

/-- A value outside a field's class (R189): none when it is allowed. A uniform instruction reads its vector fields as
uniform ones. `n` is the length of a run that the field starts (R288). -/
def FClass.bad (c : FClass) (uni : Bool) (n : Nat) (x : BitVec 7) : Option DecErr :=
  let v := x.toNat
  let uniD := firstErr [((32 ≤ v && v < 124) || v == 126, .reserved)]
  let uniS := firstErr [((32 ≤ v && v < 120) || v == 124 || v == 125 || v == 126, .reserved)]
  match c with
  | .none => firstErr [(v != 0, .zeroField)]
  | .vecD => if uni then uniD else firstErr [((120 ≤ v && v ≤ 123) || v == 126, .reserved)]
  | .vecS => if uni then uniS else firstErr [(v == 124 || v == 125, .reserved)]
  | .uniD => uniD
  | .uniS => uniS
  | .pred => firstErr [(8 ≤ v, .reserved)]
  | .qm => firstErr [(8 ≤ v, .reserved)]
  | .lit lo hi => firstErr [(v < lo || hi < v, .reserved)]
  | .scanOp => firstErr [(16 ≤ v, .zeroField), (6 ≤ v % 8, .reserved)]
  | .reduxOp => firstErr [(8 ≤ v, .zeroField), (6 ≤ v, .reserved)]
  | .ballot => firstErr [(v == 0 || 29 < v, .reserved)]
  | .runS => firstErr [(!(v + n ≤ 120) && !(n == 1 && 120 ≤ v && v ≤ 123), .reserved)]
  | .runD => firstErr [(!(v + n ≤ 120) && !(n == 1 && (v == 124 || v == 125)), .reserved)]
  | .run6 => firstErr [(120 < v + 6, .reserved)]
  | .even => firstErr [(odd x, .zeroField), (64 ≤ v, .reserved)]

/-- Whether a class makes no demand beyond being zero. -/
def FClass.isNone (c : FClass) : Bool := c == .none

/-- Step 3 of R183 on one operand set: fields and modifiers the instruction does not use are zero. -/
def CShape.unusedBad (sh : CShape) (immUsed : Bool) (a : OpSet) : Bool :=
  (sh.d.isNone && a.d != 0) || (sh.s1.isNone && a.s1 != 0) ||
  ((sh.s2.isNone || immUsed) && a.s2 != 0) || (sh.s3.isNone && a.s3 != 0) ||
  (!sh.n1 && a.n1 != 0) || (!sh.a1 && a.a1 != 0) || (!sh.n2 && a.n2 != 0) || (!sh.a2 && a.a2 != 0) ||
  (!sh.na3 && (a.n3 != 0 || a.a3 != 0)) || (!sh.clmp && a.clmp != 0) || (!sh.scl && a.scl != 0) ||
  (sh.s3 == .scanOp && 16 ≤ a.s3.toNat) || (sh.s3 == .reduxOp && 8 ≤ a.s3.toNat) || (sh.s3 == .lit 0 15 && 16 ≤ a.s3.toNat) ||
  (sh.s1 == .even && (odd a.s1 || odd a.s2))

/-- Step 4 of R183 on one operand set: values outside their class, a clamp of 0b11, a run of `QLD` or `QST` past
element 35. -/
def CShape.setBad (sh : CShape) (uni immUsed : Bool) (a : OpSet) : Bool :=
  let n := a.s3.toNat
  (sh.d.bad uni n a.d).isSome || (sh.s1.bad uni n a.s1).isSome ||
  (!immUsed && (sh.s2.bad uni n a.s2).isSome) || (sh.s3.bad uni n a.s3).isSome || a.clmp == 3 ||
  ((sh.s1 == .runS || sh.d == .runD) && 36 < a.s2.toNat + n)

/-- The immediate a tail carries. -/
def Tail.immed : Tail → Option (BitVec 32)
  | .imm v => some v
  | _ => .none

/-- Set B of a melded word. -/
def Tail.second : Tail → Option OpSet
  | .setB b => some b
  | _ => .none

/-- The tail has the form that R190 gives the word: set B exactly when `FACE` is 11, a branch offset exactly for the
branch opcodes otherwise. -/
def CView.tailOk (c : CView) : Bool :=
  match c.t with
  | .setB _ => c.h.face == 3
  | .off _ => c.h.face != 3 && (0xA0 ≤ c.opc && c.opc ≤ 0xA3)
  | _ => c.h.face != 3 && !(0xA0 ≤ c.opc && c.opc ≤ 0xA3)

/-- `CCALL` takes `FACE` other than 11 and the two-target form `FACE` 11; the mode of a `QDIAG` is in the
S3 of every set (R287). -/
def Instr.formOk : Instr → Bool
  | .ccall h _ _ => h.face != 3
  | .ccallPair h _ _ => h.face == 3
  | _ => true

/-- Melded sets that clash: `BALLOT` ranges that overlap at different `d` (R247), and operations of `SCAN` or `REDUX`
that need different types (R233). `QDIAG` sets of different modes (R287) are caught by the literal class of S3. -/
def Instr.meldBad : Instr → Bool
  | .ballot _ a (.setB b) =>
      a.d != b.d && a.d.toNat < b.d.toNat + 3 && b.d.toNat < a.d.toNat + 3
  | .scan _ a (.setB b) | .redux _ a (.setB b) => (a.s3.toNat % 8 == 5) != (b.s3.toNat % 8 == 5)
  | _ => false

/-- The shape by which the fields of set B are judged unused: that of set B's own mode for `QDIAG` (R287), else the instruction's. -/
def Instr.secondShape (i : Instr) (sh : CShape) (b : OpSet) : CShape :=
  match i with
  | .qdiagGet h _ t | .qdiagSet h _ t | .qdiagAdd h _ t =>
    ((if b.s3 = 0 then Instr.qdiagGet h b t else if b.s3 = 1 then .qdiagSet h b t else .qdiagAdd h b t).shape).getD sh
  | _ => sh

/-- The operand checks of the common C format (R183, steps 3 and 4). A word that needs `IMM` = 1 and has 0, `LDPI` and `STPI` among them, is
0x63 (log entry 133, DESIGN CHOICE). -/
def checkC (i : Instr) (c : CView) (sh : CShape) : Option DecErr :=
  let immUsed := c.t.immed.isSome
  let uni := c.h.uni == 1
  firstErr
    [ (!c.tailOk || !i.formOk, .zeroField),
      (immUsed && sh.imm == 0, .zeroField),
      (sh.unusedBad (immUsed && sh.imm == 1) c.a, .zeroField),
      ((c.t.second.map (fun b => (i.secondShape sh b).unusedBad false b)).getD false, .zeroField),
      (!sh.uni && uni, .zeroField),
      (!sh.slot && c.h.slot != 0, .zeroField),
      (!sh.ro && c.h.ro != 0, .zeroField),
      (!sh.guard && (c.h.grd != 0 || c.h.gneg != 0), .zeroField),
      ((sh.s1 == .even || c.opc == 0) && c.h.face != 0, .zeroField),
      (!immUsed && sh.imm == 2, .reserved),
      (!sh.types.contains c.h.typ.toNat, .reserved),
      (sh.setBad uni (immUsed && sh.imm == 1) c.a, .reserved),
      ((c.t.second.map (sh.setBad uni false)).getD false, .reserved),
      (i.meldBad, .reserved) ]

/-- Token i of an `EXPR` program (R191). -/
def ExprBody.tok (e : ExprBody) (i : Nat) : Nat := (e.toks.toNat / 2 ^ (40 - 4 * i)) % 16

/-- The program of an `EXPR`: its tokens up to the first end token. -/
def ExprBody.prog (e : ExprBody) : List Nat := ((List.range 11).map e.tok).takeWhile (· != 15)

/-- The stack depth after a token list, none when it under- or overflows a stack of 4 (R191). -/
def exprDepth : List Nat → Nat → Option Nat
  | [], d => some d
  | t :: r, d =>
      if t ≤ 3 then (if d = 4 then none else exprDepth r (d + 1))
      else if t ≤ 8 then (if d < 2 then none else exprDepth r (d - 1))
      else if d < 1 then none else exprDepth r d

/-- `EXPR` is ill-formed in the cases of R191. -/
def ExprBody.illFormed (e : ExprBody) : Bool :=
  let p := e.prog
  p.isEmpty || exprDepth p 0 != some 1 || 7 < (p.filter (4 ≤ ·)).length ||
  ((List.range 11).drop p.length).any (fun i => e.tok i != 15)

/-- The checks of `EXPR` (R191, R233, R244). -/
def checkExpr (h : CHdr) (e : ExprBody) : Option DecErr :=
  let unused (n : Nat) (x : BitVec 7) : Bool := !e.prog.contains n && x != 0
  firstErr
    [ (unused 0 e.s1 || unused 1 e.s2 || unused 2 e.s3 || unused 3 e.s4, .zeroField),
      (h.uni != 0, .zeroField),
      (h.typ.toNat > 1, .reserved),
      ((FClass.vecD.bad false 1 e.d).isSome, .reserved),
      ([e.s1, e.s2, e.s3, e.s4].any (fun x => (FClass.vecS.bad false 1 x).isSome), .reserved),
      (e.illFormed, .reserved) ]

/-- A kind of access a row of R126 allows for read-modify-writes, and a scope that exists (R18, R126, R215). -/
def rmwBad (kind : BitVec 3) (scope : BitVec 4) : Bool := kind == 0 || 4 < kind.toNat || 9 < scope.toNat

/-- The operand checks of an A-format instruction (R183, steps 3 and 4; R202, R256, R299). -/
def checkA : Instr → Option DecErr
  | .addp _ rd ra rb | .subp _ rd ra rb => firstErr [(odd rd || odd ra || odd rb, .zeroField)]
  | .shlp _ rd ra _ | .shrp _ rd ra _ => firstErr [(odd rd || odd ra, .zeroField)]
  | .set _ _ _ _ cond | .sel _ _ _ _ cond => firstErr [(10 < cond.toNat, .reserved)]
  | .shli _ _ _ imm | .shri _ _ _ imm | .sari _ _ _ imm => firstErr [(63 < imm.toNat, .reserved)]
  | .seti _ _ _ imm => firstErr [(10 < imm.toNat / 2 ^ 20, .reserved)]
  | .movhi _ _ ra imm => firstErr [(ra != 0 || 2 ^ 16 ≤ imm.toNat, .zeroField)]
  | .addpi _ rd ra _ => firstErr [(odd rd || odd ra, .zeroField)]
  | .bind _ _ _ sp _ off => firstErr [(sp == 0 && off != 0, .zeroField), (off.toNat % 32 != 0, .zeroField)]
  | .lea _ rd _ sel imm => firstErr [(odd rd || (sel != 0 && imm != 0), .zeroField), (3 < sel.toNat, .reserved)]
  | .ldu _ sz rd _ _ _ | .stu _ sz rd _ _ _ => firstErr [(sz == 3 && odd rd, .zeroField)]
  | .vld _ _ q _ _ _ hint _ | .vldx _ _ q _ _ _ hint _ => firstErr [(3 < q.toNat || hint == 3, .reserved)]
  | .vst _ _ q _ _ nr hint _ => firstErr [(1 < q.toNat || hint == 3 || nr != 0, .reserved)]
  | .vstx _ _ q _ rs nr hint _ =>
      firstErr [(1 < q.toNat || hint == 3 || nr != 0 || q.toNat == rs.toNat / 32, .reserved)]
  | .amo _ rd _ kind scope op rb =>
      let o := op.toNat % 16
      let wide := 16 ≤ op.toNat
      firstErr [((wide && (odd rd || odd rb)) || (o == 11 && rb != 0) || (o == 12 && rd != 0), .zeroField),
        (rmwBad kind scope || 12 < o || (o == 10 && wide) || (o == 11 && kind == 3) || (o == 12 && kind == 2), .reserved)]
  | .cas _ rd _ kind scope op rb =>
      firstErr [(op.toNat % 16 != 0 || (16 ≤ op.toNat && (odd rd || odd rb)), .zeroField), (rmwBad kind scope, .reserved)]
  | .vamo _ rd kind scope op rb _ q =>
      firstErr [(8 ≤ rd.toNat || (rd.toNat < 4 && rd != 0) || 1 < rb.toNat, .zeroField),
        (rmwBad kind scope || 10 < op.toNat || 1 < q.toNat || rb.toNat == q.toNat, .reserved)]
  | .vcas _ rd kind scope op rb _ q =>
      firstErr [(8 ≤ rd.toNat || (rd.toNat < 4 && rd != 0) || 1 < rb.toNat || op.toNat % 16 != 0, .zeroField),
        (rmwBad kind scope || 16 ≤ op.toNat || 1 < q.toNat || rb.toNat == q.toNat, .reserved)]
  | .fence _ kind scope => firstErr [(kind.toNat < 2 || 4 < kind.toNat || 9 < scope.toNat, .reserved)]
  | .qpush _ q _ => firstErr [(3 < q.toNat, .reserved)]
  | .qpop _ _ q => firstErr [(1 < q.toNat, .reserved)]
  | .taglk _ _ ra | .tagset _ ra _ | .taginv _ ra => firstErr [(odd ra, .zeroField)]
  | .tagrd _ rd _ => firstErr [(odd rd, .zeroField)]
  | .bcnd _ cond _ _ => firstErr [(10 < cond.toNat, .reserved)]
  | .loop _ cond ra _ => firstErr [(10 < cond.toNat || ra == 0, .reserved)]
  | .jmpr _ rd ra => firstErr [(odd rd || odd ra, .zeroField)]
  | .bar _ _ _ _ scope => firstErr [(scope == 0 || 6 < scope.toNat, .reserved)]
  | .sleept _ rd => firstErr [(odd rd, .zeroField)]
  | .cpy _ rd _ | .cpyr _ rd _ | .cpyg _ rd _ | .cpyp _ rd _ => firstErr [(odd rd, .zeroField), (rd == 0, .reserved)]
  | .shadow _ _ _ rb _ _ => firstErr [(odd rb, .zeroField)]
  | .publish _ _ scope => firstErr [(9 < scope.toNat, .reserved)]
  | .waygtBanks _ _ rb _ => firstErr [(odd rb, .zeroField)]
  -- services 1 to 5 have rows of their own, so this error is never met in decoding
  | .moncUnknownService _ imm => firstErr [(imm != 0 && imm.toNat ≤ 5, .reserved)]
  | _ => none

/-- The checks of steps 3 and 4 of R183 that depend on the word alone. -/
def Instr.check (i : Instr) : Option DecErr :=
  match i with
  | .expr h e => checkExpr h e
  | _ =>
    match i.cview, i.shape with
    | some c, some sh => checkC i c sh
    | _, _ => checkA i

/-- The control fields of an instruction; steps the device takes by itself have none. -/
def Instr.ctl : Instr → Option Ctl
  | .expr h _ => some h.k
  | .undefinedCWord k _ => some k
  | .nop k => some k
  | .add k _ _ _ => some k
  | .sub k _ _ _ => some k
  | .and k _ _ _ => some k
  | .or k _ _ _ => some k
  | .xor k _ _ _ => some k
  | .shl k _ _ _ => some k
  | .shr k _ _ _ => some k
  | .sar k _ _ _ => some k
  | .mul k _ _ _ => some k
  | .mulh k _ _ _ => some k
  | .mulhn k _ _ _ => some k
  | .div k _ _ _ => some k
  | .divn k _ _ _ => some k
  | .rem k _ _ _ => some k
  | .remn k _ _ _ => some k
  | .min k _ _ _ => some k
  | .max k _ _ _ => some k
  | .minn k _ _ _ => some k
  | .maxn k _ _ _ => some k
  | .set k _ _ _ _ => some k
  | .sel k _ _ _ _ => some k
  | .clz k _ _ => some k
  | .popc k _ _ => some k
  | .brev k _ _ => some k
  | .addp k _ _ _ => some k
  | .subp k _ _ _ => some k
  | .shlp k _ _ _ => some k
  | .shrp k _ _ _ => some k
  | .mov k _ _ => some k
  | .addi k _ _ _ => some k
  | .andi k _ _ _ => some k
  | .ori k _ _ _ => some k
  | .xori k _ _ _ => some k
  | .shli k _ _ _ => some k
  | .shri k _ _ _ => some k
  | .sari k _ _ _ => some k
  | .muli k _ _ _ => some k
  | .seti k _ _ _ => some k
  | .movhi k _ _ _ => some k
  | .addpi k _ _ _ => some k
  | .bind k _ _ _ _ _ => some k
  | .lea k _ _ _ _ => some k
  | .unbind k _ => some k
  | .ldu k _ _ _ _ _ => some k
  | .stu k _ _ _ _ _ => some k
  | .vld k _ _ _ _ _ _ _ => some k
  | .vst k _ _ _ _ _ _ _ => some k
  | .vldx k _ _ _ _ _ _ _ => some k
  | .vstx k _ _ _ _ _ _ _ => some k
  | .amo k _ _ _ _ _ _ => some k
  | .cas k _ _ _ _ _ _ => some k
  | .vamo k _ _ _ _ _ _ _ => some k
  | .vcas k _ _ _ _ _ _ _ => some k
  | .fence k _ _ => some k
  | .qpush k _ _ => some k
  | .qpop k _ _ => some k
  | .taglk k _ _ => some k
  | .tagset k _ _ => some k
  | .taginv k _ => some k
  | .tagrd k _ _ => some k
  | .br k _ => some k
  | .bcnd k _ _ _ => some k
  | .call k _ => some k
  | .ret k => some k
  | .jmpr k _ _ => some k
  | .loop k _ _ _ => some k
  | .bar k _ _ _ _ => some k
  | .sleept k _ => some k
  | .wfe k => some k
  | .sev k => some k
  | .exit k => some k
  | .srd k _ _ => some k
  | .swr k _ _ => some k
  | .cpy k _ _ => some k
  | .cpyr k _ _ => some k
  | .cpyg k _ _ => some k
  | .cpyp k _ _ => some k
  | .shadow k _ _ _ _ _ => some k
  | .shadowDismiss k _ => some k
  | .publish k _ _ => some k
  | .chdef k _ _ => some k
  | .chput k _ _ _ => some k
  | .chget k _ _ _ => some k
  | .chwaitGet k _ _ _ => some k
  | .chwaitPut k _ _ _ => some k
  | .gang k _ => some k
  | .mma k _ _ _ _ _ _ _ => some k
  | .mmag k _ _ _ _ _ _ _ => some k
  | .wbld k _ _ _ _ _ _ => some k
  | .ralloc k _ _ _ => some k
  | .remit k _ _ _ => some k
  | .rtake k _ _ _ => some k
  | .rdone k _ => some k
  | .snap k => some k
  | .snapc k _ _ => some k
  | .pgreq k _ _ => some k
  | .trap k _ => some k
  | .svc k _ => some k
  | .hvc k _ => some k
  | .moncVerifyImage k => some k
  | .moncExtendMeasurement k => some k
  | .moncAttestationReport k => some k
  | .moncConfirmSlot k => some k
  | .moncCommitSvn k => some k
  | .moncUnknownService k _ => some k
  | .eret k => some k
  | .bkpt k _ => some k
  | .tlbinvRange k _ _ _ => some k
  | .tlbinvAsid k _ => some k
  | .tlbinvAll k => some k
  | .cinv k _ _ => some k
  | .cwb k _ _ => some k
  | .waygtWays k _ _ => some k
  | .waygtBanks k _ _ _ => some k
  | .halt k => some k
  | .ctxreqBind k _ => some k
  | .ctxreqUnbind k _ => some k
  | .ctxreqSwitch k _ => some k
  | .ctxreqStreamOut k _ => some k
  | .ctxreqStreamIn k _ => some k
  | .ctxreqReservedOp k _ => some k
  | .fencei k => some k
  | .granset k _ _ _ => some k
  | .udf _ k => some k
  | i => i.cview.map (fun c => c.h.k)

/-- A `SIG` of 12 to 14 is reserved (R32). -/
def Ctl.sigOk (k : Ctl) : Bool := k.sig.toNat ≤ 11 || k.sig == 15

/-- An instruction whose every operand the manual allows, as far as the word alone decides. -/
def Instr.WellFormed (i : Instr) : Prop :=
  i.check = none ∧ (match i.ctl with | some k => k.sigOk = true | none => False)

end Sys2Proof
end

