-- ==== Sys2Proof/Decode.lean ====
section
/-! DEFINITION. Decoding of A words, C words and W6 words, total on any bits and refusing by code (R181 to R201); the
encoder of every instruction, and the translation of W6 code. Words are natural numbers below 2^64 or 2^128. -/

namespace Sys2Proof

/-- Bits [lo + n - 1 : lo] of a word. -/
def fld (n w lo : Nat) : BitVec n := BitVec.ofNat n (w / 2 ^ lo)

/-- Bits [lo + n - 1 : lo] of a word as a number. -/
def bits (n w lo : Nat) : Nat := w / 2 ^ lo % 2 ^ n

/-- Sign extension of an n-bit number to m bits, as a number. -/
def sextNat (n m x : Nat) : Nat := if x < 2 ^ (n - 1) then x else x + 2 ^ m - 2 ^ n

/-- The control fields above bit `lo` (`SIG`, then `WAIT`, then `DIST`; R184, R189). -/
def Ctl.of (w lo : Nat) : Ctl := ⟨fld 4 w (lo + 16), fld 12 w (lo + 4), fld 4 w lo⟩

/-- The control fields placed at bit `lo`. -/
def Ctl.enc (k : Ctl) (lo : Nat) : Nat :=
  (k.sig.toNat + k.wait.toNat * 2 ^ 4 + k.dist.toNat * 2 ^ 16) * 2 ^ lo

/-- A decoding step: an instruction, or the code it is refused with. -/
abbrev Dec := Except DecErr Instr

/-- A word of fields, each a value and its lowest bit. -/
def put : List (Nat × Nat) → Nat
  | [] => 0
  | (x, lo) :: r => x * 2 ^ lo + put r

/-! A-format words (R184 to R188, R193). -/

/-- Opcode, body and control fields of an A-format instruction (R185, R193; chapters 11, 13 and 15 for the rest). -/
def Instr.encBodyA : Instr → Option (Nat × Nat × Ctl)
  | .nop k => some (0x00, put [], k)
  | .add k rd ra rb => some (0x01, put [(rd.toNat, 30), (ra.toNat, 24), (rb.toNat, 18)], k)
  | .sub k rd ra rb => some (0x02, put [(rd.toNat, 30), (ra.toNat, 24), (rb.toNat, 18)], k)
  | .and k rd ra rb => some (0x03, put [(rd.toNat, 30), (ra.toNat, 24), (rb.toNat, 18)], k)
  | .or k rd ra rb => some (0x04, put [(rd.toNat, 30), (ra.toNat, 24), (rb.toNat, 18)], k)
  | .xor k rd ra rb => some (0x05, put [(rd.toNat, 30), (ra.toNat, 24), (rb.toNat, 18)], k)
  | .shl k rd ra rb => some (0x06, put [(rd.toNat, 30), (ra.toNat, 24), (rb.toNat, 18)], k)
  | .shr k rd ra rb => some (0x07, put [(rd.toNat, 30), (ra.toNat, 24), (rb.toNat, 18)], k)
  | .sar k rd ra rb => some (0x08, put [(rd.toNat, 30), (ra.toNat, 24), (rb.toNat, 18)], k)
  | .mul k rd ra rb => some (0x09, put [(rd.toNat, 30), (ra.toNat, 24), (rb.toNat, 18)], k)
  | .mulh k rd ra rb => some (0x0A, put [(rd.toNat, 30), (ra.toNat, 24), (rb.toNat, 18)], k)
  | .mulhn k rd ra rb => some (0x0B, put [(rd.toNat, 30), (ra.toNat, 24), (rb.toNat, 18)], k)
  | .div k rd ra rb => some (0x0C, put [(rd.toNat, 30), (ra.toNat, 24), (rb.toNat, 18)], k)
  | .divn k rd ra rb => some (0x0D, put [(rd.toNat, 30), (ra.toNat, 24), (rb.toNat, 18)], k)
  | .rem k rd ra rb => some (0x0E, put [(rd.toNat, 30), (ra.toNat, 24), (rb.toNat, 18)], k)
  | .remn k rd ra rb => some (0x0F, put [(rd.toNat, 30), (ra.toNat, 24), (rb.toNat, 18)], k)
  | .min k rd ra rb => some (0x10, put [(rd.toNat, 30), (ra.toNat, 24), (rb.toNat, 18)], k)
  | .max k rd ra rb => some (0x11, put [(rd.toNat, 30), (ra.toNat, 24), (rb.toNat, 18)], k)
  | .minn k rd ra rb => some (0x12, put [(rd.toNat, 30), (ra.toNat, 24), (rb.toNat, 18)], k)
  | .maxn k rd ra rb => some (0x13, put [(rd.toNat, 30), (ra.toNat, 24), (rb.toNat, 18)], k)
  | .set k rd ra rb cond => some (0x14, put [(rd.toNat, 30), (ra.toNat, 24), (rb.toNat, 18), (cond.toNat, 14)], k)
  | .sel k rd ra rb cond => some (0x15, put [(rd.toNat, 30), (ra.toNat, 24), (rb.toNat, 18), (cond.toNat, 14)], k)
  | .clz k rd ra => some (0x16, put [(rd.toNat, 30), (ra.toNat, 24)], k)
  | .popc k rd ra => some (0x17, put [(rd.toNat, 30), (ra.toNat, 24)], k)
  | .brev k rd ra => some (0x18, put [(rd.toNat, 30), (ra.toNat, 24)], k)
  | .addp k rd ra rb => some (0x19, put [(rd.toNat, 30), (ra.toNat, 24), (rb.toNat, 18)], k)
  | .subp k rd ra rb => some (0x1A, put [(rd.toNat, 30), (ra.toNat, 24), (rb.toNat, 18)], k)
  | .shlp k rd ra rb => some (0x1B, put [(rd.toNat, 30), (ra.toNat, 24), (rb.toNat, 18)], k)
  | .shrp k rd ra rb => some (0x1C, put [(rd.toNat, 30), (ra.toNat, 24), (rb.toNat, 18)], k)
  | .mov k rd ra => some (0x1D, put [(rd.toNat, 30), (ra.toNat, 24)], k)
  | .addi k rd ra imm => some (0x20, put [(rd.toNat, 30), (ra.toNat, 24), (imm.toNat, 0)], k)
  | .andi k rd ra imm => some (0x21, put [(rd.toNat, 30), (ra.toNat, 24), (imm.toNat, 0)], k)
  | .ori k rd ra imm => some (0x22, put [(rd.toNat, 30), (ra.toNat, 24), (imm.toNat, 0)], k)
  | .xori k rd ra imm => some (0x23, put [(rd.toNat, 30), (ra.toNat, 24), (imm.toNat, 0)], k)
  | .shli k rd ra imm => some (0x24, put [(rd.toNat, 30), (ra.toNat, 24), (imm.toNat, 0)], k)
  | .shri k rd ra imm => some (0x25, put [(rd.toNat, 30), (ra.toNat, 24), (imm.toNat, 0)], k)
  | .sari k rd ra imm => some (0x26, put [(rd.toNat, 30), (ra.toNat, 24), (imm.toNat, 0)], k)
  | .muli k rd ra imm => some (0x27, put [(rd.toNat, 30), (ra.toNat, 24), (imm.toNat, 0)], k)
  | .seti k rd ra imm => some (0x28, put [(rd.toNat, 30), (ra.toNat, 24), (imm.toNat, 0)], k)
  | .movhi k rd ra imm => some (0x29, put [(rd.toNat, 30), (ra.toNat, 24), (imm.toNat, 0)], k)
  | .addpi k rd ra imm => some (0x2A, put [(rd.toNat, 30), (ra.toNat, 24), (imm.toNat, 0)], k)
  | .bind k rd bp sp bt off => some (0x30, put [(rd.toNat, 30), (bp.toNat, 25), (sp.toNat, 24), (bt.toNat, 21), (off.toNat, 0)], k)
  | .lea k rd bt which imm => some (0x31, put [(rd.toNat, 30), (bt.toNat, 27), (which.toNat, 24), (imm.toNat, 0)], k)
  | .unbind k bt => some (0x32, put [(bt.toNat, 27)], k)
  | .ldu k sz rd bp ord imm => some (0x38 + sz.toNat, put [(rd.toNat, 30), (bp.toNat, 25), (ord.toNat, 24), (imm.toNat, 0)], k)
  | .stu k sz rd bp ord imm => some (0x3C + sz.toNat, put [(rd.toNat, 30), (bp.toNat, 25), (ord.toNat, 24), (imm.toNat, 0)], k)
  | .vld k sz q bt rs nr hint imm => some (0x40 + sz.toNat, put [(q.toNat, 33), (bt.toNat, 30), (rs.toNat, 24), (nr.toNat, 23), (hint.toNat, 21), (imm.toNat, 0)], k)
  | .vst k sz q bt rs nr hint imm => some (0x44 + sz.toNat, put [(q.toNat, 33), (bt.toNat, 30), (rs.toNat, 24), (nr.toNat, 23), (hint.toNat, 21), (imm.toNat, 0)], k)
  | .vldx k sz q bt rs nr hint imm => some (0x48 + sz.toNat, put [(q.toNat, 33), (bt.toNat, 30), (rs.toNat, 24), (nr.toNat, 23), (hint.toNat, 21), (imm.toNat, 0)], k)
  | .vstx k sz q bt rs nr hint imm => some (0x4C + sz.toNat, put [(q.toNat, 33), (bt.toNat, 30), (rs.toNat, 24), (nr.toNat, 23), (hint.toNat, 21), (imm.toNat, 0)], k)
  | .amo k rd bp kind scope op rb => some (0x58, put [(rd.toNat, 30), (bp.toNat, 25), (kind.toNat, 22), (scope.toNat, 18), (op.toNat, 13), (rb.toNat, 7)], k)
  | .cas k rd bp kind scope op rb => some (0x59, put [(rd.toNat, 30), (bp.toNat, 25), (kind.toNat, 22), (scope.toNat, 18), (op.toNat, 13), (rb.toNat, 7)], k)
  | .vamo k rd kind scope op rb bt q => some (0x5A, put [(rd.toNat, 30), (kind.toNat, 22), (scope.toNat, 18), (op.toNat, 13), (rb.toNat, 7), (bt.toNat, 4), (q.toNat, 1)], k)
  | .vcas k rd kind scope op rb bt q => some (0x5B, put [(rd.toNat, 30), (kind.toNat, 22), (scope.toNat, 18), (op.toNat, 13), (rb.toNat, 7), (bt.toNat, 4), (q.toNat, 1)], k)
  | .fence k kind scope => some (0x5C, put [(kind.toNat, 22), (scope.toNat, 18)], k)
  | .qpush k q ra => some (0x60, put [(q.toNat, 30), (ra.toNat, 24)], k)
  | .qpop k rd q => some (0x61, put [(rd.toNat, 30), (q.toNat, 24)], k)
  | .taglk k rd ra => some (0x64, put [(rd.toNat, 30), (ra.toNat, 24)], k)
  | .tagset k ra rb => some (0x65, put [(ra.toNat, 24), (rb.toNat, 18)], k)
  | .taginv k ra => some (0x66, put [(ra.toNat, 24)], k)
  | .tagrd k rd ra => some (0x67, put [(rd.toNat, 30), (ra.toNat, 24)], k)
  | .br k off => some (0x70, put [(off.toNat, 0), (10, 32)], k)
  | .bcnd k cond ra off => some (0x71, put [(cond.toNat, 32), (ra.toNat, 26), (off.toNat, 0)], k)
  | .call k off => some (0x72, put [(off.toNat, 0), (10, 32)], k)
  | .ret k => some (0x73, put [], k)
  | .jmpr k rd ra => some (0x74, put [(rd.toNat, 30), (ra.toNat, 24)], k)
  | .loop k cond ra off => some (0x75, put [(cond.toNat, 32), (ra.toNat, 26), (off.toNat, 0)], k)
  | .bar k rd ra id scope => some (0x76, put [(rd.toNat, 30), (ra.toNat, 24), (id.toNat, 4), (scope.toNat, 0)], k)
  | .sleept k rd => some (0x77, put [(rd.toNat, 30)], k)
  | .wfe k => some (0x78, put [], k)
  | .sev k => some (0x79, put [], k)
  | .exit k => some (0x7A, put [], k)
  | .srd k rd idx => some (0x7C, put [(rd.toNat, 30), (idx.toNat, 0)], k)
  | .swr k ra idx => some (0x7D, put [(ra.toNat, 24), (idx.toNat, 0)], k)
  | .cpy k rd ra => some (0x80, put [(rd.toNat, 30), (ra.toNat, 24)], k)
  | .cpyr k rd ra => some (0x81, put [(rd.toNat, 30), (ra.toNat, 24)], k)
  | .cpyg k rd ra => some (0x82, put [(rd.toNat, 30), (ra.toNat, 24)], k)
  | .cpyp k rd ra => some (0x83, put [(rd.toNat, 30), (ra.toNat, 24)], k)
  | .shadow k rd bp rb ra sp => some (0x84, put [(rd.toNat, 30), (bp.toNat, 25), (rb.toNat, 19), (ra.toNat, 13), (sp.toNat, 12)], k)
  | .shadowDismiss k ra => some (0x84, put [(ra.toNat, 13), (1, 11)], k)
  | .publish k ra scope => some (0x85, put [(ra.toNat, 30), (scope.toNat, 26)], k)
  | .chdef k ch ra => some (0x88, put [(ch.toNat, 32), (ra.toNat, 26)], k)
  | .chput k ch rd rs => some (0x89, put [(ch.toNat, 32), (rd.toNat, 26), (rs.toNat, 20)], k)
  | .chget k ch rd rs => some (0x8A, put [(ch.toNat, 32), (rd.toNat, 26), (rs.toNat, 20)], k)
  | .chwaitGet k ch rd rs => some (0x8B, put [(ch.toNat, 32), (rd.toNat, 26), (rs.toNat, 20)], k)
  | .chwaitPut k ch rd rs => some (0x8B, put [(ch.toNat, 32), (rd.toNat, 26), (rs.toNat, 20), (1, 19)], k)
  | .gang k ra => some (0x8C, put [(ra.toNat, 30)], k)
  | .mma k a c wb kt fa fb g => some (0x90, put [(a.toNat, 32), (c.toNat, 28), (wb.toNat, 22), (kt.toNat, 14), (fa.toNat, 11), (fb.toNat, 8), (g.toNat, 7)], k)
  | .mmag k a c ra kt fa fb g => some (0x91, put [(a.toNat, 32), (c.toNat, 28), (ra.toNat, 22), (kt.toNat, 14), (fa.toNat, 11), (fb.toNat, 8), (g.toNat, 7)], k)
  | .wbld k sl fs ra bp rb sp => some (0x92, put [(sl.toNat, 30), (fs.toNat, 27), (ra.toNat, 21), (bp.toNat, 16), (rb.toNat, 10), (sp.toNat, 9)], k)
  | .ralloc k rd ra rb => some (0x98, put [(rd.toNat, 30), (ra.toNat, 24), (rb.toNat, 18)], k)
  | .remit k ra q res => some (0x99, put [(ra.toNat, 30), (q.toNat, 29), (res.toNat, 28)], k)
  | .rtake k q wi n => some (0x9A, put [(q.toNat, 34), (wi.toNat, 29), (n.toNat, 26)], k)
  | .rdone k q => some (0x9B, put [(q.toNat, 35)], k)
  | .snap k => some (0x9C, put [], k)
  | .snapc k rd cl => some (0x9D, put [(rd.toNat, 30), (cl.toNat, 29)], k)
  | .pgreq k ra rb => some (0x9E, put [(ra.toNat, 30), (rb.toNat, 24)], k)
  | .trap k imm => some (0xE0, put [(imm.toNat, 0)], k)
  | .svc k imm => some (0xE1, put [(imm.toNat, 0)], k)
  | .hvc k imm => some (0xE2, put [(imm.toNat, 0)], k)
  | .moncVerifyImage k => some (0xE3, put [(1, 0)], k)
  | .moncExtendMeasurement k => some (0xE3, put [(2, 0)], k)
  | .moncAttestationReport k => some (0xE3, put [(3, 0)], k)
  | .moncConfirmSlot k => some (0xE3, put [(4, 0)], k)
  | .moncCommitSvn k => some (0xE3, put [(5, 0)], k)
  | .moncUnknownService k imm => some (0xE3, put [(imm.toNat, 0)], k)
  | .eret k => some (0xE4, put [], k)
  | .bkpt k imm => some (0xE5, put [(imm.toNat, 0)], k)
  | .tlbinvRange k ra bp rb => some (0xE6, put [(ra.toNat, 30), (bp.toNat, 25), (rb.toNat, 19)], k)
  | .tlbinvAsid k ra => some (0xE6, put [(ra.toNat, 30), (1, 17)], k)
  | .tlbinvAll k => some (0xE6, put [(1, 18)], k)
  | .cinv k bp rb => some (0xE7, put [(bp.toNat, 31), (rb.toNat, 25)], k)
  | .cwb k bp rb => some (0xE8, put [(bp.toNat, 31), (rb.toNat, 25)], k)
  | .waygtWays k ra rb => some (0xE9, put [(ra.toNat, 30), (rb.toNat, 24)], k)
  | .waygtBanks k ra rb pl => some (0xE9, put [(ra.toNat, 30), (rb.toNat, 24), (pl.toNat, 21), (1, 23)], k)
  | .halt k => some (0xEA, put [], k)
  | .ctxreqBind k bp => some (0xEB, put [(bp.toNat, 31)], k)
  | .ctxreqUnbind k bp => some (0xEB, put [(bp.toNat, 31)], k)
  | .ctxreqSwitch k bp => some (0xEB, put [(bp.toNat, 31)], k)
  | .ctxreqStreamOut k bp => some (0xEB, put [(bp.toNat, 31)], k)
  | .ctxreqStreamIn k bp => some (0xEB, put [(bp.toNat, 31)], k)
  | .ctxreqReservedOp k bp => some (0xEB, put [(bp.toNat, 31)], k)
  | .fencei k => some (0xEC, put [], k)
  | .granset k bp rb gr => some (0xED, put [(bp.toNat, 31), (rb.toNat, 25), (gr.toNat, 23)], k)
  | .udf w k => some (0xFF, w.toNat, k)
  | _ => none

/-- The instruction of an A opcode and body (R193); none where the opcode is reserved. `UDF` has no body (R186). -/
def parseA (k : Ctl) (opc body : Nat) : Option Instr :=
  match opc with
  | 0x00 => some (.nop k)
  | 0x01 => some (.add k (fld 6 body 30) (fld 6 body 24) (fld 6 body 18))
  | 0x02 => some (.sub k (fld 6 body 30) (fld 6 body 24) (fld 6 body 18))
  | 0x03 => some (.and k (fld 6 body 30) (fld 6 body 24) (fld 6 body 18))
  | 0x04 => some (.or k (fld 6 body 30) (fld 6 body 24) (fld 6 body 18))
  | 0x05 => some (.xor k (fld 6 body 30) (fld 6 body 24) (fld 6 body 18))
  | 0x06 => some (.shl k (fld 6 body 30) (fld 6 body 24) (fld 6 body 18))
  | 0x07 => some (.shr k (fld 6 body 30) (fld 6 body 24) (fld 6 body 18))
  | 0x08 => some (.sar k (fld 6 body 30) (fld 6 body 24) (fld 6 body 18))
  | 0x09 => some (.mul k (fld 6 body 30) (fld 6 body 24) (fld 6 body 18))
  | 0x0A => some (.mulh k (fld 6 body 30) (fld 6 body 24) (fld 6 body 18))
  | 0x0B => some (.mulhn k (fld 6 body 30) (fld 6 body 24) (fld 6 body 18))
  | 0x0C => some (.div k (fld 6 body 30) (fld 6 body 24) (fld 6 body 18))
  | 0x0D => some (.divn k (fld 6 body 30) (fld 6 body 24) (fld 6 body 18))
  | 0x0E => some (.rem k (fld 6 body 30) (fld 6 body 24) (fld 6 body 18))
  | 0x0F => some (.remn k (fld 6 body 30) (fld 6 body 24) (fld 6 body 18))
  | 0x10 => some (.min k (fld 6 body 30) (fld 6 body 24) (fld 6 body 18))
  | 0x11 => some (.max k (fld 6 body 30) (fld 6 body 24) (fld 6 body 18))
  | 0x12 => some (.minn k (fld 6 body 30) (fld 6 body 24) (fld 6 body 18))
  | 0x13 => some (.maxn k (fld 6 body 30) (fld 6 body 24) (fld 6 body 18))
  | 0x14 => some (.set k (fld 6 body 30) (fld 6 body 24) (fld 6 body 18) (fld 4 body 14))
  | 0x15 => some (.sel k (fld 6 body 30) (fld 6 body 24) (fld 6 body 18) (fld 4 body 14))
  | 0x16 => some (.clz k (fld 6 body 30) (fld 6 body 24))
  | 0x17 => some (.popc k (fld 6 body 30) (fld 6 body 24))
  | 0x18 => some (.brev k (fld 6 body 30) (fld 6 body 24))
  | 0x19 => some (.addp k (fld 6 body 30) (fld 6 body 24) (fld 6 body 18))
  | 0x1A => some (.subp k (fld 6 body 30) (fld 6 body 24) (fld 6 body 18))
  | 0x1B => some (.shlp k (fld 6 body 30) (fld 6 body 24) (fld 6 body 18))
  | 0x1C => some (.shrp k (fld 6 body 30) (fld 6 body 24) (fld 6 body 18))
  | 0x1D => some (.mov k (fld 6 body 30) (fld 6 body 24))
  | 0x20 => some (.addi k (fld 6 body 30) (fld 6 body 24) (fld 24 body 0))
  | 0x21 => some (.andi k (fld 6 body 30) (fld 6 body 24) (fld 24 body 0))
  | 0x22 => some (.ori k (fld 6 body 30) (fld 6 body 24) (fld 24 body 0))
  | 0x23 => some (.xori k (fld 6 body 30) (fld 6 body 24) (fld 24 body 0))
  | 0x24 => some (.shli k (fld 6 body 30) (fld 6 body 24) (fld 24 body 0))
  | 0x25 => some (.shri k (fld 6 body 30) (fld 6 body 24) (fld 24 body 0))
  | 0x26 => some (.sari k (fld 6 body 30) (fld 6 body 24) (fld 24 body 0))
  | 0x27 => some (.muli k (fld 6 body 30) (fld 6 body 24) (fld 24 body 0))
  | 0x28 => some (.seti k (fld 6 body 30) (fld 6 body 24) (fld 24 body 0))
  | 0x29 => some (.movhi k (fld 6 body 30) (fld 6 body 24) (fld 24 body 0))
  | 0x2A => some (.addpi k (fld 6 body 30) (fld 6 body 24) (fld 24 body 0))
  | 0x30 => some (.bind k (fld 6 body 30) (fld 5 body 25) (fld 1 body 24) (fld 3 body 21) (fld 20 body 0))
  | 0x31 => some (.lea k (fld 6 body 30) (fld 3 body 27) (fld 3 body 24) (fld 24 body 0))
  | 0x32 => some (.unbind k (fld 3 body 27))
  | 0x38 | 0x39 | 0x3A | 0x3B => some (.ldu k (BitVec.ofNat 2 opc) (fld 6 body 30) (fld 5 body 25) (fld 1 body 24) (fld 24 body 0))
  | 0x3C | 0x3D | 0x3E | 0x3F => some (.stu k (BitVec.ofNat 2 opc) (fld 6 body 30) (fld 5 body 25) (fld 1 body 24) (fld 24 body 0))
  | 0x40 | 0x41 | 0x42 | 0x43 => some (.vld k (BitVec.ofNat 2 opc) (fld 3 body 33) (fld 3 body 30) (fld 6 body 24) (fld 1 body 23) (fld 2 body 21) (fld 21 body 0))
  | 0x44 | 0x45 | 0x46 | 0x47 => some (.vst k (BitVec.ofNat 2 opc) (fld 3 body 33) (fld 3 body 30) (fld 6 body 24) (fld 1 body 23) (fld 2 body 21) (fld 21 body 0))
  | 0x48 | 0x49 | 0x4A | 0x4B => some (.vldx k (BitVec.ofNat 2 opc) (fld 3 body 33) (fld 3 body 30) (fld 6 body 24) (fld 1 body 23) (fld 2 body 21) (fld 21 body 0))
  | 0x4C | 0x4D | 0x4E | 0x4F => some (.vstx k (BitVec.ofNat 2 opc) (fld 3 body 33) (fld 3 body 30) (fld 6 body 24) (fld 1 body 23) (fld 2 body 21) (fld 21 body 0))
  | 0x58 => some (.amo k (fld 6 body 30) (fld 5 body 25) (fld 3 body 22) (fld 4 body 18) (fld 5 body 13) (fld 6 body 7))
  | 0x59 => some (.cas k (fld 6 body 30) (fld 5 body 25) (fld 3 body 22) (fld 4 body 18) (fld 5 body 13) (fld 6 body 7))
  | 0x5A => some (.vamo k (fld 6 body 30) (fld 3 body 22) (fld 4 body 18) (fld 5 body 13) (fld 6 body 7) (fld 3 body 4) (fld 3 body 1))
  | 0x5B => some (.vcas k (fld 6 body 30) (fld 3 body 22) (fld 4 body 18) (fld 5 body 13) (fld 6 body 7) (fld 3 body 4) (fld 3 body 1))
  | 0x5C => some (.fence k (fld 3 body 22) (fld 4 body 18))
  | 0x60 => some (.qpush k (fld 6 body 30) (fld 6 body 24))
  | 0x61 => some (.qpop k (fld 6 body 30) (fld 6 body 24))
  | 0x64 => some (.taglk k (fld 6 body 30) (fld 6 body 24))
  | 0x65 => some (.tagset k (fld 6 body 24) (fld 6 body 18))
  | 0x66 => some (.taginv k (fld 6 body 24))
  | 0x67 => some (.tagrd k (fld 6 body 30) (fld 6 body 24))
  | 0x70 => some (.br k (fld 26 body 0))
  | 0x71 => some (.bcnd k (fld 4 body 32) (fld 6 body 26) (fld 26 body 0))
  | 0x72 => some (.call k (fld 26 body 0))
  | 0x73 => some (.ret k)
  | 0x74 => some (.jmpr k (fld 6 body 30) (fld 6 body 24))
  | 0x75 => some (.loop k (fld 4 body 32) (fld 6 body 26) (fld 26 body 0))
  | 0x76 => some (.bar k (fld 6 body 30) (fld 6 body 24) (fld 4 body 4) (fld 4 body 0))
  | 0x77 => some (.sleept k (fld 6 body 30))
  | 0x78 => some (.wfe k)
  | 0x79 => some (.sev k)
  | 0x7A => some (.exit k)
  | 0x7C => some (.srd k (fld 6 body 30) (fld 12 body 0))
  | 0x7D => some (.swr k (fld 6 body 24) (fld 12 body 0))
  | 0x80 => some (.cpy k (fld 6 body 30) (fld 6 body 24))
  | 0x81 => some (.cpyr k (fld 6 body 30) (fld 6 body 24))
  | 0x82 => some (.cpyg k (fld 6 body 30) (fld 6 body 24))
  | 0x83 => some (.cpyp k (fld 6 body 30) (fld 6 body 24))
  | 0x84 => some (if fld 1 body 11 = 1 then .shadowDismiss k (fld 6 body 13) else .shadow k (fld 6 body 30) (fld 5 body 25) (fld 6 body 19) (fld 6 body 13) (fld 1 body 12))
  | 0x85 => some (.publish k (fld 6 body 30) (fld 4 body 26))
  | 0x88 => some (.chdef k (fld 4 body 32) (fld 6 body 26))
  | 0x89 => some (.chput k (fld 4 body 32) (fld 6 body 26) (fld 6 body 20))
  | 0x8A => some (.chget k (fld 4 body 32) (fld 6 body 26) (fld 6 body 20))
  | 0x8B => some (if fld 1 body 19 = 1 then .chwaitPut k (fld 4 body 32) (fld 6 body 26) (fld 6 body 20) else .chwaitGet k (fld 4 body 32) (fld 6 body 26) (fld 6 body 20))
  | 0x8C => some (.gang k (fld 6 body 30))
  | 0x90 => some (.mma k (fld 4 body 32) (fld 4 body 28) (fld 6 body 22) (fld 8 body 14) (fld 3 body 11) (fld 3 body 8) (fld 1 body 7))
  | 0x91 => some (.mmag k (fld 4 body 32) (fld 4 body 28) (fld 6 body 22) (fld 8 body 14) (fld 3 body 11) (fld 3 body 8) (fld 1 body 7))
  | 0x92 => some (.wbld k (fld 6 body 30) (fld 3 body 27) (fld 6 body 21) (fld 5 body 16) (fld 6 body 10) (fld 1 body 9))
  | 0x98 => some (.ralloc k (fld 6 body 30) (fld 6 body 24) (fld 6 body 18))
  | 0x99 => some (.remit k (fld 6 body 30) (fld 1 body 29) (fld 1 body 28))
  | 0x9A => some (.rtake k (fld 2 body 34) (fld 5 body 29) (fld 3 body 26))
  | 0x9B => some (.rdone k (fld 1 body 35))
  | 0x9C => some (.snap k)
  | 0x9D => some (.snapc k (fld 6 body 30) (fld 1 body 29))
  | 0x9E => some (.pgreq k (fld 6 body 30) (fld 6 body 24))
  | 0xE0 => some (.trap k (fld 16 body 0))
  | 0xE1 => some (.svc k (fld 16 body 0))
  | 0xE2 => some (.hvc k (fld 16 body 0))
  | 0xE3 => some (if fld 16 body 0 = 1 then .moncVerifyImage k else if fld 16 body 0 = 2 then .moncExtendMeasurement k else if fld 16 body 0 = 3 then .moncAttestationReport k else if fld 16 body 0 = 4 then .moncConfirmSlot k else if fld 16 body 0 = 5 then .moncCommitSvn k else .moncUnknownService k (fld 16 body 0))
  | 0xE4 => some (.eret k)
  | 0xE5 => some (.bkpt k (fld 16 body 0))
  | 0xE6 => some (if fld 2 body 17 = 1 then .tlbinvAsid k (fld 6 body 30) else if fld 2 body 17 = 2 then .tlbinvAll k else .tlbinvRange k (fld 6 body 30) (fld 5 body 25) (fld 6 body 19))
  | 0xE7 => some (.cinv k (fld 5 body 31) (fld 6 body 25))
  | 0xE8 => some (.cwb k (fld 5 body 31) (fld 6 body 25))
  | 0xE9 => some (if fld 1 body 23 = 1 then .waygtBanks k (fld 6 body 30) (fld 6 body 24) (fld 2 body 21) else .waygtWays k (fld 6 body 30) (fld 6 body 24))
  | 0xEA => some (.halt k)
  | 0xEB => some (.ctxreqReservedOp k (fld 5 body 31))
  | 0xEC => some (.fencei k)
  | 0xED => some (.granset k (fld 5 body 31) (fld 6 body 25) (fld 2 body 23))
  | 0xFF => some (.udf (fld 36 body 0) k)
  | _ => none

/-- The A-format word of an opcode, body and control fields (R184). -/
def wordA (opc body : Nat) (k : Ctl) : Nat := body + opc * 2 ^ 36 + k.enc 44

/-- A body whose reserved choices are replaced by valid ones: the condition of `BR` and `CALL`, which must be 10 (R187),
and mode 3 of `TLBINV` (R306). -/
def normBody (opc body : Nat) : Nat :=
  if opc = 0x70 ∨ opc = 0x72 then body % 2 ^ 32 + 10 * 2 ^ 32
  else if opc = 0xE6 ∧ bits 2 body 17 = 3 then body - 3 * 2 ^ 17
  else body

/-- The checks of R183, steps 3 and 4, on an instruction read from a body. Log entry 56, DEDUCED. Log entry 57, DEDUCED. -/
def checkedA (i : Instr) (opc body : Nat) : Dec :=
  if (i.encBodyA.map (fun e => e.2.1)) != some (normBody opc body) then .error .zeroField
  else match i.check with
    | some e => .error e
    | none => if normBody opc body != body then .error .reserved else .ok i

/-- The instruction of an A word, or the first check of R183 that fails. -/
def decodeA (w : Nat) : Dec :=
  let k := Ctl.of w 44
  let opc := bits 8 w 36
  let body := bits 36 w 0
  match parseA k opc body with
  | none => .error .opcode
  | some i => if opc = 0xFF then .ok i else if !k.sigOk then .error .control else checkedA i opc body

/-! C-format words (R189 to R191, R194). -/

/-- The operand set whose bit 0 is bit `lo` of a word (R189). -/
def OpSet.of (w lo : Nat) : OpSet :=
  { d := fld 7 w (lo + 33), s1 := fld 7 w (lo + 26), s2 := fld 7 w (lo + 19), s3 := fld 7 w (lo + 12),
    n1 := fld 1 w (lo + 11), a1 := fld 1 w (lo + 10), n2 := fld 1 w (lo + 9), a2 := fld 1 w (lo + 8),
    n3 := fld 1 w (lo + 7), a3 := fld 1 w (lo + 6), clmp := fld 2 w (lo + 4), scl := fld 3 w (lo + 1) }

/-- The 40 bits of an operand set (R189). -/
def OpSet.enc (a : OpSet) : Nat :=
  a.d.toNat * 2 ^ 33 + a.s1.toNat * 2 ^ 26 + a.s2.toNat * 2 ^ 19 + a.s3.toNat * 2 ^ 12 + a.n1.toNat * 2 ^ 11 +
  a.a1.toNat * 2 ^ 10 + a.n2.toNat * 2 ^ 9 + a.a2.toNat * 2 ^ 8 + a.n3.toNat * 2 ^ 7 + a.a3.toNat * 2 ^ 6 +
  a.clmp.toNat * 2 ^ 4 + a.scl.toNat * 2

/-- The fields above the operand sets (R189). -/
def CHdr.of (w : Nat) : CHdr :=
  { k := Ctl.of w 108, face := fld 2 w 96, uni := fld 1 w 95, grd := fld 3 w 92, gneg := fld 1 w 91,
    slot := fld 3 w 88, ro := fld 2 w 86, typ := fld 4 w 82 }

/-- The fields above the operand sets with the opcode, placed in the word (R189). -/
def CHdr.enc (h : CHdr) (opc : Nat) : Nat :=
  h.k.enc 108 + opc * 2 ^ 98 + h.face.toNat * 2 ^ 96 + h.uni.toNat * 2 ^ 95 + h.grd.toNat * 2 ^ 92 +
  h.gneg.toNat * 2 ^ 91 + h.slot.toNat * 2 ^ 88 + h.ro.toNat * 2 ^ 86 + h.typ.toNat * 2 ^ 82

/-- The tail of a C word as its opcode and `FACE` read it (R190). -/
def Tail.of (w opc : Nat) : Tail :=
  if bits 2 w 96 = 3 then .setB (OpSet.of w 2)
  else if 0xA0 ≤ opc ∧ opc ≤ 0xA3 then .off (fld 32 w 2)
  else if bits 1 w 41 = 1 then .imm (fld 32 w 2)
  else .none

/-- The bits [41:0] of a tail (R190). -/
def Tail.enc : Tail → Nat
  | .none => 0
  | .imm v => 2 ^ 41 + v.toNat * 4
  | .setB b => b.enc * 4
  | .off v => v.toNat * 4

/-- The layout of `EXPR` (R191). -/
def ExprBody.of (w : Nat) : ExprBody :=
  { d := fld 7 w 75, s1 := fld 7 w 68, s2 := fld 7 w 61, s3 := fld 7 w 54, s4 := fld 7 w 47, toks := fld 44 w 2 }

/-- The bits [81:0] of an `EXPR` (R191). -/
def ExprBody.enc (e : ExprBody) : Nat :=
  e.d.toNat * 2 ^ 75 + e.s1.toNat * 2 ^ 68 + e.s2.toNat * 2 ^ 61 + e.s3.toNat * 2 ^ 54 + e.s4.toNat * 2 ^ 47 +
  e.toks.toNat * 4

/-- The instruction of an assigned C opcode below 0x200, or 0x300 or 0x301 (R194, R197). -/
def parseC (h : CHdr) (a : OpSet) (t : Tail) (opc : Nat) : Option Instr :=
  match opc with
  | 0x000 => some (.cnop h a t)
  | 0x001 => some (.vadd h a t)
  | 0x002 => some (.vsub h a t)
  | 0x003 => some (.vmul h a t)
  | 0x004 => some (.vmulh h a t)
  | 0x005 => some (.vmad h a t)
  | 0x006 => some (.vand h a t)
  | 0x007 => some (.vor h a t)
  | 0x008 => some (.vxor h a t)
  | 0x009 => some (.vshl h a t)
  | 0x00A => some (.vshr h a t)
  | 0x00B => some (.vsar h a t)
  | 0x00C => some (.vmin h a t)
  | 0x00D => some (.vmax h a t)
  | 0x00E => some (.vabs h a t)
  | 0x010 => some (.vcmp h a t)
  | 0x011 => some (.vsel h a t)
  | 0x012 => some (.vclz h a t)
  | 0x013 => some (.vpopc h a t)
  | 0x020 => some (.fadd h a t)
  | 0x021 => some (.fsub h a t)
  | 0x022 => some (.fmul h a t)
  | 0x023 => some (.ffma h a t)
  | 0x024 => some (.fmin h a t)
  | 0x025 => some (.fmax h a t)
  | 0x026 => some (.frcp h a t)
  | 0x027 => some (.frsq h a t)
  | 0x028 => some (.fsqrt h a t)
  | 0x029 => some (.fexp2 h a t)
  | 0x02A => some (.flog2 h a t)
  | 0x030 => some (.fcmp h a t)
  | 0x031 => some (.fclass h a t)
  | 0x040 => some (.plop h a t)
  | 0x041 => some (.pfrom h a t)
  | 0x042 => some (.pto h a t)
  | 0x050 => some (.shfl h a t)
  | 0x051 => some (.vote h a t)
  | 0x052 => some (.ballot h a t)
  | 0x053 => some (.scan h a t)
  | 0x054 => some (.redux h a t)
  | 0x060 => some (.cvt h a t)
  | 0x061 => some (.cvti h a t)
  | 0x062 => some (.pack h a t)
  | 0x063 => some (.unpk h a t)
  | 0x070 => some (.vmov h a t)
  | 0x071 => some (.vmovi h a t)
  | 0x072 => some (.vbcast h a t)
  | 0x090 => some (.meld h a t)
  | 0x091 => some (.mend h a t)
  | 0x092 => some (.mloop h a t)
  | 0x093 => some (.mbrk h a t)
  | 0x0A0 => some (.cbr h a t)
  | 0x0A1 => some (.cjoin h a t)
  | 0x0A2 => some (.cloop h a t)
  | 0x0A4 => some (.cret h a t)
  | 0x0A5 => some (.cexit h a t)
  | 0x100 => some (.qzero h a t)
  | 0x101 => some (.qld h a t)
  | 0x102 => some (.qst h a t)
  | 0x103 => some (.qshape h a t)
  | 0x104 => some (.qmul h a t)
  | 0x105 => some (.qmad h a t)
  | 0x106 => some (.qadd h a t)
  | 0x107 => some (.qtrn h a t)
  | 0x108 => some (.qchol h a t)
  | 0x109 => some (.qlup h a t)
  | 0x10A => some (.qsolv h a t)
  | 0x10B => some (.qmv h a t)
  | 0x300 => some (.ldpi h a t)
  | 0x301 => some (.stpi h a t)
  | 0x0A3 => some (if h.face = 3 then .ccallPair h a t else .ccall h a t)
  | 0x10C => some (if a.s3 = 0 then .qdiagGet h a t else if a.s3 = 1 then .qdiagSet h a t else .qdiagAdd h a t)
  | _ => none

/-- The word of a C-format instruction of the common layout (R189, R190). -/
def CView.enc (c : CView) : Nat := c.h.enc c.opc + c.a.enc * 2 ^ 42 + c.t.enc

/-- The C word of an instruction that has one (R189 to R191). -/
def Instr.encC : Instr → Option Nat
  | .expr h e => some (h.enc 0x080 + e.enc)
  | .undefinedCWord k w => some (w.toNat + 0x3FF * 2 ^ 98 + k.enc 108)
  | i => i.cview.map CView.enc

/-- The checks of R183, steps 3 and 4, on an instruction read from a C word. -/
def checkedC (i : Instr) (w : Nat) : Dec :=
  if i.encC != some w then .error .zeroField
  else match i.check with
    | some e => .error e
    | none => .ok i

/-- The instruction of the twin of an A word (R195): the fields between the opcode and the body, and those below it,
are zero. -/
def decodeTwin (w opc : Nat) : Dec :=
  match decodeA (wordA (opc - 0x200) (bits 36 w 42) (Ctl.of w 108)) with
  | .error .opcode => .error .opcode
  | .error .control => .error .control
  | r => if bits 16 w 82 != 0 || bits 4 w 78 != 0 || bits 42 w 0 != 0 then
      (if opc = 0x2FF then r else .error .zeroField) else r

/-- The instruction of a C word, outside unified mode or in it, or the first check of R183 that fails. -/
def decodeC (unified : Bool) (w : Nat) : Dec :=
  let h := CHdr.of w
  let opc := bits 10 w 98
  if opc = 0x3FF then .ok (.undefinedCWord h.k (fld 98 w 0))
  else if 0x200 ≤ opc ∧ opc < 0x300 then (if unified then decodeTwin w opc else .error .opcode)
  else if 0x300 ≤ opc ∧ !unified then .error .opcode
  else
    match (if opc = 0x080 then some (.expr h (ExprBody.of w)) else parseC h (OpSet.of w 42) (Tail.of w opc) opc) with
    | none => .error .opcode
    | some i => if !h.k.sigOk then .error .control else checkedC i w

/-- The words of an instruction: 64 bits for the A format, 128 for the C format (R184, R189). A step the device takes
by itself has no words. -/
def encode (i : Instr) : Nat :=
  match i.encBodyA with
  | some (opc, body, k) => wordA opc body k
  | none => i.encC.getD 0

/-- Whether an instruction has an A word. -/
def Instr.isA (i : Instr) : Bool := i.encBodyA.isSome

/-- The twin of an A-format instruction, a C word of unified mode (R195). -/
def encodeTwin (i : Instr) : Option Nat :=
  i.encBodyA.map (fun e => e.2.2.enc 108 + (0x200 + e.1) * 2 ^ 98 + e.2.1 * 2 ^ 42)

/-! W6 code (R198 to R201). -/

/-- A 6-bit field mapped by the class of the C field it fills (R201); none where it is refused. -/
def mapW6 (c : FClass) (n : Nat) : Option Nat :=
  match c with
  | .vecD | .vecS => some (if n = 62 then 126 else if n = 63 then 127 else n)
  | .uniD | .uniS | .ballot => if n < 32 then some n else none
  | .pred => if n < 8 then some n else none
  | .none => if n = 0 then some 0 else none
  | _ => some n

/-- The refused word (R200): the undefined opcode under the W6 word's control fields. -/
def refusedW6 (ctl : Nat) : Nat := ctl + 0x3FF * 2 ^ 98

/-- The vector opcodes a W6 word may carry (R200). -/
def vopOk (v : Nat) : Bool :=
  (1 ≤ v && v ≤ 0xE) || (0x10 ≤ v && v ≤ 0x13) || (0x20 ≤ v && v ≤ 0x2A) || (0x30 ≤ v && v ≤ 0x31) ||
  (0x40 ≤ v && v ≤ 0x42) || (0x50 ≤ v && v ≤ 0x54) || (0x60 ≤ v && v ≤ 0x63) || (0x70 ≤ v && v ≤ 0x72) ||
  (0xA0 ≤ v && v ≤ 0xA5)

/-- An empty operand set. -/
def OpSet.zero : OpSet := ⟨0, 0, 0, 0, 0, 0, 0, 0, 0, 0, 0, 0⟩

/-- The C word of a W6 word of class 01 (R200). -/
def translateVector (w ctl : Nat) : Nat :=
  let v := bits 8 w 38
  let f (lo : Nat) : Nat := bits 6 w lo
  let h : CHdr := { k := ⟨0, 0, 0⟩, face := 0, uni := 0, grd := fld 3 w 11, gneg := fld 1 w 10, slot := 0, ro := 0,
                    typ := fld 4 w 6 }
  let set (d s1 s2 s3 : Nat) : OpSet :=
    { OpSet.zero with d := BitVec.ofNat 7 d, s1 := BitVec.ofNat 7 s1, s2 := BitVec.ofNat 7 s2, s3 := BitVec.ofNat 7 s3 }
  let build (a : OpSet) (t : Tail) : Nat := ctl + CView.enc ⟨v, h, a, t⟩
  match (parseC h (set 0 0 0 (f 14)) Tail.none v).bind Instr.shape with
  | none => refusedW6 ctl
  | some sh =>
    if v = 0xA0 ∨ v = 0xA1 ∨ v = 0xA3 then build OpSet.zero (.off (BitVec.ofNat 32 (sextNat 24 32 (bits 24 w 14))))
    else if v = 0xA2 then
      match mapW6 .uniS (f 32) with
      | some c => build (set 0 c 0 0) (.off (BitVec.ofNat 32 (sextNat 18 32 (bits 18 w 14))))
      | none => refusedW6 ctl
    else if v = 0x71 then
      match mapW6 sh.d (f 32) with
      | some d => build (set d 0 0 0) (.imm (BitVec.ofNat 32 (sextNat 18 32 (bits 18 w 14))))
      | none => refusedW6 ctl
    else
      match mapW6 sh.d (f 32), mapW6 sh.s1 (f 26), mapW6 sh.s2 (f 20), mapW6 sh.s3 (f 14) with
      | some d, some s1, some s2, some s3 => build (set d s1 s2 s3) Tail.none
      | _, _, _, _ => refusedW6 ctl

/-- The C word of a W6 word of class 10 (R200): its type from the width field. `D` is `V` for every V, 62 and 63 included, though W6 code is said to
reach at most `v61` (log entry 120, DESIGN CHOICE). -/
def translateRing (w ctl : Nat) : Nat :=
  let typ := match bits 2 w 43 with | 0 => 10 | 1 => 9 | 2 => 8 | _ => 13
  let h : CHdr := { k := ⟨0, 0, 0⟩, face := 0, uni := 0, grd := 0, gneg := 0, slot := 0, ro := 0,
                    typ := BitVec.ofNat 4 typ }
  let a : OpSet := { OpSet.zero with d := BitVec.ofNat 7 (bits 6 w 37), s1 := BitVec.ofNat 7 (2 * bits 5 w 32),
                                     s2 := BitVec.ofNat 7 (2 * bits 5 w 27) }
  ctl + CView.enc ⟨0x300 + bits 1 w 45, h, a, .imm (BitVec.ofNat 32 (sextNat 24 32 (bits 24 w 3)))⟩

/-- The fill translator (R198, R200): the one C word of a W6 word. A bit that R199 marks zero and is 1 is carried into
the zero bits of the C word, so that it fails the same check (log entry 6, DEDUCED). Log entry 77, DEDUCED. -/
def translateW6 (w : Nat) : Nat :=
  let ctl := bits 4 w 46 * 2 ^ 108 + bits 8 w 50 * 2 ^ 112 + bits 4 w 58 * 2 ^ 124
  let sig := bits 4 w 46
  let stray (z : Nat) : Nat := if z = 0 then 0 else 1
  if 8 ≤ sig ∧ sig < 15 then refusedW6 ctl
  else match bits 2 w 62 with
    | 0 => ctl + (0x200 + bits 8 w 38) * 2 ^ 98 + bits 36 w 0 * 2 ^ 42 + stray (bits 2 w 36)
    | 1 => if vopOk (bits 8 w 38) then translateVector w ctl + stray (bits 6 w 0) else refusedW6 ctl
    | 2 => translateRing w ctl + stray (bits 3 w 0)
    | _ => refusedW6 ctl

/-- The instruction a stream reads from a cached word: A words for an address stream, C words for a compute stream or
a unified one. W6 code is cached as C words (R198). -/
def decodeWord (aFormat unified : Bool) (w : Nat) : Dec := if aFormat then decodeA w else decodeC unified w

/-- The little-endian bytes of a word, the first at the lowest address (R3, R181). -/
def bytesLE (n w : Nat) : List Byte := (List.range n).map (fun i => BitVec.ofNat 8 (w / 2 ^ (8 * i)))

/-- The word of little-endian bytes. -/
def ofBytesLE : List Byte → Nat
  | [] => 0
  | b :: r => b.toNat + 256 * ofBytesLE r

/-- Decoding of an instruction's bytes in memory order: eight make an A word, sixteen a C word (R181), read as unified mode reads
it: the opcodes outside that mode mean the same in it (R194). -/
def decodeBytes (bs : List Byte) : Option Instr :=
  match (if bs.length ≤ 8 then decodeA (ofBytesLE bs) else decodeC true (ofBytesLE bs)) with
  | .ok i => some i
  | .error _ => none

/-- The instruction the decoder reads from an instruction of `nbits` bits `w`: up to 64 bits an A word, more a C word;
the bits above `nbits` are zero. -/
def decodeTableWord (nbits w : Nat) : Option Instr :=
  if nbits ≤ 64 then decodeBytes (bytesLE 8 (w % 2 ^ nbits)) else decodeBytes (bytesLE 16 (w % 2 ^ nbits))

end Sys2Proof
end

