-- ==== Sys2Proof/Config.lean ====
section
/-! DEFINITION. What an implementation fixes and the manual does not: free values, which have no body, so that a
claim about them holds whatever they are; and the constants of the device the manual names once. -/

namespace Sys2Proof

/-- A free number: the value the manual leaves open at the n-th open choice of a run (log entry 3, DESIGN CHOICE). -/
opaque Config.freeNat : Nat → Nat
/-- A free bit, as `Config.freeNat` (log entry 3, DESIGN CHOICE). -/
opaque Config.freeBit : Nat → Bool
/-- A free byte: what a miscorrected or undetected error returns (R365; log entry 3, DESIGN CHOICE). -/
opaque Config.freeByte : Nat → Byte
/-- SHA3-512 (R332): a standard outside the manual, left uninterpreted (log entry 4, DESIGN CHOICE). -/
opaque Config.sha3 : List Byte → List Byte
/-- Whether an ML-DSA-87 signature of a message verifies under a key (R332, R338; log entry 4, DESIGN CHOICE). -/
opaque Config.mldsaVerify (key msg sig : List Byte) : Bool
/-- The device's own ML-DSA-87 signature of a message (R337; log entry 4, DESIGN CHOICE). -/
opaque Config.mldsaSign : List Byte → List Byte

/-- The valid entries, address and word, of the patch set that a kind-2 payload carries: its layout in the payload is not
stated (R333; log entry 14, DESIGN CHOICE). -/
opaque Config.patchSet : List Byte → List (Nat × BitVec 128)

/-- The words of a command sequencer's mask ROM, which the manual does not give (R333; log entry 14, DESIGN CHOICE). -/
opaque Config.rom : Nat → BitVec 128
/-- Whether the image at an address uses a feature that no field of an image shows, by the feature's bit (R328, R329; log entry 101, DESIGN CHOICE). -/
opaque Config.imageUses : Nat → Nat → Bool
/-- What a course record does not hold of a trap that awaits its action, by the record's address, for a course the device does not know
(R165; log entry 18, DESIGN CHOICE). -/
opaque Config.heldTrap : Nat → BitVec 640
/-- Where the root pointer of a launch's snapshot domain stands, for which the manual gives no address (R179; log entry 41, DESIGN CHOICE). -/
opaque Config.rootAt : Nat → Nat

/-- Nominal arithmetic clock in MHz (R1, R4). -/
abbrev Config.nominalMHz : Nat := 2400
/-- Active walls of a device (R1). -/
abbrev Config.walls : Nat := 192
/-- Bytes of one plane's scratchpad (R16). -/
abbrev Config.spBytes : Nat := 0x100000
/-- Entries of a queue (R31). -/
abbrev Config.queueCap : Nat := 16
/-- The age at which a blocked head closes its region (R172), and the partner and fabric time limits (R376, R387). -/
abbrev Config.ageLimit : Nat := 2 ^ 22
/-- Ticks after which a fabric request or a missing partner fails (R376, R387). -/
abbrev Config.peerLimit : Nat := 2 ^ 24

end Sys2Proof
end

