-- ==== Sys2Proof/Machine/State.lean ====
section
/-! DEFINITION. The state of one C9 device: every register, memory, queue and table the manual names, as plain data.
A `Sparse` table lists only the entries that differ from the value an unlisted key reads as, in rising key order, so
that equal tables are equal lists. -/

namespace Sys2Proof.Machine

/-- A table keyed by numbers, in canonical form (see `Sparse.get` and `Sparse.set`). -/
abbrev Sparse (β : Type) := List (Nat × β)

/-- The two instruction streams of a course (R30). -/
inductive Stream where
  | addr
  | comp
  deriving DecidableEq, Repr

/-- One entry of a queue (R31). -/
inductive QEntry where
  | vec (valid : Mask) (words : Sparse Word)
  | uni (w : Word)
  deriving DecidableEq, Repr

/-- One place of a queue: reserved at issue under the pushing work's number, filled at its commit (R31). -/
structure QSlot where
  id   : Nat
  data : Option QEntry
  deriving DecidableEq, Repr

/-- A translation register (R154). -/
structure BReg where
  base  : DWord
  frame : BitVec 52
  ca    : BitVec 2
  rd    : Bool
  w     : Bool
  chk   : Bool
  gr    : BitVec 2
  stale : Bool
  mode  : Bool
  lim   : Word
  ext   : Word
  deriving DecidableEq, Repr

/-- A translation register at reset: every field zero (R154). -/
def BReg.zero : BReg := ⟨0, 0, 0, false, false, false, 0, false, false, 0, 0⟩

/-- What a release carries (R131, R141): the releaser, its scope, the carried RC, its table and filter. -/
structure Carry where
  who    : DWord
  scope  : Nat
  rc     : DWord
  table  : List (DWord × DWord)
  filter : DWord
  deriving DecidableEq, Repr

/-- What a variable-latency work item still has to do when it completes (R34 and the chapter of its instruction). -/
inductive Act where
  /-- nothing beyond its register results -/
  | none
  /-- a promise to be written to a pair (R111) -/
  | promise
  /-- a copy that runs on a channel (R106); its flag falls with COPY_COMPLETE or COPY_FAILURE -/
  | copy (wall ch : Nat)
  /-- an operation in the matrix engine (R276); its flag falls with its completion or cancellation -/
  | engine
  /-- a chute operation (R265): plane, chute, which of the four, count, destination register, and the work
  numbers of the course's earlier stores when it is a CHPUT -/
  | chute (plane ch op n rd : Nat) (after : List Nat)
  /-- CHDEF (R264) with its 32-byte descriptor -/
  | chdef (plane ch : Nat) (desc : List Byte)
  /-- WBLD (R271): plane, slot, format slot word, buffer byte, tiles, length, the source bytes or the code of the
  access that failed, and the count of the sender's die counter at issue (R376) -/
  | wbld (plane slot : Nat) (fmt : Word) (off tiles len : Nat) (src : Code × List Byte) (since : DWord)
  /-- PUBLISH that waits for rows of matrix operations (R138): whether of a scratchpad buffer, its entry, its name, what the publish releases -/
  | publish (sp : Bool) (e name : Nat) (carry : Carry)
  /-- SNAPC (R282): launch index, destination register, close, and the ticks its walls must be scanned after -/
  | snapc (launch rd : Nat) (close : Bool)
  /-- TLBINV (R158): the ASID (none for all) and the virtual range (none for the whole ASID) -/
  | tlbinv (asid : Option Nat) (range : Option (Nat × Nat))
  /-- PGREQ (R283): the physical places of the list's entries, how many, and the requests not answered yet, each with its entry -/
  | pgreq (list : List Nat) (n : Nat) (wait : List (Nat × Nat))
  /-- a store, with the wall whose outstanding counter counts it, if one does (R173), and the scratchpad bytes of its plane that it
  writes, as offsets with lengths (R265) -/
  | store (wall : Option Nat) (sp : List (Nat × Nat))
  /-- an access to peer memory that will be answered (R376), with the wall whose outstanding counter counts it, if one does -/
  | peer (wall : Option Nat)
  /-- a request of the word at which its stream stands that a peer will not answer (R376): the word, the lowest lane's address, the lanes that
  reach a peer, the wall whose outstanding counter counts what the peer has performed, and the count of the sender's die counter -/
  | lost (word : BitVec 128) (va : Nat) (lanes : Mask) (wall : Option Nat) (since : DWord)
  /-- the arrival at a barrier, until its departure (R224) -/
  | bar
  /-- SWR of an index of 0x800 and above: index and value, written at its latency of 1 (R228) -/
  | swr (idx : Nat) (x : Word)
  /-- FENCE: falls once every access it orders is performed (R218) -/
  | fence
  /-- FENCEI: discards the fetched words at its completion (R310) -/
  | fencei
  /-- WAYGT that waits for a streaming plane: plane index and the mask to set (R308) -/
  | gates (plane : Nat) (mask : DWord)
  /-- CTXREQ (R311): the request's operation, plane, ASID, wall, image and status address -/
  | ctx (op plane asid wall : Nat) (image status : DWord)
  deriving DecidableEq, Repr

/-- An entry of the reconvergence stack (R37, R73). -/
structure RecEntry where
  saved   : Mask
  pending : Mask
  pc      : DWord
  depth   : Nat
  deriving DecidableEq, Repr

/-- An entry of the meld stack (R63). -/
inductive MeldEntry where
  | meld (saved faceA : Mask) (pred : Nat) (encl : Bool)
  | loop (saved : Mask) (faceA : Option Mask) (start : DWord) (cnt : Sparse Word)
  | suspend (ret : DWord)
  | pair (saved faceA : Mask) (targetB ret : DWord) (runB : Bool)
  deriving DecidableEq, Repr

/-- One register write that waits for its commit (R35). -/
inductive RegWrite where
  /-- `s`n -/
  | s (n : Nat) (x : Word)
  /-- `w`n; a mask word is ANDed at the commit (R24, R74) -/
  | w (n : Nat) (x : Word)
  /-- `v`n of thread t -/
  | v (n t : Nat) (x : Word)
  /-- `p`n in the threads of `sel` -/
  | p (n : Nat) (sel val : Mask)
  /-- element e of `q`n of thread t -/
  | qe (n t e : Nat) (x : Word)
  /-- the shape tag of `q`n of thread t: rows in [5:3], columns in [2:0] -/
  | qs (n t : Nat) (shape : Nat)
  /-- the entry reserved in queue q under this work's number -/
  | push (q : Nat) (tag : Nat) (e : QEntry)
  /-- translation register n -/
  | b (n : Nat) (r : BReg)
  /-- word j of completion-record slot f, at key 4f + j (R114, R228) -/
  | record (k : Nat) (x : Word)
  /-- the meld stack (R67) -/
  | meld (st : List MeldEntry)
  /-- the reconvergence stack (R37, R67) -/
  | recon (st : List RecEntry)
  /-- threads exit (R38) -/
  | exit (m : Mask)
  deriving DecidableEq, Repr

/-- Work in flight: what an issued instruction will still do (R34, R35). A fixed-latency item has the cycle it is due
in; a variable-latency one has none. -/
structure Work where
  id     : Nat
  stream : Stream
  due    : Option Nat
  /-- the first and, where the manual gives one, the last cycle in which a variable-latency item completes -/
  early  : Nat
  late   : Option Nat
  sig    : Option Nat
  writes : List RegWrite
  act    : Act
  deriving DecidableEq, Repr

/-- The synchronisation state of an agent (R131, R141): release counter, table of at most 32 identities with their RC
(least recently updated first), drop filter. -/
structure Sync where
  rc     : DWord
  table  : List (DWord × DWord)
  filter : DWord
  deriving DecidableEq, Repr

/-- Synchronisation state at an agent's start (R131, R141). -/
def Sync.start : Sync := ⟨0, [], 0⟩

/-- One member's part of a matrix operation (R273 to R276). -/
structure EngMember where
  ident : DWord
  workId : Nat
  sig   : Option Nat
  a     : Nat
  c     : Nat
  /-- rows of each step: group, first row, rows written -/
  steps : List (Nat × Nat)
  /-- A entries already read and freed -/
  eaten : Nat
  /-- A consumer index and C producer index captured at firing -/
  aIdx  : Nat
  cIdx  : Nat
  /-- the course's release counter at the issue (R131) -/
  rc    : DWord
  deriving DecidableEq, Repr

/-- What the Kiln keeps of a record of a stage graph (R176): its offset in the pool, where its header and payload stand, its payload's
size in bytes, its depth, its emitter's identity and carried RC, the tick of its enqueue. -/
structure GRec where
  off   : Nat
  size  : Nat
  depth : Nat
  carry : Carry
  tick  : DWord
  deriving DecidableEq, Repr

/-- What keeps a stream from being ready besides the flags and queues (R33, condition 1). -/
inductive Hold where
  | none
  /-- asleep under SLEEPT until the die counter reaches the value (R226) -/
  | sleep (until_ : DWord)
  /-- held by WFE until the event bit is set (R227) -/
  | wfe
  /-- held at the rendezvous latch with its part of the operation (R268); its flag is not counted yet -/
  | latch (part : EngMember)
  /-- held at a barrier: scope, unit, id, the epoch it departs at and the destination (R224, R225); `done` once its
  generation has departed, with what the departure merges, for a course that has yet to go on -/
  | bar (scope unit id : Nat) (epoch : DWord) (rd : Nat) (done : Option (List Carry))
  /-- a system core held by HALT (R305) -/
  | halt
  deriving DecidableEq, Repr

/-- A course trap that awaits its record or its TRACK action (R353, R356). -/
structure TrapInfo where
  code   : Code
  stream : Stream
  pc     : DWord
  word   : BitVec 128
  detail : DWord
  faces  : BitVec 2
  melded : Bool
  fmask  : Mask
  faceA  : Mask
  active : Mask
  tick   : DWord
  other  : DWord
  otherRc : DWord
  rc     : DWord
  depths : Nat × Nat × Nat
  /-- the ring descriptor and index of the record once it is written -/
  slot   : Option (Nat × Nat)
  deriving DecidableEq, Repr

/-- A trap set of a system core (R300). -/
structure TrapSet where
  vbase  : DWord
  epc    : DWord
  ecause : Word
  einfo  : Word
  esave  : Word
  deriving DecidableEq, Repr

/-- A trap set before software writes it: zero (log entry 2, DESIGN CHOICE). -/
def TrapSet.zero : TrapSet := ⟨0, 0, 0, 0, 0⟩

/-- What a system core holds beyond a course's address stream (R297, R300, R301). -/
structure SysRegs where
  core   : Nat
  lvl    : BitVec 2
  ie     : Bool
  asidr  : Word
  sup    : TrapSet
  hyp    : TrapSet
  evpend : DWord
  even   : DWord
  deriving DecidableEq, Repr

/-- One issue of a member of a redundant pair, as the device compares it: word, addresses, operands and valid masks (R387). -/
structure PairIssue where
  word    : BitVec 128
  scalars : List Word
  breg    : Option BReg
  live    : Mask
  entries : List (Option QEntry)
  masks   : List Nat
  vectors : List Word
  deriving DecidableEq, Repr

/-- The comparison that a stream of a redundant pair is in (R387): the failed issues of its next word so far, the tick at which the first
member issued it and what that issue showed, and whether the two issues have matched. -/
structure Pair where
  fails   : Nat
  since   : Option DWord
  issue   : Option PairIssue
  matched : Bool
  deriving DecidableEq, Repr

/-- Nothing to compare. -/
def Pair.none : Pair := ⟨0, Option.none, Option.none, false⟩

/-- One agent with an address stream: a course, or a system core when `sys` is some (R27, R165, R297). Log entry 107, DESIGN CHOICE. -/
structure Course where
  ident   : DWord
  lid     : Word
  cid     : Word
  nid     : Word
  gcnt    : Word
  nthr    : Nat
  vcnt    : Nat
  qcnt    : Nat
  asid    : Nat
  /-- index of its launch in `State.launches` -/
  launch  : Nat
  /-- resident on a wall and plane (false once it has retired or been streamed out, and before it is placed) -/
  resident : Bool
  wall    : Nat
  plane   : Nat
  /-- its front-end slot (R41) and lane set (R15) -/
  slot    : Nat
  lset    : Nat
  unified : Bool
  w6      : Bool
  pcA     : DWord
  pcC     : DWord
  endA    : Bool
  endC    : Bool
  trap    : Option TrapInfo
  /-- its latest trap record (R341, R356), empty before any -/
  trapRec : List Byte
  /-- halted by a debug session (R342) -/
  halted  : Bool
  /-- retired (R39): it is no agent any more, and is kept while work it started without a flag is under way -/
  retired : Bool
  /-- streamed out by a sequencer that moves its plane off a failed wall (R382) -/
  moving  : Bool
  /-- where its course record stands, while it is streamed out into an image (R165) -/
  savedAt : Option Nat
  /-- hold of the address stream -/
  hold    : Hold
  /-- cycle at which the front-end hold of R67 ends -/
  holdC   : Nat
  /-- cycles at which each stream last issued (none since resumption) -/
  lastA   : Option Nat
  lastC   : Option Nat
  /-- cycles before which a resumed stream does not issue: what was left of its `DIST` (R42, R165) -/
  restA   : Nat
  restC   : Nat
  /-- R41 counts of ready cycles -/
  ageA    : Nat
  ageC    : Nat
  live    : Mask
  s       : Sparse Word
  w       : Sparse Word
  /-- `v`n of thread t at key 96n + t -/
  v       : Sparse Word
  /-- predicate n as the mask of threads in which it is true; `p0` is not kept -/
  p       : Sparse Mask
  /-- element e of `q`n of thread t at key 36(96n + t) + e -/
  qe      : Sparse Word
  /-- shape tag of `q`n of thread t at key 96n + t -/
  qs      : Sparse Nat
  b       : Sparse BReg
  flags   : Sparse Nat
  /-- queues `aq0` to `aq3` as 0 to 3, `cq0`, `cq1` as 4, 5; oldest first -/
  queues  : Sparse (List QSlot)
  gang    : Word
  recon   : List RecEntry
  meld    : List MeldEntry
  /-- format slot words at key 4n + j (R88) -/
  fslots  : Sparse Word
  /-- completion-record slot words at key 4f + j (R114) -/
  recs    : Sparse Word
  /-- the latch of SRD 0x010 (R29) -/
  latch   : Option Word
  /-- the event bit (R227) -/
  event   : Bool
  sync    : Sync
  /-- the scopes of the release fences in force (R133) -/
  relFences : List Nat
  /-- carries that relaxed loads have read and no acquire fence has acquired yet (R133) -/
  relSeen : List Carry
  /-- barrier epochs: scope code, instance, barriers of it passed, the one passed last first (R141, R165) -/
  epochs  : List (Nat × DWord × DWord)
  work    : List Work
  /-- atomic requests since resumption (R388) -/
  atoms   : Nat
  /-- promises of its copies not yet completed: work number and promise (R113) -/
  promises : List (Nat × DWord)
  /-- the record each thread holds; freed threads are unlisted (R176, R280) -/
  held    : Sparse GRec
  /-- depth of the record each thread was launched with (R279) -/
  depths  : Sparse Nat
  /-- fetched code words by byte address, for each stream (R182) -/
  icacheA : Sparse (BitVec 128)
  icacheC : Sparse (BitVec 128)
  /-- releases of completed copies that a wait on their flag acquires (R131) -/
  copyRels : List (Nat × Carry)
  /-- flags whose engine operation was cancelled and whose trap 0x43 is due (R367) -/
  cancelled : List Nat
  /-- it was terminated by a reset of its queue: its joined name is rejected from then on (R390) -/
  wasReset  : Bool
  /-- storage of its registers and queues with an uncorrectable error, as `Damage.lean` numbers it (R380) -/
  damaged   : List Nat
  /-- the place of the second member of a redundant pair (R386; log entry 20, DESIGN CHOICE) -/
  twin      : Option (Nat × Nat)
  /-- the second member has no place at present: that is the one it had last (log entry 20, DESIGN CHOICE) -/
  twinOut   : Bool
  /-- the front-end slot and the lane set of that second member (R15, R386) -/
  twinSlot  : Nat
  twinSet   : Nat
  /-- the comparison that each stream of a redundant pair is in (R387) -/
  pairA     : Pair
  pairC     : Pair
  sys     : Option SysRegs
  deriving DecidableEq, Repr

/-- The format slots at reset: word 0 of each slot holds `SUB` = 1 (R88). -/
def slotReset : Sparse Word := (List.range 8).map (fun n => (4 * n, 0x1000#32))

/-- A course before any launch: the values of a fresh image (R42), with no thread launched and no place (log entry 2, DESIGN CHOICE). -/
def Course.blank : Course :=
  { ident := 0, lid := 0, cid := 0, nid := 0xFFFFFFFF#32, gcnt := 0, nthr := 0, vcnt := 8, qcnt := 0, asid := 0,
    launch := 0, resident := false, wall := 0, plane := 0, slot := 0, lset := 0, unified := false, w6 := false,
    pcA := 0, pcC := 0, endA := false, endC := false, trap := none, trapRec := [], halted := false, retired := false, moving := false, savedAt := none, hold := .none, holdC := 0,
    lastA := none, lastC := none, restA := 0, restC := 0, ageA := 0, ageC := 0, live := 0, s := [], w := [], v := [], p := [], qe := [],
    qs := [], b := [], flags := [], queues := [], gang := 0, recon := [], meld := [], fslots := slotReset, recs := [],
    latch := none, event := false, sync := Sync.start, relFences := [], relSeen := [], epochs := [], work := [],
    atoms := 0, promises := [], held := [], depths := [], icacheA := [], icacheC := [], copyRels := [], cancelled := [],
    wasReset := false, damaged := [], twin := none, twinOut := false, twinSlot := 0, twinSet := 0, pairA := Pair.none, pairC := Pair.none, sys := none }

/-- No agent: what the focus stands on before any agent exists. -/
def Course.nobody : Course := { Course.blank with retired := true }

/-- A chute (R115, R164): sides 0 undefined, 1 courses, 2 Hod channel, 3 matrix engine. -/
structure Chute where
  base  : Nat
  cap   : Nat
  size  : Nat
  prod  : Nat
  cons  : Nat
  pside : Nat
  cside : Nat
  chan  : Nat
  resv  : Nat
  deriving DecidableEq, Repr

/-- An undefined chute. -/
def Chute.none : Chute := ⟨0, 0, 0, 0, 0, 0, 0, 0, 0⟩

/-- A declared shadow buffer (R262). -/
structure Shadow where
  asid   : Nat
  name   : Nat
  second : Nat
  len    : Nat
  /-- the second copy is the visible one -/
  swap   : Bool
  /-- what its `PUBLISH`es released, the latest of each publisher and scope, for the accesses through their mappings (R138) -/
  pub    : List Carry
  deriving DecidableEq, Repr

/-- A wall, gang, bay, yard or device barrier instance (R224, R225). -/
structure Barrier where
  lid   : Word
  n     : Nat
  count : Nat
  epoch : DWord
  /-- the carried releases of the pending generation's arrivals, and who they are -/
  carries : List Carry
  /-- the participants of the last generation that departed (R142) -/
  last  : List DWord
  deriving DecidableEq, Repr

/-- A barrier before any arrival. -/
def Barrier.zero : Barrier := ⟨0, 0, 0, 0, [], []⟩

/-- A gang registered in a plane's latch area (R267, R269), with the first arrival's opcode and body. -/
structure Gang where
  lid     : Word
  gid     : Nat
  size    : Nat
  ranks   : Nat
  arrived : Nat
  first   : Option (Instr × Nat)
  deriving DecidableEq, Repr

/-- A matrix operation in a plane's engine queue (R276). -/
structure EngOp where
  members : List EngMember
  kt     : Nat
  /-- the format-slot words 0 named by `fa` and `fb` -/
  fa     : Word
  fb     : Word
  fired  : Bool
  /-- rows computed at firing: for each member, its C rows of 128 words -/
  rows   : List (List (List Word))
  deriving DecidableEq, Repr

/-- The four states of a context plane (R17). -/
inductive PlaneState where
  | idle
  | ready
  | active
  | streaming
  deriving DecidableEq, Repr

/-- A stream of a plane that is asked for or in progress (R17, R311): out or in, the image header's address, the plane's
index in its plane table. A sequencer moves a plane off a failed wall by itself (R382): then there is no image. -/
structure StreamJob where
  into   : Bool
  image  : Option DWord
  idx    : Nat
  /-- the resume entry whose placement began it, if one did (R168) -/
  entry  : Option Nat
  /-- it brings the plane in for the second members of redundant pairs (R386) -/
  second : Bool
  deriving DecidableEq, Repr

/-- A stream-out to an image that `CTXREQ` asks for (R311). -/
abbrev StreamJob.outTo (image : DWord) : StreamJob := ⟨false, some image, 0, none, false⟩
/-- A stream-in of an image that `CTXREQ` asks for (R311). -/
abbrev StreamJob.inFrom (image : DWord) : StreamJob := ⟨true, some image, 0, none, false⟩
/-- A plane that its sequencer streams out by itself (R382). -/
abbrev StreamJob.moveOut : StreamJob := ⟨false, none, 0, none, false⟩
/-- A plane that its sequencer has streamed out by itself, streamed in elsewhere (R382). -/
abbrev StreamJob.moveIn (from_ : Nat) : StreamJob := ⟨true, none, from_, none, false⟩
/-- A plane of an image that a resume entry places (R167, R168). -/
abbrev StreamJob.resume (image : DWord) (idx entry : Nat) (second : Bool) : StreamJob := ⟨true, some image, idx, some entry, second⟩

/-- A context plane (R16, R164); its scratchpad bytes lie in `State.mem` in region 01 (R146). -/
structure Plane where
  st      : PlaneState
  asid    : Option Nat
  /-- bank gates: bit n set when bank n is off (all on at reset, log entry 2, DESIGN CHOICE) -/
  off     : DWord
  /-- banks that are waking: their accesses stall (R120) -/
  waking  : DWord
  tags    : Sparse DWord
  rptr    : Sparse Nat
  chutes  : Sparse Chute
  weight  : Sparse Byte
  bars    : Sparse Barrier
  /-- gang barriers, kept in the latch area, by launch, gang number and id (R225) -/
  gbars   : List ((Word × Nat × Nat) × Barrier)
  gangs   : List Gang
  engine  : List EngOp
  shadows : Sparse Shadow
  /-- the launch that installed plane data here and its image (R163) -/
  owner   : Option Nat
  /-- held as the plane to resume when the wall returns to service (R17) -/
  heldPlane : Bool
  stream  : Option StreamJob
  /-- a switch has been requested (R17) -/
  wantActive : Bool
  deriving DecidableEq, Repr

/-- A plane at reset: idle, unbound and empty (R17, R154; log entry 2, DESIGN CHOICE). -/
def Plane.zero : Plane :=
  { st := .idle, asid := none, off := 0, waking := 0, tags := [], rptr := [], chutes := [], weight := [], bars := [],
    gbars := [], gangs := [], engine := [], shadows := [], owner := none, heldPlane := false, stream := none,
    wantActive := false }

/-- The kinds of copy (R257). -/
inductive CopyKind where
  | cpy
  | cpyg
  | cpyp
  deriving DecidableEq, Repr

/-- A copy on a channel (R257 to R261), its parameter block as read at issue. -/
structure CopyJob where
  kind  : CopyKind
  ident : DWord
  asid  : Nat
  lvl   : BitVec 2
  launch : Nat
  plane : Nat
  workId : Nat
  sig   : Option Nat
  src   : DWord
  dst   : DWord
  len   : Nat
  ctl   : Word
  /-- CPYG: bitmap, index list, entries, row size -/
  bmap  : Nat
  idx   : Nat
  nidx  : Nat
  rowsz : Nat
  siga  : DWord
  /-- the count of its die's counter when it issued, and then when it started (R376) -/
  since : DWord
  /-- entry index at which a DCV copy writes, reserved at issue -/
  dIdx  : Nat
  issue : Carry
  started : Bool
  /-- source bytes as they stood when the copy started (R259) -/
  data  : List Byte
  /-- chute entries already consumed (SCV) -/
  eaten : Nat
  /-- chute consumer index claimed at start (SCV) -/
  sIdx  : Nat
  /-- residency bits of a CPYG, row i at index i -/
  nonres : List Bool
  /-- data written and acknowledged; the remote signal is next (R110) -/
  written : Bool
  signalled : Bool
  deriving DecidableEq, Repr

/-- A Hod channel (R106, R125), with the plane that issued its latest copy, by which its residence is judged (R19), and for the courses whose
copies have ended on it the release counter with which the latest of them ended. -/
structure Chan where
  job   : Option CopyJob
  ident : DWord
  sync  : Sync
  plane : Option Nat
  ended : List (DWord × DWord)
  deriving DecidableEq, Repr

/-- A wall's service status (R17, R174, R382, R385). -/
inductive Service where
  | inService
  | drained
  | retest
  | retired
  /-- a spare that has taken a retired wall's number and whose first plane is not bound yet (R385) -/
  | spare
  deriving DecidableEq, Repr

/-- A wall (R15, R16, R106, R348). -/
structure Wall where
  service : Service
  chans   : Sparse Chan
  /-- stochastic generator of each lane set: state, loaded since reset or plane change (R91) -/
  gens    : Sparse (Word × Bool)
  /-- cycle in which each front end last issued: lane set l's address front end at l, compute at 4 + l -/
  fronts  : Sparse (Nat × Nat)
  /-- cycle at which a lane set is free (R25) -/
  lanes   : Sparse Nat
  counters : Sparse Word
  /-- next course slot to sample, by lane set (R351) -/
  sampled : Sparse Nat
  /-- parameter-block cache of CPYR: scratchpad addresses held (R108) -/
  pcache  : List Nat
  /-- wall cache: the 128-byte lines of global data that the wall's courses have read, by number, with the valid sectors of
  each in [3:0] (R10, R16, R104) -/
  cache   : Sparse Nat
  lastScan : DWord
  scanStart : DWord
  /-- physical position in the die of the spare that bears this number; none for a native wall, whose position is its
  number within the die (R12, R13; log entry 22, DESIGN CHOICE) -/
  phys    : Option Nat
  /-- pattern and tick of the failure of its last failed scan (R383) -/
  failure : Byte × DWord
  deriving DecidableEq, Repr

/-- A wall at reset (log entry 2, DESIGN CHOICE). -/
def Wall.zero : Wall :=
  { service := .inService, chans := [], gens := [], fronts := [], lanes := [], counters := [], sampled := [],
    pcache := [], cache := [], lastScan := 0, scanStart := 0, phys := none, failure := (0, 0) }

/-- A channel at reset: no copy, no identity drawn yet. -/
def Chan.zero : Chan := ⟨none, 0, Sync.start, none, []⟩

/-- A die: its counter, clock, outstanding promises and patrol state (R4, R112, R349). -/
structure Die where
  /-- the cycles of its clock, by which R33 and R35 count for the walls and cores of this die (R4) -/
  cycle : Nat
  cnt   : DWord
  mhz   : Nat
  /-- the part of a tick that the counter has not counted yet, in units of one `mhz`-th of a tick -/
  acc   : Nat
  /-- outstanding promises with the frequency each was computed on -/
  proms : List (DWord × Nat)
  sweeps : DWord
  spares : Nat
  /-- the patch memory of the die's command sequencer: address and word (R333) -/
  patch  : Sparse (BitVec 128)
  deriving DecidableEq, Repr

/-- A die at reset: nominal clock, two free spares, an empty patch memory (R1, R8; log entry 2, DESIGN CHOICE). -/
def Die.zero : Die := ⟨0, 0, Config.nominalMHz, 0, [], 0, 2, []⟩

/-- A line of a bay-cache slice (R105): the line's number (physical address / 128), the valid and the dirty sectors in [3:0], and
whether a `.keep` access brought it in (R211). -/
structure BayLine where
  line  : Nat
  valid : Nat
  dirty : Nat
  keep  : Bool
  deriving DecidableEq, Repr

/-- A way that holds no line. -/
def BayLine.none : BayLine := ⟨0, 0, 0, false⟩

/-- Where an agent stands: its wall, the plane of that wall it belongs to, its gang (R19). -/
structure Spot where
  wall  : Option Nat := Option.none
  plane : Option Nat := Option.none
  gang  : Option (Word × Nat) := Option.none
  deriving DecidableEq, Repr

/-- A TLB entry at one level (0 micro, 1 bay, 2 yard) of one unit (R152). -/
structure TlbEntry where
  level : Nat
  unit  : Nat
  asid  : Nat
  /-- log2 of the page size: 14, 21 or 29 -/
  size  : Nat
  page  : Nat
  leaf  : DWord
  deriving DecidableEq, Repr

/-- The race tag of a sector (R140). -/
structure RaceTag where
  wagt : DWord
  wrc  : DWord
  ragt : DWord
  rrc  : DWord
  rscp : Nat
  ratm : Bool
  many : Bool
  mscp : Nat
  rv   : Bool
  wscp : Nat
  watm : Bool
  wv   : Bool
  /-- the readers recorded since the last write, by which `MSCP` is found (R142) -/
  readers : List DWord
  deriving DecidableEq, Repr

/-- The empty tag (R140). -/
def RaceTag.empty : RaceTag := ⟨0, 0, 0, 0, 0, false, false, 15, false, 0, false, false, []⟩

/-- A node of a running graph (R175, R177). -/
structure Node where
  size   : Nat
  target : Nat
  maxDepth : Nat
  prio   : Nat
  timer  : Nat
  maxFlight : Nat
  cap    : Nat
  qmem   : DWord
  pending : List GRec
  /-- where the oldest pending record's entry stands in the queue memory (R175, R176) -/
  qhead   : Nat
  flight : Nat
  nextCid : Nat
  expired : Bool
  /-- reservations: identity and the pool offsets set aside (R278) -/
  resv   : List (DWord × List Nat)
  deriving DecidableEq, Repr

/-- A node whose capacity is 0 does not exist (R175). -/
def Node.none : Node := ⟨0, 1, 0, 0, 0, 1, 0, 0, [], 0, 0, 0, false, []⟩

/-- A context-image header (R162). -/
structure ImgHdr where
  unified : Bool
  graph  : Bool
  fresh  : Bool
  asid   : Nat
  nthr   : Nat
  vcnt   : Nat
  qcnt   : Nat
  cluster : Nat
  gcnt   : Nat
  lid    : Word
  stack  : Nat
  entryA : DWord
  entryC : DWord
  stackBase : DWord
  courseTab : DWord
  planeTab : DWord
  scratch : DWord
  scratchLen : Nat
  planes : Nat
  nodeTab : DWord
  pool   : DWord
  poolLen : Nat
  seedNode : Nat
  seedCount : Nat
  seeds  : DWord
  fslots : List Word
  chutes : List Chute
  snapTab : DWord
  snapCount : Nat
  deriving DecidableEq, Repr

/-- A launch known to a sequencer (R168 to R174, R350). -/
structure Launch where
  lid    : Word
  asid   : Nat
  queue  : Nat
  region : BitVec 192
  type   : Nat
  prio   : Nat
  certDep : Bool
  deps   : List Word
  hdr    : ImgHdr
  image  : DWord
  done   : DWord
  event  : Word
  /-- tick of arrival, courses placed and retired, finished and certified -/
  arrived : DWord
  placed : Nat
  /-- of an image that is resumed: the plane groups placed so far (R167) -/
  groups : Nat
  retired : Nat
  complete : Bool
  certified : Bool
  suspect : Bool
  status : Code
  tickDone : DWord
  /-- outstanding counters by wall (R173) and the tick of the last instruction on each wall that ran it (R174) -/
  outst  : Sparse Nat
  ran    : Sparse DWord
  firstPlaced : Option DWord
  cycActive : DWord
  cycA   : DWord
  cycC   : DWord
  cycHeld : DWord
  cycHalt : DWord
  nodes  : Sparse Node
  /-- the parts of the record pool in use: offset and bytes, in rising order (R176) -/
  pool   : List (Nat × Nat)
  /-- snapshot domain: open, and the 16 KiB pages written since the last commit, by physical number, whose working frame the
  launch uses (R179) -/
  snapOpen : Bool
  snapPages : List Nat
  /-- walls that wrote into the domain since SNAP and the tick of the last write (R180) -/
  snapWalls : Sparse DWord
  /-- what its retired courses and performed copies leave to the release of its report (R174) -/
  sync   : Sync
  /-- barriers abandoned (R381) -/
  abandoned : Bool
  /-- its courses run as redundant pairs (R386) -/
  pairQ  : Bool
  /-- its entry has left its queue (R377, R390) -/
  left   : Bool
  /-- the earlier launch whose switched-out image this entry resumes, if the sequencer knows it (R168, R173) -/
  of_    : Option Nat
  deriving DecidableEq, Repr

/-- A header with nothing filled in. -/
def ImgHdr.blank : ImgHdr :=
  { unified := false, graph := false, fresh := false, asid := 0, nthr := 0, vcnt := 0, qcnt := 0, cluster := 0, gcnt := 0,
    lid := 0, stack := 0, entryA := 0, entryC := 0, stackBase := 0, courseTab := 0, planeTab := 0, scratch := 0,
    scratchLen := 0, planes := 0, nodeTab := 0, pool := 0, poolLen := 0, seedNode := 0, seedCount := 0, seeds := 0,
    fslots := [], chutes := [], snapTab := 0, snapCount := 0 }

/-- A launch with nothing filled in. -/
def Launch.blank : Launch :=
  { lid := 0, asid := 0, queue := 0, region := 0, type := 0, prio := 0, certDep := false, deps := [], hdr := ImgHdr.blank,
    image := 0, done := 0, event := 0, arrived := 0, placed := 0, groups := 0, retired := 0, complete := false, certified := false,
    suspect := false, status := 0, tickDone := 0, outst := [], ran := [], firstPlaced := none, cycActive := 0, cycA := 0,
    cycC := 0, cycHeld := 0, cycHalt := 0, nodes := [], pool := [], snapOpen := false, snapPages := [],
    snapWalls := [], sync := Sync.start, abandoned := false, pairQ := false, left := false, of_ := none }

/-- A launch queue's own state beside its descriptor in HBM (R169, R172). -/
structure LQueue where
  /-- entries read from the ring: indices into `State.launches` in arrival order, not finished placing -/
  ents   : List Nat
  head   : Option Nat
  /-- tick at which the blocked head first failed -/
  since  : Option DWord
  closed : Bool
  deriving DecidableEq, Repr

/-- A queue at reset. -/
def LQueue.zero : LQueue := ⟨[], none, none, false⟩

/-- A firmware-slot marker copy of the Stohel flash (R334). -/
structure Marker where
  seq   : Nat
  slotB : Bool
  trial : Bool
  tries : Nat
  deriving DecidableEq, Repr

/-- The Stohel monitor core: fuses, flash, boot progress and measurements (R331 to R337, R392). Log entry 42, DESIGN CHOICE. -/
structure Monitor where
  bootStep : Nat
  /-- key hashes in the fuses with their revoke fuses (R332) -/
  keys   : List (List Byte × Bool)
  /-- fuse counters by image kind (R332) -/
  svn    : Sparse Nat
  slotA  : List Image
  slotB  : List Image
  mark0  : Option Marker
  mark1  : Option Marker
  /-- the slot running, the SVN of each kind running, and the measurement registers -/
  runB   : Bool
  runSvn : Sparse Nat
  meas   : Sparse (List Byte)
  /-- life-long counters: as they stand in flash, as they have run on since, and the tick of the last update (R392) -/
  life   : Sparse Nat
  lifeNow : Sparse Nat
  lifeTick : DWord
  /-- debug key hash registered for an ASID (R338) -/
  debugKeys : Sparse (List Byte)
  /-- the fuse counter that the last `SVN` commit advances: its kind, what it was before, and the work number at the commit; its fuses are
  being blown while no other instruction has issued (R391; log entry 117, DESIGN CHOICE) -/
  burning : Option (Nat × Nat × Nat)
  deriving DecidableEq, Repr

/-- The monitor at reset: nothing in the flash or the fuses is stated by the manual (log entry 2, DESIGN CHOICE). -/
def Monitor.zero : Monitor :=
  { bootStep := 0, keys := [], svn := [], slotA := [], slotB := [], mark0 := none, mark1 := none, runB := false,
    runSvn := [], meas := [], life := [], lifeNow := [], lifeTick := 0, debugKeys := [], burning := none }

/-- An instruction trace of a course (R345, R346). -/
structure Trace where
  who   : DWord
  frames : List Nat
  pages : Nat
  wr    : Nat
  rd    : Nat
  lost  : Nat
  lastTs : DWord
  deriving DecidableEq, Repr

/-- A request of a debug client after its session has opened, with what its body holds (R341). -/
inductive DbgReq where
  | close
  | ping
  | halt (name : BitVec 128)
  | resume (name : BitVec 128)
  | step (name : BitVec 128) (stream : Byte)
  | setbp (name : BitVec 128) (stream cmp : Byte) (pc : DWord)
  | clrbp (name : BitVec 128) (stream cmp : Byte)
  | read (name : BitVec 128) (area off len : Word)
  | write (name : BitVec 128) (area off : Word) (bytes : List Byte)
  | tstart (name : BitVec 128) (base : DWord) (pages : Word)
  | tstop (name : BitVec 128)
  | tack (name : BitVec 128) (n : DWord)
  | other (op : Byte)
  deriving DecidableEq, Repr

/-- A debug session (R338 to R344). -/
structure Session where
  /-- the connection its messages come on (R340) -/
  conn   : Nat
  asid   : Nat
  nonce  : List Byte
  proven : Bool
  lastSeq : Nat
  lastMsg : DWord
  /-- breakpoint comparators: joined name without its thread, stream, number, program counter (R165, R343) -/
  bps    : List (Nat × Stream × Nat × DWord)
  traces : List Trace
  /-- a step in progress: request number, target, stream, cycle it began, and the thread its name selects -/
  stepping : Option (Word × DWord × Stream × Nat × Nat)
  /-- requests that have arrived since that step began, oldest first (R340) -/
  waiting : List (Word × DbgReq)
  deriving DecidableEq, Repr

/-- A message the monitor sends to a debug client (R340, R341): opcode, sequence, status, body. -/
structure DbgMsg where
  conn   : Nat
  op     : Byte
  seq    : Word
  status : Code
  body   : List Byte
  deriving DecidableEq, Repr

/-- The attachment block of a virtual function (R327, R328). -/
structure Vf where
  /-- its identity as an agent, 0 before its first access (R125) -/
  ident  : DWord
  accept : Sparse DWord
  fstat  : Byte
  deriving DecidableEq, Repr

/-- A function before any negotiation: `FSTAT` has no stated reset value (log entry 2, DESIGN CHOICE). -/
def Vf.zero : Vf := ⟨0, [], 0⟩

/-- A client link's window registers (R327). -/
structure Window where
  base : DWord
  len  : DWord
  ctl  : Word
  deriving DecidableEq, Repr

/-- A link's window at reset (log entry 2, DESIGN CHOICE). -/
def Window.zero : Window := ⟨0, 0, 0⟩

/-- What the device answers to a request from a link or the fabric: the bytes asked for or written words' old values, a success
without data, PCIe Unsupported Request (R326), PCIe Completer Abort (R363), or the failure code of a fabric reply (R330, R376). -/
inductive BusAns where
  | data (bs : List Byte)
  | ok
  | unsupported
  | abort
  | failed (code : Code)
  deriving DecidableEq, Repr

/-- The C9 device. -/
structure State where
  /-- power is on (R391) -/
  powered  : Bool
  /-- events and inputs that happen next, in this order (log entry 1, DESIGN CHOICE) -/
  agenda   : List Instr
  /-- the agent whose instruction runs now, and all other agents -/
  cur      : Course
  parked   : List Course
  /-- the word being run, as its trap record would carry it (R356) -/
  word     : BitVec 128
  /-- counter from which free values are drawn (the model's own field, log entry 3, DESIGN CHOICE) -/
  free     : Nat
  /-- numbers of work items, and agents' start numbers (R125) -/
  nextId   : Nat
  nextStart : Nat
  /-- memory by physical address (R146), canonical; an unlisted byte reads 0 (log entry 5, DEDUCED) -/
  mem      : List Host.Cell
  /-- poisoned sectors (R366) and race tags (R140) by physical sector number -/
  poison   : Sparse Bool
  tags     : Sparse RaceTag
  /-- carried releases of memory bytes (R131): first byte, length, carry -/
  rels     : List (Nat × Nat × Carry)
  /-- lines of the bay-cache slices: way w of set x of bay b at key (6144 b + x) × 16 + w (R105) -/
  lines    : Sparse BayLine
  /-- bytes of client memory that a host has written without snooping while a cache holds their sector, and which no agent of the
  device sees before the caches give the sector up (R307) -/
  hostMem  : List Host.Cell
  /-- way pairs gated off by bay, and waking (R119, R120) -/
  waysOff  : Sparse Byte
  waysWake : Sparse Byte
  /-- granule of each local 16 KiB frame (R121, R309) -/
  granule  : Sparse (BitVec 2)
  tlb      : List TlbEntry
  /-- the `CHECKED` attribute of each page (ASID, log2 of its size, number) as a walk saw it last (R140) -/
  attrs    : List ((Nat × Nat × Nat) × Bool)
  walls    : Sparse Wall
  /-- plane p of wall w at key 3w + p -/
  planes   : Sparse Plane
  /-- what a plane record does not show of a streamed-out plane, by the record's address; a plane that the sequencer
  moves by itself is kept whole at 2^60 + 3 × wall + plane -/
  shelf    : Sparse Plane
  dies     : Sparse Die
  /-- shadow map table: entry 16 × yard + k (R262) -/
  shadows  : Sparse Shadow
  /-- last residence of agents that are no longer held, by which scopes go on to judge them (R19) -/
  past     : List (DWord × Spot)
  /-- bay, yard and device barriers, keyed by launch, scope, unit and id (R225) -/
  gbars    : List ((Word × Nat × Nat × Nat) × Barrier)
  launches : List Launch
  /-- the next wall of each bay to be drained (R174), as its number in the bay -/
  rota     : Sparse Nat
  /-- accepted feature word 0 of each function that has accepted one, in the order of the acceptances (R329) -/
  accepted : List (Nat × DWord)
  /-- the internal feature byte of an ASID as it stood when the ASID last had no launch placed or queued (R329) -/
  featBytes : Sparse Byte
  queues   : Sparse LQueue
  /-- event codes of the counters, that of counter i of wall w at 16w + i, as the table was read last (R348) -/
  ctrCodes : Sparse Byte
  /-- device-held special registers by index (R300) -/
  dregs    : Sparse Word
  /-- performed atomic keys: unit, identity, number, results (R388) -/
  keys     : List (Nat × DWord × Nat × List DWord)
  /-- device number in the site, and whether the site fabric is up (R22) -/
  did      : Nat
  fabric   : Bool
  monitor  : Monitor
  sessions : List Session
  /-- messages sent to debug clients, oldest first -/
  outbox   : List DbgMsg
  vfs      : Sparse Vf
  windows  : Sparse Window
  /-- answers given to bus and fabric requests, oldest first (R151, R326, R330, R363) -/
  busOut   : List BusAns
  /-- peers' requests that a waking bank or a full home directory holds up, by device and address, oldest first (R120, R388) -/
  stalled  : List (Nat × BitVec 52 × BusReq)
  deriving DecidableEq, Repr

/-- Why the machine stops. Every failure the manual gives an instruction or an access is a trap, a record or a
status, which are next states; only this is a stop. Log entry 52, DEDUCED. -/
inductive Fault where
  /-- Raised by `step` when the device has no power and the agenda holds no power-up (R391). Safe: no device step
  takes place without power. -/
  | powerOff
  deriving DecidableEq, Repr

/-- Instructions without a meaning in this model. -/
inductive Refusal where
  /-- Raised by an arm of `exec` that has no meaning yet. Safe: nothing can be proved of what it does. -/
  | notModelled (mnemonic : String)
  deriving DecidableEq, Repr

/-- The device right after power-on reset: nothing bound, nothing placed, boot at its first step (R336), start
numbers from 1 (R125); the values the manual does not state are those of log entry 2, DESIGN CHOICE. -/
def State.reset : State :=
  { powered := true, agenda := [], cur := Course.nobody, parked := [], word := 0, free := 0, nextId := 0,
    nextStart := 1, mem := [], poison := [], tags := [], rels := [], lines := [], hostMem := [], waysOff := [], waysWake := [],
    granule := [], tlb := [], attrs := [], walls := [], planes := [], shelf := [], dies := [], shadows := [], past := [], gbars := [], launches := [], rota := [], accepted := [], featBytes := [],
    queues := [], ctrCodes := [], dregs := [], keys := [], did := 0, fabric := false, monitor := Monitor.zero,
    sessions := [], outbox := [], vfs := [], windows := [], busOut := [], stalled := [] }

end Sys2Proof.Machine
end

