-- ==== Sys2Proof/Machine/Ops.lean ====
section
/-! DEFINITION. The named operations over tables, memory, registers and agents that every meaning is built from:
register writes and commits (R35), taking a trap in a course (R353) and on a system core (R302, R358), returning from
one (R302), raising an event (R305). -/

namespace Sys2Proof.Machine

/-! Tables. -/

/-- The value at key `k`, `d` where none is listed. -/
def Sparse.get {β : Type} (m : Sparse β) (k : Nat) (d : β) : β :=
  match m with
  | [] => d
  | e :: r => if e.1 = k then e.2 else Sparse.get r k d

/-- The table with an entry at key `k`, kept in rising key order. -/
def Sparse.put {β : Type} (m : Sparse β) (k : Nat) (x : β) : Sparse β :=
  match m with
  | [] => [(k, x)]
  | e :: r => if e.1 = k then (k, x) :: r else if k < e.1 then (k, x) :: e :: r else e :: Sparse.put r k x

/-- The table without any entry at key `k`. -/
def Sparse.del {β : Type} (m : Sparse β) (k : Nat) : Sparse β := m.filter (fun e => e.1 != k)

/-- The table with value `x` at key `k`, where `d` is what an unlisted key reads as. -/
def Sparse.set {β : Type} [DecidableEq β] (m : Sparse β) (k : Nat) (x d : β) : Sparse β :=
  if x = d then Sparse.del m k else Sparse.put m k x

/-- The canonical form: keys strictly rising, no entry equal to what an unlisted key reads as. -/
def Sparse.wf {β : Type} [DecidableEq β] (m : Sparse β) (d : β) : Bool :=
  match m with
  | [] => true
  | [e] => e.2 != d
  | e :: f :: r => e.2 != d && e.1 < f.1 && Sparse.wf (f :: r) d

/-! Bytes of memory (R3, R146). -/

/-- The byte at a physical address; an unlisted byte reads 0 (log entry 5, DEDUCED). -/
def State.byte (s : State) (a : Nat) : Byte := Sparse.get s.mem a 0

/-- Memory's canonical form. -/
def Memory.wf (m : List Host.Cell) : Bool := Sparse.wf m (0 : Byte)

/-- Memory with the bytes `bs` from address `a` on. -/
def Memory.store (m : List Host.Cell) (a : Nat) : List Byte → List Host.Cell
  | [] => m
  | b :: r => Memory.store (Sparse.set m a b 0) (a + 1) r

/-- The state with the bytes `bs` stored from physical address `a` on. -/
def State.store (s : State) (a : Nat) (bs : List Byte) : State := { s with mem := Memory.store s.mem a bs }

/-- The `n` bytes from physical address `a` on. -/
def State.load (s : State) (a n : Nat) : List Byte := (List.range n).map (fun i => s.byte (a + i))

/-- The little-endian number of the `n` bytes from physical address `a` on (R3). -/
def State.loadNat (s : State) (a n : Nat) : Nat := ofBytesLE (s.load a n)

/-- The state with the `n` low bytes of a number stored little-endian from physical address `a` on (R3). -/
def State.storeNat (s : State) (a n x : Nat) : State := s.store a (bytesLE n x)

/-! Walls, planes, dies. -/

/-- Logical wall `w`. -/
def State.wall (s : State) (w : Nat) : Wall := Sparse.get s.walls w Wall.zero
/-- The state with logical wall `w` replaced. -/
def State.setWall (s : State) (w : Nat) (x : Wall) : State := { s with walls := Sparse.set s.walls w x Wall.zero }
/-- Plane `p` of wall `w`. -/
def State.plane (s : State) (w p : Nat) : Plane := Sparse.get s.planes (3 * w + p) Plane.zero
/-- The state with plane `p` of wall `w` replaced. -/
def State.setPlane (s : State) (w p : Nat) (x : Plane) : State :=
  { s with planes := Sparse.set s.planes (3 * w + p) x Plane.zero }
/-- Die `d`. -/
def State.die (s : State) (d : Nat) : Die := Sparse.get s.dies d Die.zero
/-- The state with die `d` replaced. -/
def State.setDie (s : State) (d : Nat) (x : Die) : State := { s with dies := Sparse.set s.dies d x Die.zero }

/-- The bay of a wall (R12). -/
abbrev bayOf (w : Nat) : Nat := w / 4
/-- The yard of a wall (R12). -/
abbrev yardOf (w : Nat) : Nat := w / 12
/-- The die of a wall (R12). -/
abbrev dieOf (w : Nat) : Nat := w / 48

/-- The die an agent stands on: of its wall, or of its core (R8, R300). -/
def Course.die (c : Course) : Nat :=
  match c.sys with
  | some y => y.core / 4
  | none => dieOf c.wall

/-- The cycles of a die's clock (R4). -/
def State.cycleOf (s : State) (d : Nat) : Nat := (s.die d).cycle

/-- The cycle in which the focused agent stands: of its own die's clock (R4). -/
def State.cycle (s : State) : Nat := s.cycleOf s.cur.die

/-- The count of a die's counter (R4). -/
def State.count (s : State) (d : Nat) : DWord := (s.die d).cnt

/-- The count an agent reads: of its own die. -/
def State.now (s : State) : DWord := s.count s.cur.die

/-- A free number, and the state that has drawn it (log entry 3, DESIGN CHOICE). -/
def State.draw (s : State) : Nat × State := (Config.freeNat s.free, { s with free := s.free + 1 })

/-- A free bit, and the state that has drawn it (log entry 3, DESIGN CHOICE). -/
def State.drawBit (s : State) : Bool × State := (Config.freeBit s.free, { s with free := s.free + 1 })

/-! Counters (R348). -/

/-- An event is counted on a wall: every counter that the event-code table sets to this code advances, modulo 2^32. -/
def State.countEvent (s : State) (w code n : Nat) : State :=
  let ks := (List.range 16).filter (fun i => (Sparse.get s.ctrCodes (16 * w + i) 0).toNat = code)
  if ks = [] ∨ n = 0 ∨ code = 0 ∨ 15 < code then s
  else
    let x := s.wall w
    s.setWall w { x with counters := ks.foldl (fun t i =>
      Sparse.set t i (Sparse.get t i 0 + BitVec.ofNat 32 n) 0) x.counters }

/-- The state with launch n changed. -/
def State.modLaunch (s : State) (n : Nat) (f : Launch → Launch) : State :=
  { s with launches := s.launches.modify n f }

/-! Agents. -/

/-- The state with the focused agent changed. -/
def State.modC (s : State) (f : Course → Course) : State := { s with cur := f s.cur }

/-- The state with every agent changed. -/
def State.modAll (s : State) (f : Course → Course) : State := { s with cur := f s.cur, parked := s.parked.map f }

/-- All agents. -/
def State.agents (s : State) : List Course := s.cur :: s.parked

/-- The agents with `x` in the place of the first one that `q` picks; what was there. -/
def swapOut (q : Course → Bool) (x : Course) : List Course → Option (Course × List Course)
  | [] => none
  | c :: r => if q c then some (c, x :: r) else (swapOut q x r).map (fun e => (e.1, c :: e.2))

/-- The state focused on the first agent that `q` picks; none when there is no such agent. -/
def State.focusBy (s : State) (q : Course → Bool) : Option State :=
  if q s.cur then some s
  else (swapOut q s.cur s.parked).map (fun e => { s with cur := e.1, parked := e.2 })

/-- The state focused on the agent of an identity (R125). -/
def State.focus (s : State) (who : DWord) : Option State := s.focusBy (fun c => c.ident == who)

/-- The state focused on system core `n`. -/
def State.focusCore (s : State) (n : Nat) : Option State :=
  s.focusBy (fun c => match c.sys with | some y => y.core == n | none => false)

/-- The state with the agents that `q` picks changed. -/
def State.modWhere (s : State) (q : Course → Bool) (f : Course → Course) : State :=
  s.modAll (fun c => if q c then f c else c)

/-! Masks and threads (R23, R24). -/

/-- The threads of a mask, in rising order. -/
def threads (m : Mask) : List Nat := (List.range 96).filter (fun t => m.getLsbD t)

/-- Thread t as a mask. -/
def bitMask (t : Nat) : Mask := BitVec.ofNat 96 (2 ^ t)

/-- The mask of the threads of a list. -/
def maskOf (l : List Nat) : Mask := l.foldl (fun m t => m ||| bitMask t) 0

/-- The mask of threads 0 to n - 1. -/
def firstThreads (n : Nat) : Mask := BitVec.ofNat 96 (2 ^ n - 1)

/-- Word k of a mask (R24). -/
def maskWord (m : Mask) (k : Nat) : Word := m.extractLsb' (32 * k) 32

/-- The mask of three words. -/
def ofMaskWords (a b c : Word) : Mask := (c ++ b ++ a : BitVec 96)

/-! Registers (R27). -/

/-- `S(n)`: `s0` reads zero (R27). -/
def Course.S (c : Course) (n : Nat) : Word := if n = 0 then 0 else Sparse.get c.s n 0
/-- `S64(n)`, with n even (R27). -/
def Course.S64 (c : Course) (n : Nat) : DWord := pair64 (c.S n) (c.S (n + 1))
/-- `W(n)`: `w0` reads zero (R27). -/
def Course.W (c : Course) (n : Nat) : Word := if n = 0 then 0 else Sparse.get c.w n 0
/-- Register `v`n of thread t, for a general register. -/
def Course.V (c : Course) (t n : Nat) : Word := Sparse.get c.v (96 * n + t) 0
/-- Predicate n as a mask: `p0` reads true for every thread (R27). -/
def Course.P (c : Course) (n : Nat) : Mask := if n = 0 then BitVec.allOnes 96 else Sparse.get c.p n 0
/-- Element e of `q`n of thread t. -/
def Course.Q (c : Course) (t n e : Nat) : Word := Sparse.get c.qe (36 * (96 * n + t) + e) 0
/-- The shape tag of `q`n of thread t, (0, 0) for an unshaped one (R285). -/
def Course.shape (c : Course) (t n : Nat) : Nat := Sparse.get c.qs (96 * n + t) 0
/-- Translation register n. -/
def Course.B (c : Course) (n : Nat) : BReg := Sparse.get c.b n BReg.zero
/-- The count of flag n. -/
def Course.flag (c : Course) (n : Nat) : Nat := Sparse.get c.flags n 0
/-- Queue n. -/
def Course.queue (c : Course) (n : Nat) : List QSlot := Sparse.get c.queues n []
/-- The activity mask (R24). -/
def Course.mask (c : Course) : Mask := ofMaskWords (c.W 29) (c.W 30) (c.W 31)

/-- The state with queue n of a course replaced. -/
def Course.setQueue (c : Course) (n : Nat) (q : List QSlot) : Course :=
  { c with queues := Sparse.set c.queues n q [] }
/-- The course with the count of flag n changed. -/
def Course.setFlag (c : Course) (n x : Nat) : Course := { c with flags := Sparse.set c.flags n x 0 }

/-- The saved mask of the topmost meld entry that holds one (R74). -/
def topSaved : List MeldEntry → Option Mask
  | [] => none
  | .suspend _ :: r => topSaved r
  | .meld saved _ _ _ :: _ => some saved
  | .loop saved _ _ _ :: _ => some saved
  | .pair saved _ _ _ _ :: _ => some saved

/-- The partition (R64): the meld stack is kept top first. -/
def partition : List MeldEntry → Option Mask
  | .meld _ faceA _ _ :: _ => some faceA
  | .loop _ faceA _ _ :: _ => faceA
  | _ => none

/-- What may stand in the mask: the live threads, within the topmost saved mask (R24, R74). -/
def Course.maskBound (c : Course) : Mask := c.live &&& (topSaved c.meld).getD (BitVec.allOnes 96)

/-- Threads move into the exited set: their mask bits fall to zero at once, and the compute stream ends when no thread is
live (R24, R38); with it the one stream of a unified course (R196). -/
def Course.exitThreads (c : Course) (m : Mask) : Course :=
  let live := c.live &&& ~~~m
  let cut (w : Sparse Word) (k : Nat) : Sparse Word :=
    Sparse.set w (29 + k) (Sparse.get w (29 + k) 0 &&& maskWord live k) 0
  { c with live := live, w := [0, 1, 2].foldl cut c.w, endC := c.endC || live == 0,
           endA := c.endA || (c.unified && live == 0) }

/-- Whether element e of a register lies in a shape: rows in [5:3], columns in [2:0] (R165, R285). -/
def inShape (tag e : Nat) : Bool := e / 6 < tag / 8 && e % 6 < tag % 8

/-- Word k of the completion-record slots as it is kept: bits [31:24] and [15:11] of a slot's word 0 are zero (R5, R114). -/
def recordWord (k : Nat) (x : Word) : Word := if k % 4 = 0 then x &&& 0x00FF07FF#32 else x

/-- One register write takes effect (R24, R27, R31, R74). An element outside its register's shape is +0 whatever is written (R285).
A result still in flight when its thread exits commits to that thread's register as to any other (R23, R35; log entry 79, DEDUCED).
An `SWR` to a completion-record slot sets no event bit (R227; log entry 134, DESIGN CHOICE). -/
def Course.write (c : Course) : RegWrite → Course
  | .s n x => if n = 0 then c else { c with s := Sparse.set c.s n x 0 }
  | .w n x =>
      if n = 0 then c
      else { c with w := Sparse.set c.w n (if 29 ≤ n then x &&& maskWord c.maskBound (n - 29) else x) 0 }
  | .v n t x => { c with v := Sparse.set c.v (96 * n + t) x 0 }
  | .p n sel val => if n = 0 then c else { c with p := Sparse.set c.p n ((c.P n &&& ~~~sel) ||| (val &&& sel)) 0 }
  | .qe n t e x => { c with qe := Sparse.set c.qe (36 * (96 * n + t) + e) (if inShape (c.shape t n) e then x else 0) 0 }
  | .qs n t shape =>
      { c with qs := Sparse.set c.qs (96 * n + t) shape 0,
               qe := c.qe.filter (fun e => e.1 / 36 != 96 * n + t || inShape shape (e.1 % 36)) }
  | .push q tag e =>
      c.setQueue q ((c.queue q).map (fun slot => if slot.id = tag then { slot with data := some e } else slot))
  | .b n r => { c with b := Sparse.set c.b n r BReg.zero }
  | .record k x => { c with recs := Sparse.set c.recs k (recordWord k x) 0 }
  | .meld st => { c with meld := st }
  | .recon st => { c with recon := st }
  | .exit m => c.exitThreads m

/-- The three words of a mask write. -/
def maskWrites (m : Mask) : List RegWrite := [.w 29 (maskWord m 0), .w 30 (maskWord m 1), .w 31 (maskWord m 2)]

/-- What is left of an earlier-issued write once a later-issued one has taken effect: the later one stands (R35). -/
def RegWrite.after (later : RegWrite) (w : RegWrite) : Option RegWrite :=
  match later, w with
  | .s n _, .s m x => if n = m then none else some (.s m x)
  | .w n _, .w m x => if n = m then none else some (.w m x)
  | .v n t _, .v m u x => if n = m ∧ t = u then none else some (.v m u x)
  | .p n sel _, .p m sel' val =>
      if n = m then (if sel' &&& ~~~sel = 0 then none else some (.p m (sel' &&& ~~~sel) val)) else some (.p m sel' val)
  | .qe n t e _, .qe m u f x => if n = m ∧ t = u ∧ e = f then none else some (.qe m u f x)
  | .qs n t _, .qs m u x => if n = m ∧ t = u then none else some (.qs m u x)
  | .record n _, .record m x => if n = m then none else some (.record m x)
  | .b n _, .b m x => if n = m then none else some (.b m x)
  | _, w => some w

/-- What is left of an earlier-issued write after all writes of a later-issued instruction. -/
def RegWrite.afterAll (later : List RegWrite) (w : RegWrite) : Option RegWrite :=
  later.foldl (fun o l => o.bind l.after) (some w)

/-- The `s` register that a work item will write at its completion, its value being found then (R265, R282). -/
def Act.dest : Act → Option Nat
  | .chute _ _ _ _ rd _ => some rd
  | .snapc _ rd _ => some rd
  | _ => Option.none

/-- A work item that writes no `s` register at its completion. -/
def Act.noDest : Act → Act
  | .chute plane ch op n _ after => .chute plane ch op n 0 after
  | .snapc launch _ close => .snapc launch 0 close
  | a => a

/-- What an earlier-issued item still has to do after all writes of a later-issued instruction: a result for a register that the later
one has written is discarded (R35). -/
def Act.after (later : List RegWrite) (a : Act) : Act :=
  if later.any (fun w => match w with | .s n _ => a.dest == some n | _ => false) then a.noDest else a

/-- The register results of a work item commit (R35): they are written, and earlier-issued work of the stream loses
its writes to the same registers. The item keeps no writes. -/
def Course.commitWrites (c : Course) (k : Work) : Course :=
  let c' := k.writes.foldl Course.write c
  { c' with work := c'.work.map (fun o =>
      if o.id = k.id then { o with writes := [] }
      else if o.id < k.id ∧ o.stream = k.stream ∧ k.writes ≠ [] then
        { o with writes := o.writes.filterMap (RegWrite.afterAll k.writes), act := o.act.after k.writes }
      else o) }

/-- The event bit is set (R227); a stream that `WFE` holds goes on with the bit clear. -/
def Course.setEvent (c : Course) : Course :=
  if c.hold = .wfe then { c with hold := .none, event := false } else { c with event := true }

/-- `Signal(f)`: one operation pending on the flag completes (R34); a flag that falls to zero sets the event bit
(R227). -/
def Course.signal (c : Course) (sig : Option Nat) : Course :=
  match sig with
  | some f => let c' := c.setFlag f (c.flag f - 1); if c.flag f = 1 then c'.setEvent else c'
  | none => c

/-- A work item completes: its results commit, its flag falls, and it is gone (R34, R35). -/
def Course.finish (c : Course) (k : Work) : Course :=
  let c' := (c.commitWrites k).signal k.sig
  { c' with work := c'.work.filter (fun o => o.id != k.id) }

/-- The work item of a number. -/
def Course.workOf (c : Course) (id : Nat) : Option Work := c.work.find? (fun k => k.id == id)

/-! Program counters and streams (R30, R181, R196, R198). -/

/-- The stream an instruction of a course runs in: a unified course has one stream (R196). -/
def Course.streamOf (c : Course) (aFormat : Bool) : Stream := if aFormat && !c.unified then .addr else .comp

/-- The program counter of a stream. -/
def Course.pc (c : Course) : Stream → DWord
  | .addr => c.pcA
  | .comp => c.pcC

/-- The course with the program counter of a stream set. -/
def Course.setPc (c : Course) (st : Stream) (x : DWord) : Course :=
  match st with
  | .addr => { c with pcA := x }
  | .comp => { c with pcC := x }

/-- The comparison that a stream of a redundant pair is in (R387). -/
def Course.pair (c : Course) : Stream → Pair
  | .addr => c.pairA
  | .comp => c.pairC

/-- The course with the comparison of a stream set. -/
def Course.setPair (c : Course) (st : Stream) (p : Pair) : Course :=
  match st with
  | .addr => { c with pairA := p }
  | .comp => { c with pairC := p }

/-- Whether a pair's first member has issued a stream's next word already, and the match is to come (R387). -/
def Course.pairHeld (c : Course) (st : Stream) : Bool := c.twin.isSome && (c.pair st).since.isSome && !(c.pair st).matched

/-- Bytes in a word of a stream (R181, R198). -/
def Course.wordBytes (c : Course) : Stream → Nat
  | .addr => 8
  | .comp => if c.w6 then 8 else 16

/-- Whether an address is no word address of a stream (R181). -/
def Course.misaligned (c : Course) (st : Stream) (x : DWord) : Bool := x.toNat % c.wordBytes st != 0

/-- The address of the word after the next one to issue. Log entry 45, DEDUCED. -/
def Course.nextPc (c : Course) (st : Stream) : DWord := c.pc st + BitVec.ofNat 64 (c.wordBytes st)

/-- Whether a stream has ended (R38, R196). -/
def Course.ended (c : Course) : Stream → Bool
  | .addr => c.endA
  | .comp => c.endC

/-- The privilege level of an agent (R297). -/
def Course.level (c : Course) : Nat :=
  match c.sys with
  | some y => y.lvl.toNat
  | none => 0

/-- The ASID an agent translates through: its own, or that of `ASIDR` (R297). -/
def Course.space (c : Course) : Nat :=
  match c.sys with
  | some y => y.asidr.toNat % 2048
  | none => c.asid

/-! Notices to debug clients (R339, R341). -/

/-- The joined name of an agent, for the whole course (R339). -/
def Course.joinedName (c : Course) : Nat :=
  match c.sys with
  | some y => c.space * 2 ^ 117 + 2 ^ 115 + y.core * 2 ^ 64 + 0xFFFFFFFF
  | none => c.space * 2 ^ 117 + c.lid.toNat * 2 ^ 64 + c.cid.toNat * 2 ^ 32 + 0xFFFFFFFF

/-- The open session of an ASID (R338). -/
def State.sessionOf (s : State) (asid : Nat) : Option Session := s.sessions.find? (fun x => x.proven && x.asid == asid)

/-- The monitor sends a `NOTE` about an agent to the session of its ASID, if one is open (R341): reasons 1 breakpoint, 2
step done, 3 trap, 4 course retired, 5 trace overflow. -/
def State.note (s : State) (c : Course) (reason : Nat) (pc : DWord) : State :=
  match s.sessionOf c.space with
  | none => s
  | some x =>
    { s with outbox := s.outbox ++ [⟨x.conn, 0x40, 0, 0, bytesLE 16 c.joinedName ++ bytesLE 8 reason ++ bytesLE 8 pc.toNat⟩] }

/-! Traps. -/

/-- What a trap reports beside the course's own state (R356). -/
structure Trp where
  code   : Code
  detail : DWord := 0
  fmask  : Mask := 0
  other  : DWord := 0
  otherRc : DWord := 0
  rc     : DWord := 0
  /-- the recorded program counter is that of the next instruction (R303) -/
  after  : Bool := false
  deriving DecidableEq, Repr

/-- Kind of a meld entry (R76). -/
def MeldEntry.kind : MeldEntry → Nat
  | .meld _ _ _ _ => 0
  | .loop _ _ _ _ => 1
  | .suspend _ => 2
  | .pair _ _ _ _ _ => 3

/-- The faces whose threads faulted: bit 0 face A, bit 1 face B; none in an unmelded course (R356, R359). -/
def facesAt (part : Option Mask) (fmask : Mask) : BitVec 2 :=
  match part with
  | none => 0
  | some fa => (if fmask &&& fa = 0 then 0 else 1) ||| (if fmask &&& ~~~fa = 0 then 0 else 2)

/-- The trap of a course, as its record will say it (R356). -/
def Course.trapInfo (c : Course) (st : Stream) (word : BitVec 128) (tick : DWord) (t : Trp) : TrapInfo :=
  { code := t.code, stream := st, pc := if t.after then c.nextPc st else c.pc st, word := word, detail := t.detail,
    faces := facesAt (partition c.meld) t.fmask,
    melded := st == .comp && !c.w6 && word.extractLsb' 96 2 == 3,
    fmask := t.fmask, faceA := (partition c.meld).getD 0, active := c.mask, tick := tick,
    other := t.other, otherRc := t.otherRc, rc := t.rc,
    depths := (c.meld.length, (c.meld.head?.map MeldEntry.kind).getD 0, c.recon.length), slot := none }

/-- The trap set entered at a level (R300). -/
def SysRegs.trapSet (y : SysRegs) (l : BitVec 2) : TrapSet := if l = 2 then y.hyp else y.sup

/-- The registers with the trap set of a level replaced. -/
def SysRegs.setTrapSet (y : SysRegs) (l : BitVec 2) (t : TrapSet) : SysRegs :=
  if l = 2 then { y with hyp := t } else { y with sup := t }

/-- The status word that ESAVE and PSTATE share: level in [1:0], interrupt enable in [2] (R301). -/
def statusWord (lvl : BitVec 2) (ie : Bool) : Word := BitVec.ofNat 32 (lvl.toNat + if ie then 4 else 0)

/-- TAKING AN EXCEPTION on a system core: `Enter` of R302. The saved pc, cause, status and level are those of the
entered level; a fault also leaves its detail in `EINFO` (R358). -/
def Course.enter (c : Course) (l : BitVec 2) (cls : Nat) (code : Code) (imm : Nat) (ret : DWord)
    (info : Option Word) : Course :=
  match c.sys with
  | none => c
  | some y =>
    let t := y.trapSet l
    let t' : TrapSet := { t with
      epc := ret, ecause := BitVec.ofNat 32 (imm * 2 ^ 16 + code.toNat * 2 ^ 8 + cls), esave := statusWord y.lvl y.ie,
      einfo := info.getD t.einfo }
    { c with sys := some { y.setTrapSet l t' with lvl := l, ie := false },
             pcA := t.vbase + BitVec.ofNat 64 (0x40 * cls) }

/-- RETURNING FROM AN EXCEPTION: `ERET` of R302, from the trap set of the current level. -/
def Course.eret (c : Course) : Course :=
  match c.sys with
  | none => c
  | some y =>
    let t := y.trapSet y.lvl
    { c with sys := some { y with lvl := t.esave.extractLsb' 0 2, ie := t.esave.getLsbD 2 }, pcA := t.epc }

/-- The level a fault of a system core enters (R358): level 2 for a partition-bounds fault and for any fault raised
at level 2, else level 1. -/
def faultLevel (lvl : BitVec 2) (code : Code) : BitVec 2 := if lvl = 2 ∨ code = 0x05 then 2 else 1

/-- The focused agent's instruction raises a trap: a course trap (R353), whose stream stops at the recorded program
counter, or a fault of a system core (R358). -/
def State.trapAt (s : State) (st : Stream) (t : Trp) : State :=
  let c := s.cur
  match c.sys with
  | some y => { s with cur := c.enter (faultLevel y.lvl t.code) 6 t.code 0 c.pcA (some (lo32 t.detail)) }
  | none =>
    let i := c.trapInfo st s.word s.now t
    let s := if t.code = 0x0B then s.countEvent c.wall 10 1 else s
    { s with cur := { c.setPc st i.pc with trap := some i } }.note c 3 i.pc

/-- A system core that `HALT` holds goes on once a pending event is enabled (R305). -/
def Course.wakeHalt (c : Course) : Course :=
  match c.sys with
  | some y => if c.hold = .halt ∧ y.evpend &&& y.even ≠ 0 then { c with hold := .none } else c
  | none => c

/-- An event bit is set on a system core (R305). -/
def State.raiseEvent (s : State) (core bit : Nat) : State :=
  s.modAll (fun c => match c.sys with
    | some y => if y.core = core then
        Course.wakeHalt { c with sys := some { y with evpend := y.evpend ||| BitVec.ofNat 64 (2 ^ bit) } } else c
    | none => c)

/-- The event an `EVENT` word names: core in [9:6], bit in [5:0] (R305). A word with a bit above them set names none and raises none
(log entry 128, DESIGN CHOICE). -/
def State.raiseEventWord (s : State) (e : Word) : State :=
  if 2 ^ 10 ≤ e.toNat then s else s.raiseEvent (e.toNat / 64) (e.toNat % 64)

end Sys2Proof.Machine
end

