-- ==== Sys2Proof/Machine/Sync.lean ====
section
/-! DEFINITION. Scopes between agents (R18, R19), release and acquire actions with their synchronisation tables (R131,
R133, R141), and the race detector (R140, R142). -/

namespace Sys2Proof.Machine

/-! Who stands where. -/

/-- The kind of an identity: 0 course, 1 Hod channel, 2 system core, 3 client function (R125). -/
def kindOf (who : DWord) : Nat := who.toNat / 2 ^ 62

/-- The identity of an agent of a kind with a start number (R125). Log entry 76, DESIGN CHOICE. -/
def identity (kind start : Nat) : DWord := BitVec.ofNat 64 (kind * 2 ^ 62 + start % 2 ^ 62)

/-- The gang a course is in: its launch and gang number (R266); none for a gang register of size 0. -/
def Course.gangKey (c : Course) : Option (Word × Nat) :=
  if c.gang.toNat / 16 % 16 = 0 then none else some (c.lid, c.gang.toNat / 256 % 256)

/-- The spot of a Hod channel (R19): in its wall, and in the plane that issued the copy it runs or has run last. -/
def State.channelSpot (s : State) (who : DWord) : Spot :=
  match s.walls.find? (fun e => e.2.chans.any (fun h => h.2.ident == who)) with
  | none => {}
  | some e =>
    match e.2.chans.find? (fun h => h.2.ident == who) with
    | some h => { wall := some e.1, plane := h.2.plane }
    | none => {}

/-- The spot of an agent; an agent that is not resident is judged by its last residence (R19). A redundant pair, one agent on two walls, stands
where its first member stands (log entry 20, DESIGN CHOICE). -/
def State.spot (s : State) (who : DWord) : Spot :=
  match s.agents.find? (fun c => c.ident == who) with
  | some c => if c.sys.isSome then {} else { wall := some c.wall, plane := some c.plane, gang := c.gangKey }
  | none => match s.past.find? (fun e => e.1 == who) with
    | some e => e.2
    | none => s.channelSpot who

/-- The state that remembers where an agent it no longer holds resided last (R19). -/
def State.remember (s : State) (c : Course) : State :=
  if c.sys.isSome then s
  else { s with past := s.past.filter (fun e => e.1 != c.ident) ++
                  [(c.ident, { wall := some c.wall, plane := some c.plane, gang := c.gangKey })] }

/-- Whether agent `y` lies in scope `scp` of agent `x` (R18, R19). -/
def State.inScope (s : State) (scp : Nat) (x y : DWord) : Bool :=
  x == y ||
  match scp with
  | 0 => false
  | 1 => false
  | 2 => let p := s.spot x; let q := s.spot y
         p.gang.isSome && p.gang == q.gang && p.wall == q.wall && p.plane == q.plane
  | 3 => let p := s.spot x; let q := s.spot y
         p.wall.isSome && p.plane.isSome && p.wall == q.wall && p.plane == q.plane
  | 4 => let p := (s.spot x).wall.map bayOf; p.isSome && p == (s.spot y).wall.map bayOf
  | 5 => let p := (s.spot x).wall.map yardOf; p.isSome && p == (s.spot y).wall.map yardOf
  | 6 => kindOf y != 3
  | 7 => kindOf y != 3
  | _ => true

/-- Whether an agent is live (R125): a course or core until it retires, a channel while its wall is up, a client
function while its link is. -/
def State.live (s : State) (who : DWord) : Bool :=
  kindOf who == 3 ||
  (kindOf who == 1 && s.walls.any (fun e => e.2.service != .retired && e.2.chans.any (fun h => h.2.ident == who))) ||
  s.agents.any (fun c => c.ident == who && !c.retired)

/-! Release and acquire. -/

/-- The table raised at one identity to a release counter (R141): an entry is inserted or raised, and then stands last,
as the most recently updated. A full table drops its first entry; the dropped identity is given too. A merge with an RC that is not
larger changes nothing and leaves the entry its place: it does not count as an update (log entry 80, DEDUCED). -/
def raiseEntry (t : List (DWord × DWord)) (who rc : DWord) : List (DWord × DWord) × Option DWord :=
  match t.find? (fun e => e.1 == who) with
  | some e => if e.2.toNat < rc.toNat then (t.filter (fun e => e.1 != who) ++ [(who, rc)], none) else (t, none)
  | none =>
    if t.length < 32 then (t ++ [(who, rc)], none)
    else (t.tail ++ [(who, rc)], t.head?.map Prod.fst)

/-- The bit of the drop filter for an identity (R141). -/
def filterBit (who : DWord) : DWord := BitVec.ofNat 64 (2 ^ (who.toNat % 64))

/-- An agent's table raised at one identity; its own entry is never kept (R141, log entry 7, DEDUCED), nor one of no agent (R125). -/
def Sync.raise (y : Sync) (me who rc : DWord) : Sync :=
  if who = me ∨ who = 0 then y
  else match raiseEntry y.table who rc with
    | (t, some d) => { y with table := t, filter := y.filter ||| filterBit d }
    | (t, none) => { y with table := t }

/-- A release action (R131, R141): what it carries, and the counter after it. -/
def Sync.release (y : Sync) (me : DWord) (scope : Nat) : Carry × Sync :=
  (⟨me, scope, y.rc, y.table, y.filter⟩, { y with rc := y.rc + 1 })

/-- An acquire merges what a release carries (R141), the releaser's own entry last. -/
def Sync.acquire (y : Sync) (me : DWord) (c : Carry) : Sync :=
  let y := c.table.foldl (fun y e => y.raise me e.1 e.2) y
  { y.raise me c.who c.rc with filter := (y.raise me c.who c.rc).filter ||| c.filter }

/-- A barrier departure merges the copies of every participant, their own entries last (R141). -/
def Sync.depart (y : Sync) (me : DWord) (cs : List Carry) : Sync :=
  let y := cs.foldl (fun y c =>
    let z := c.table.foldl (fun z e => z.raise me e.1 e.2) y
    { z with filter := z.filter ||| c.filter }) y
  cs.foldl (fun y c => y.raise me c.who c.rc) y

/-- Whether a release synchronises with an acquire by `me` at scope `sy`: each in the other's scope (R132). -/
def State.syncs (s : State) (c : Carry) (me : DWord) (sy : Nat) : Bool :=
  s.inScope c.scope c.who me && s.inScope sy me c.who

/-- A release action of the focused agent: what it carries (R131). -/
def State.releaseC (s : State) (scope : Nat) : Carry × State :=
  let r := s.cur.sync.release s.cur.ident scope
  (r.1, s.modC (fun c => { c with sync := r.2 }))

/-- The focused agent merges a carry. -/
def State.acquireC (s : State) (c : Carry) : State :=
  s.modC (fun me => { me with sync := me.sync.acquire me.ident c })

/-- The focused agent merges a carry if the two scopes allow it (R132). -/
def State.acquireIf (s : State) (c : Carry) (scope : Nat) : State :=
  if s.syncs c s.cur.ident scope then s.acquireC c else s

/-- The releases whose values stand in the `n` bytes from `a` on (R131). -/
def State.relsOn (s : State) (a n : Nat) : List Carry :=
  ((s.rels.filter (fun e => e.1 < a + n && a < e.1 + e.2.1)).map (fun e => e.2.2)).dedup

/-- The releases left once the `n` bytes from `a` on are overwritten by a store that is no read-modify-write. -/
def cutRels (rels : List (Nat × Nat × Carry)) (a n : Nat) : List (Nat × Nat × Carry) :=
  rels.flatMap (fun e =>
    let lo := e.1
    let hi := e.1 + e.2.1
    if hi ≤ a || a + n ≤ lo then [e]
    else (if lo < a then [(lo, a - lo, e.2.2)] else []) ++ (if a + n < hi then [(a + n, hi - (a + n), e.2.2)] else []))

/-- What a load of the `n` bytes from `a` on does for the focused agent's ordering: an acquire or sc load merges the
releases it reads; a relaxed load keeps them for a later acquire fence (R131, R133). -/
def State.syncLoad (s : State) (a n kind scope : Nat) : State :=
  let cs := s.relsOn a n
  if cs = [] then s
  else if kind = 2 ∨ kind = 4 then cs.foldl (fun s c => s.acquireIf c scope) s
  else if kind = 1 then s.modC (fun c => { c with relSeen := (c.relSeen.filter (fun o => !cs.contains o)) ++ cs })
  else s

/-- The releases that one store access carries (R131, R133): a release or sc store is a release at its scope; a relaxed one after
release fences is a release at each fence's scope. -/
def State.carries (s : State) (kind scope : Nat) : List Carry × State :=
  if kind = 3 ∨ kind = 4 then (let r := s.releaseC scope; ([r.1], r.2))
  else if kind = 1 ∧ s.cur.relFences ≠ [] then
    (let r := s.releaseC scope; (s.cur.relFences.map (fun f => { r.1 with scope := f }), r.2))
  else ([], s)

/-- The releases left on the `n` bytes from `a` on by a store: its own, and those it does not end, as a
read-modify-write ends none (R131). -/
def State.layRels (s : State) (cs : List Carry) (a n : Nat) (rmw : Bool) : State :=
  if s.rels = [] ∧ cs = [] then s
  else { s with rels := (if rmw then s.rels else cutRels s.rels a n) ++ cs.map (fun c => (a, n, c)) }

/-- What a store to byte ranges (address, length) does for ordering: the ranges of one sector are one access (R128). -/
def State.syncStores (s : State) (kind scope : Nat) (rmw : Bool) (rs : List (Nat × Nat)) : State :=
  ((rs.map (fun r => r.1 / 32)).dedup).foldl (fun s n =>
    let (cs, s) := s.carries kind scope
    (rs.filter (fun r => r.1 / 32 == n)).foldl (fun s r => s.layRels cs r.1 r.2 rmw) s) s

/-- A fence of the focused agent (R133): acquire part for kinds 2 and 4, release part for kinds 3 and 4. What the fence's scope does not
reach stays for a later, wider fence. -/
def State.fenceC (s : State) (kind scope : Nat) : State :=
  let s := if kind = 2 ∨ kind = 4 then
      (s.cur.relSeen.foldl (fun t c => t.acquireIf c scope) s).modC (fun c =>
        { c with relSeen := c.relSeen.filter (fun o => !s.syncs o c.ident scope) })
    else s
  if kind = 3 ∨ kind = 4 then
    (s.releaseC scope).2.modC (fun c => { c with relFences := c.relFences.filter (· != scope) ++ [scope] })
  else s

/-- A release action of any agent at a scope, by its identity: a unit that is no agent carries nothing of its own (R124, R131). -/
def State.releaseBy (s : State) (who : DWord) (scope : Nat) : Carry × State :=
  match s.agents.find? (fun c => c.ident == who) with
  | some c =>
    let r := c.sync.release who scope
    (r.1, s.modWhere (fun c => c.ident == who) (fun c => { c with sync := r.2 }))
  | none => (⟨who, scope, 0, [], 0⟩, s)

/-- Poison is cleared in the sectors that an access to `n` bytes from `a` on writes whole (R366). -/
def State.cleanseRange (s : State) (a n : Nat) : State :=
  if s.poison = [] then s
  else { s with poison := s.poison.filter (fun e => !(a ≤ 32 * e.1 && 32 * e.1 + 32 ≤ a + n)) }

/-- Bytes stored by a unit of the device: a sector that they fill is no longer poisoned (R366). -/
def State.unitStore (s : State) (a : Nat) (bs : List Byte) : State := (s.cleanseRange a bs.length).store a bs

/-- Bytes stored by a unit of the device as a release of an agent at a scope (R131). -/
def State.releaseStore (s : State) (who : DWord) (scope a : Nat) (bs : List Byte) : State :=
  let (c, s) := s.releaseBy who scope
  (s.unitStore a bs).layRels [c] a bs.length false

/-! Barrier instances (R224, R225, R141). -/

/-- The number of a barrier instance of a scope: its launch, unit and id. -/
def instanceOf (lid : Word) (unit id : Nat) : DWord := BitVec.ofNat 64 (lid.toNat * 2 ^ 32 + unit * 16 + id)

/-- The participants of the last generation of an instance that departed. -/
def State.participants (s : State) (scope : Nat) (inst : DWord) : List DWord :=
  let lid : Word := hi32 inst
  let unit := inst.toNat % 2 ^ 32 / 16
  let id := inst.toNat % 16
  match scope with
  | 2 =>
    (((Sparse.get s.planes (unit / 256) Plane.zero).gbars.find? (fun e => e.1 == (lid, unit % 256, id))).map
      (fun e => e.2.last)).getD []
  | 3 => (Sparse.get (Sparse.get s.planes unit Plane.zero).bars id Barrier.zero).last
  | _ => ((s.gbars.find? (fun e => e.1 == (lid, scope, unit, id))).map (fun e => e.2.last)).getD []

/-- What a course keeps of the barrier instance of a scope that it passed last: the instance, and how many barriers of it (R141, R165). -/
def Course.epochAt (c : Course) (scope : Nat) : DWord × DWord :=
  match c.epochs.find? (fun e => e.1 == scope) with
  | some e => e.2
  | none => (0, 0)

/-- How many barriers of an instance a course has passed (R141). -/
def Course.passed (c : Course) (scope : Nat) (inst : DWord) : DWord :=
  match c.epochs.find? (fun e => e.1 == scope && e.2.1 == inst) with
  | some e => e.2.2
  | none => 0

/-- The course that has passed barriers of an instance up to an epoch: that instance then stands first (R141). -/
def Course.pass (c : Course) (scope : Nat) (inst epoch : DWord) : Course :=
  { c with epochs := (scope, inst, epoch) :: c.epochs.filter (fun e => !(e.1 == scope && e.2.1 == inst)) }

/-- The barrier epoch of an agent at a scope: how many barriers of its instance there it has passed (R141). -/
def State.epochOf (s : State) (who : DWord) (scope : Nat) : DWord :=
  match s.agents.find? (fun c => c.ident == who) with
  | some c => (c.epochAt scope).2
  | none => 0

/-- The smallest scope whose barrier instance has agent `who` and every reader as participants, 15 if none (R142). Log entry 66, DEDUCED. -/
def State.mscpOf (s : State) (who : DWord) (readers : List DWord) : Nat :=
  match s.agents.find? (fun c => c.ident == who) with
  | none => 15
  | some c =>
    ((List.range 10).find? (fun scope =>
        let ps := s.participants scope (c.epochAt scope).1
        ps.contains who && readers.all (fun r => ps.contains r))).getD 15

/-! The race detector. -/

/-- `Ordered(Y, X, rc)` of R142. -/
def State.ordered (s : State) (me : DWord) (y : Sync) (x rc : DWord) : Bool :=
  x == me || !s.live x || y.table.any (fun e => e.1 == x && rc.toNat ≤ e.2.toNat)

/-- `Excused(Y, X)` of R142. -/
def excused (y : Sync) (x : DWord) : Bool :=
  !y.table.any (fun e => e.1 == x) && y.filter &&& filterBit x != 0

/-- `Exempt` of R142. -/
def State.exempt (s : State) (me : DWord) (atm : Bool) (scp : Nat) (x : DWord) (xatm : Bool) (xscp : Nat) : Bool :=
  atm && xatm && s.inScope scp me x && s.inScope xscp x me

/-- The race check of R142 on one sector: the other agent and its RC when the access races. A pair that involves a client function is
not reported (R143). -/
def State.raceOn (s : State) (me : DWord) (y : Sync) (sector : Nat) (write atm : Bool) (scp : Nat) :
    Option (DWord × DWord) :=
  let g := Sparse.get s.tags sector RaceTag.empty
  if kindOf me == 3 then none
  else if g.wv && kindOf g.wagt != 3 && !s.ordered me y g.wagt g.wrc && !excused y g.wagt && !s.exempt me atm scp g.wagt g.watm g.wscp then
    some (g.wagt, g.wrc)
  else if write && g.rv && !g.many && kindOf g.ragt != 3 && !s.ordered me y g.ragt g.rrc && !excused y g.ragt &&
      !s.exempt me atm scp g.ragt g.ratm g.rscp then
    some (g.ragt, g.rrc)
  else none

/-- The tag of a sector after an access that does not race (R142). -/
def State.tagAfter (s : State) (me : DWord) (y : Sync) (g : RaceTag) (write atm : Bool) (scp : Nat) : RaceTag :=
  if write then { g with wagt := me, wrc := y.rc, watm := atm, wscp := scp, wv := true, rv := false, readers := [] }
  else if !g.rv || (!g.many && s.ordered me y g.ragt g.rrc) ||
      (g.many && g.mscp != 15 && g.rrc.toNat < (s.epochOf me g.mscp).toNat) then
    { g with ragt := me, rrc := y.rc, ratm := atm, rscp := scp, many := false, rv := true, readers := [me] }
  else
    let rs := if g.readers.contains me then g.readers else g.readers ++ [me]
    let m := s.mscpOf me rs
    { g with many := true, ragt := 0, ratm := false, mscp := m, rrc := if m = 15 then 0 else s.epochOf me m,
             readers := rs }

/-- The state with the tag of a checked sector updated for an access by `me` (R142). -/
def State.tagged (s : State) (me : DWord) (y : Sync) (sector : Nat) (write atm : Bool) (scp : Nat) : State :=
  let g := s.tagAfter me y (Sparse.get s.tags sector RaceTag.empty) write atm scp
  { s with tags := Sparse.set s.tags sector g RaceTag.empty }

/-- The tags of the sectors that overlap `n` bytes from `a` on are emptied (R140). -/
def State.clearTags (s : State) (a n : Nat) : State :=
  { s with tags := s.tags.filter (fun e => !(32 * e.1 < a + n && a < 32 * e.1 + 32)) }

end Sys2Proof.Machine
end

