-- ==== Sys2Proof/Machine/Issue.lean ====
section
/-! DEFINITION. Issue: when the next word of a stream issues (R33, R183, R40, R196), and what issuing itself does
(R31, R34, R35). Every instruction's meaning goes through `State.issue`. -/

namespace Sys2Proof.Machine

/-- The queue entries an instruction pops and pushes: queues (as `Course.queues` numbers them) with counts. -/
structure QueueUse where
  pops   : List (Nat × Nat) := []
  pushes : List (Nat × Nat) := []
  deriving DecidableEq, Repr

/-- What an issued instruction leaves to do: its latency (none for flag class, R36), the register writes that commit
then, and what its completion does; the cycles after issue between which a flag-class result commits (R249, R295); register
writes that commit at a fixed latency beside a flag-class result (R111, R197), and what that commit is; where the stream goes on (none: at the next word);
how many beats it takes and skips (R25) and how long its front end stays busy (R67). -/
structure Plan where
  lat    : Option Nat
  writes : List RegWrite := []
  act    : Act := .none
  window : Nat × Option Nat := (0, none)
  side   : List RegWrite := []
  sideLat : Nat := 1
  sideAct : Act := .none
  target : Option DWord := none
  beats  : Nat := 1
  skipped : Nat := 0
  busy   : Nat := 0
  deriving DecidableEq, Repr

/-- The outcome of an instruction's own part of its issue: it takes effect, it must wait for a resource, or it traps
with no effect but the reports of the failure that `s` holds. -/
inductive Res where
  | done (s : State) (p : Plan)
  | wait (s : State)
  | trap (s : State) (t : Trp)
  deriving DecidableEq, Repr

/-- The key of a stream's front end in its wall: one of each kind for every lane set (R15). -/
def Course.front (c : Course) (st : Stream) : Nat := match st with | .addr => c.lset | .comp => 4 + c.lset

/-- The cycle after the last issue of a stream (0 before any). -/
def Course.lastIssue (c : Course) : Stream → Option Nat
  | .addr => c.lastA
  | .comp => c.lastC

/-- The cycle before which a resumed stream does not issue: its restored `DIST` count (R42, R165). -/
def Course.rest (c : Course) : Stream → Nat
  | .addr => c.restA
  | .comp => c.restC

/-- Whether no hold keeps the address stream from being ready (R226, R227, R305): each hold is ended by the event that
ends it. -/
def Course.awake (c : Course) : Bool := c.hold == .none

/-- Whether a work item is a request of a stream's next word that a peer will not answer (R376). -/
def Work.unheard (k : Work) (st : Stream) : Bool := k.stream == st && (match k.act with | .lost _ _ _ _ _ => true | _ => false)

/-- Conditions 1 to 3 of R33: the agent may run, `DIST` cycles have passed, and the front end is free. A stream whose next word waits for the
answer of a peer has begun that word already (R376; log entry 24, DESIGN CHOICE). -/
def State.frontReady (s : State) (st : Stream) (dist : Nat) : Bool :=
  let c := s.cur
  let spaced := match c.lastIssue st with | some n => n + max 1 dist ≤ s.cycle | none => c.rest st ≤ s.cycle
  !c.ended st && c.trap.isNone && !c.halted && spaced && !c.work.any (fun k => k.unheard st) &&
  (match c.sys with
   | some _ => c.awake
   | none =>
     c.resident && (s.wall c.wall).service == .inService && (s.plane c.wall c.plane).st == .active &&
     (c.awake || (st == .comp && !c.unified)) &&
     (match st with
      | .addr => (Sparse.get (s.wall c.wall).fronts c.lset (0, 0)).1 ≤ s.cycle
      | .comp => c.holdC ≤ s.cycle && Sparse.get (s.wall c.wall).lanes c.lset 0 ≤ s.cycle))

/-- Condition 4 of R33: every flag named in `WAIT` is zero. -/
def Course.flagsClear (c : Course) (wait : BitVec 12) : Bool :=
  (List.range 12).all (fun f => !wait.getLsbD f || c.flag f == 0)

/-- The first `n` entries of a queue, when all of them are poppable (R31). -/
def Course.heads (c : Course) (q n : Nat) : Option (List QEntry) :=
  let h := (c.queue q).take n
  if h.length = n then h.mapM QSlot.data else none

/-- The stream that pushes a queue, and the one that pops it (R31). -/
def pusher (q : Nat) : Stream := if q < 4 then .addr else .comp
/-- The stream that pops a queue (R31). -/
def popper (q : Nat) : Stream := if q < 4 then .comp else .addr

/-- The queue an instruction can never pop or push (R40), at once so in a unified course (R196). -/
def Course.starved (c : Course) (io : QueueUse) : Option Nat :=
  match io.pops.find? (fun e => (c.queue e.1).length < e.2 && (c.unified || c.ended (pusher e.1))) with
  | some e => some e.1
  | none =>
    (io.pushes.find? (fun e => Config.queueCap < (c.queue e.1).length + e.2 && (c.unified || c.ended (popper e.1)))).map
      Prod.fst

/-- Condition 5 of R33: every popped queue holds poppable entries, every pushed queue has room. -/
def Course.queuesReady (c : Course) (io : QueueUse) : Bool :=
  io.pops.all (fun e => (c.heads e.1 e.2).isSome) &&
  io.pushes.all (fun e => (c.queue e.1).length + e.2 ≤ Config.queueCap)

/-- The flag an instruction signals (R32). -/
def sigFlag (k : Ctl) : Option Nat := if k.sig.toNat ≤ 11 then some k.sig.toNat else none

/-- Whether one more count would pass 63 (R34). -/
def Course.flagFull (c : Course) (sig : Option Nat) : Bool :=
  match sig with
  | some f => 63 ≤ c.flag f
  | none => false

/-- The number of the j-th entry that work `id` reserves in one queue. -/
abbrev pushTag (id j : Nat) : Nat := 4 * id + j

/-- The course after its instruction's pops and reservations (R31). -/
def Course.moveQueues (c : Course) (io : QueueUse) (id : Nat) : Course :=
  let c := io.pops.foldl (fun c e => c.setQueue e.1 ((c.queue e.1).drop e.2)) c
  io.pushes.foldl (fun c e =>
    c.setQueue e.1 (c.queue e.1 ++ (List.range e.2).map (fun j => QSlot.mk (pushTag id j) none))) c

/-- The work items of an issued instruction; none when nothing is left to do. -/
def Plan.work (p : Plan) (id cycle : Nat) (st : Stream) (sig : Option Nat) : List Work :=
  (if p.writes = [] ∧ sig = none ∧ p.act = .none then []
   else [{ id := id, stream := st, due := p.lat.map (cycle + ·), early := cycle + p.window.1,
           late := p.window.2.map (cycle + ·), sig := sig, writes := p.writes, act := p.act }]) ++
  (if p.side = [] ∧ p.sideAct = .none then []
   else [{ id := id + 1, stream := st, due := some (cycle + p.sideLat), early := cycle + p.sideLat, late := none,
           sig := none, writes := p.side, act := p.sideAct }])

/-- The course once its instruction has issued: its queues moved, its flag raised (R34), its work in flight (R35), its
program counter on its way. Log entry 54, DEDUCED. -/
def Course.issued (c : Course) (st : Stream) (sig : Option Nat) (io : QueueUse) (p : Plan) (id cycle : Nat) : Course :=
  let c := c.moveQueues io id
  let c := match sig with | some f => c.setFlag f (c.flag f + 1) | none => c
  let c := { c with work := c.work ++ p.work id cycle st sig }
  let c := c.setPc st (p.target.getD (c.nextPc st))
  match st with
  | .addr => { c with lastA := some cycle, ageA := 0 }
  | .comp => { c with lastC := some cycle, ageC := 0, holdC := cycle + p.busy }

/-- The wall once a course of it has issued: the front end has issued in this cycle and chose this slot (R15, R41);
a compute instruction holds the lane set, for every course of it, for its beats (R25) and while its front end stays busy (R67). -/
def Wall.issued (w : Wall) (c : Course) (st : Stream) (beats cycle : Nat) : Wall :=
  let w := { w with fronts := Sparse.set w.fronts (c.front st) (cycle + 1, c.slot + 1) (0, 0) }
  match st with
  | .addr => w
  | .comp => { w with lanes := Sparse.set w.lanes c.lset (cycle + max 1 beats) 0 }

/-- A sum that saturates at 2^64 - 1 (R350). -/
def satAdd (x : DWord) (n : Nat) : DWord := BitVec.ofNat 64 (min (2 ^ 64 - 1) (x.toNat + n))

/-- The place that the second member of a redundant pair has (R386). -/
def Course.second (c : Course) : Option (Nat × Nat) := if c.twinOut then none else c.twin

/-- The walls on which a course runs: its own, and that of the second member of a pair (R386). -/
def Course.runsOn (c : Course) : List Nat := c.wall :: (c.second.map Prod.fst).toList

/-- What a launch notes of an issue (R174, R350): the tick of the last instruction on each wall that runs it, and the issue
cycles. -/
def Launch.noted (l : Launch) (ws : List (Nat × DWord)) (st : Stream) (beats : Nat) : Launch :=
  let l := { l with ran := ws.foldl (fun (r : Sparse DWord) (e : Nat × DWord) => Sparse.put r e.1 e.2) l.ran }
  match st with
  | .addr => { l with cycA := satAdd l.cycA 1 }
  | .comp => { l with cycC := satAdd l.cycC (max 1 beats) }

/-- What the counters and the launch of the focused course note of an issue (R348, R350). -/
def State.account (s : State) (st : Stream) (p : Plan) : State :=
  let c := s.cur
  let melded := st == .comp && !c.w6 && s.word.extractLsb' 96 2 == 3
  let s := match st with
    | .addr => s.countEvent c.wall 1 1
    | .comp => (((s.countEvent c.wall 2 1).countEvent c.wall 3 p.beats).countEvent c.wall 4 p.skipped).countEvent c.wall 12
        (if melded then 1 else 0)
  s.modLaunch c.launch (fun l => l.noted (c.runsOn.map (fun w => (w, s.count (dieOf w)))) st p.beats)

/-- The state once the focused agent's instruction has issued. -/
def State.issued (s : State) (st : Stream) (sig : Option Nat) (io : QueueUse) (p : Plan) : State :=
  let c := s.cur
  let s := { s with cur := c.issued st sig io p s.nextId s.cycle, nextId := s.nextId + 2 }
  match c.sys with
  | some _ => s
  | none => (s.setWall c.wall ((s.wall c.wall).issued c st (max p.beats p.busy) s.cycle)).account st p

/-- An instruction that waits on the flag of a copy or a page request and finds it zero acquires what its completion released
(R131, R283). -/
def State.waited (s : State) (wait : BitVec 12) : State :=
  let rs := s.cur.copyRels.filter (fun e => wait.getLsbD e.1)
  if rs = [] then s
  else (rs.foldl (fun s e => s.acquireIf e.2 e.2.scope) s).modC (fun c =>
    { c with copyRels := c.copyRels.filter (fun e => !wait.getLsbD e.1) })

/-- ISSUE of one instruction as the next word of its stream. Conditions 1 to 3 of R33 come first; then the checks of
R183 that depend on the present state (`pre`); then the flags, a cancelled engine operation that the word waits on (R367),
the queues (R33, R40), the flag count (R34), and the instruction's own part. Until it may issue, the state stands. Log entry 53, DEDUCED. The queue-starved
trap that R196 raises at once in a unified course comes once the word's flags are zero too (log entry 122, DESIGN CHOICE). -/
def State.issue (s : State) (aFormat : Bool) (k : Ctl) (io : QueueUse) (pre : Option Code) (body : State → Res) : State :=
  let st := s.cur.streamOf aFormat
  if !s.frontReady st k.dist.toNat then s
  else match pre with
    | some code => s.trapAt st { code := code }
    | none =>
      if !s.cur.flagsClear k.wait then s
      else if s.cur.cancelled.any (fun f => k.wait.getLsbD f) then
        (s.modC (fun c => { c with cancelled := c.cancelled.filter (fun f => !k.wait.getLsbD f) })).trapAt st { code := 0x43 }
      else match s.cur.starved io with
        | some q => s.trapAt st { code := 0x67, detail := BitVec.ofNat 64 q }
        | none =>
          if !s.cur.queuesReady io then s
          else if s.cur.flagFull (sigFlag k) then s.trapAt st { code := 0x6A }
          else match body (s.waited k.wait) with
            | .wait s' => s'
            | .trap s' t => s'.trapAt st t
            | .done s' p => s'.issued st (sigFlag k) io p

/-- The result of an instruction of an agent. -/
abbrev Out := Host.Outcome State Fault Refusal

/-- The first code of a list of checks. -/
def firstCode : List (Bool × Code) → Option Code
  | [] => none
  | (true, e) :: _ => some e
  | (false, _) :: r => firstCode r

/-- An A-format instruction that any agent may run. -/
def execA (k : Ctl) (body : State → Res) (s : State) : Out := .next (s.issue true k {} none body)

/-- An A-format instruction that is illegal on every system core (R298). -/
def execCourse (k : Ctl) (io : QueueUse) (body : State → Res) (s : State) : Out :=
  .next (s.issue true k io (firstCode [(s.cur.sys.isSome, 0x64)]) body)

/-- An A-format instruction that is illegal in a course and below a level of a system core (R298). -/
def execPriv (k : Ctl) (least : Nat) (body : State → Res) (s : State) : Out :=
  .next (s.issue true k {} (firstCode [(s.cur.sys.isNone || s.cur.level < least, 0x64)]) body)

/-- An instruction that writes registers at a fixed latency and touches nothing else. -/
def regs (lat : Nat) (ws : List RegWrite) (s : State) : Res := .done s { lat := some lat, writes := ws }

/-- The two writes of a pair (R202): pair 0 drops its low half. -/
def pairWrites (rd : Nat) (x : DWord) : List RegWrite := [.s rd (lo32 x), .s (rd + 1) (hi32 x)]

end Sys2Proof.Machine
end

