-- ==== Sys2Proof/Machine/Flags.lean ====
section
/-! DEFINITION. Conditions (R187) and integer arithmetic of the two streams (R203 to R206, R234). The C9 has no
condition flags: a comparison's result is a register or a predicate. -/

namespace Sys2Proof.Machine

/-- The condition codes of R187. -/
def cond (code : Nat) (x y : Word) : Bool :=
  match code with
  | 0 => x == y
  | 1 => x != y
  | 2 => x.toInt < y.toInt
  | 3 => y.toInt ≤ x.toInt
  | 4 => x.toNat < y.toNat
  | 5 => y.toNat ≤ x.toNat
  | 6 => y.toInt < x.toInt
  | 7 => x.toInt ≤ y.toInt
  | 8 => y.toNat < x.toNat
  | 9 => x.toNat ≤ y.toNat
  | _ => true

/-- `SHL`: 0 for a count of 32 to 63 (R204). -/
def shlW (x : Word) (n : Nat) : Word := if 32 ≤ n then 0 else x <<< n
/-- `SHR`: 0 for a count of 32 to 63 (R204). -/
def shrW (x : Word) (n : Nat) : Word := if 32 ≤ n then 0 else x >>> n
/-- `SAR`: the sign for a count of 32 to 63 (R204). -/
def sarW (x : Word) (n : Nat) : Word := x.sshiftRight (min n 31)

/-- The high half of a signed product (R203). -/
def mulhS (x y : Word) : Word := BitVec.ofInt 32 ((x.toInt * y.toInt) / 2 ^ 32)
/-- The high half of an unsigned product (R203). -/
def mulhU (x y : Word) : Word := BitVec.ofNat 32 ((x.toNat * y.toNat) / 2 ^ 32)

/-- `DIV`: truncated toward zero; all ones by zero; 0x80000000 by -1 is itself (R204). -/
def divS (x y : Word) : Word := if y = 0 then 0xFFFFFFFF#32 else BitVec.ofInt 32 (x.toInt.tdiv y.toInt)
/-- `DIVN` (R204). -/
def divU (x y : Word) : Word := if y = 0 then 0xFFFFFFFF#32 else BitVec.ofNat 32 (x.toNat / y.toNat)
/-- `REM`: the dividend's sign; x by zero (R204). -/
def remS (x y : Word) : Word := if y = 0 then x else BitVec.ofInt 32 (x.toInt.tmod y.toInt)
/-- `REMN` (R204). -/
def remU (x y : Word) : Word := if y = 0 then x else BitVec.ofNat 32 (x.toNat % y.toNat)

/-- Signed minimum. -/
def minS (x y : Word) : Word := if x.toInt ≤ y.toInt then x else y
/-- Signed maximum. -/
def maxS (x y : Word) : Word := if x.toInt ≤ y.toInt then y else x
/-- Unsigned minimum. -/
def minU (x y : Word) : Word := if x.toNat ≤ y.toNat then x else y
/-- Unsigned maximum. -/
def maxU (x y : Word) : Word := if x.toNat ≤ y.toNat then y else x

/-- Set bits of a word. -/
def popcount (x : Word) : Nat := (List.range 32).countP (fun i => x.getLsbD i)
/-- Leading zero bits of a word, 0 to 32. -/
def leadingZeros (x : Word) : Nat := ((List.range 32).takeWhile (fun i => !x.getLsbD (31 - i))).length
/-- The word with bit i moved to bit 31 - i. -/
def bitReverse (x : Word) : Word :=
  BitVec.ofNat 32 ((List.range 32).foldl (fun n i => 2 * n + if x.getLsbD i then 1 else 0) 0)

/-- A word of a truth value: 1 or 0. -/
def boolWord (b : Bool) : Word := if b then 1 else 0

end Sys2Proof.Machine
end

