-- ==== Sys2Proof/Machine/Arith.lean ====
section
/-! DEFINITION. Register arithmetic of the address stream: `NOP` to `ADDPI`, and `MOV` (R203 to R206). -/

namespace Sys2Proof.Machine

/-- An AR instruction of R203 with two sources: `S(rd) := f(S(ra), S(rb))` after `lat` cycles. -/
def execAr (k : Ctl) (lat : Nat) (rd ra rb : BitVec 6) (f : Word → Word → Word) (s : State) : Out :=
  execA k (fun s => regs lat [.s rd.toNat (f (s.cur.S ra.toNat) (s.cur.S rb.toNat))] s) s

/-- A shift of R203: its count is bits [5:0] of `S(rb)` (R204). -/
def execShift (k : Ctl) (rd ra rb : BitVec 6) (f : Word → Nat → Word) (s : State) : Out :=
  execAr k 1 rd ra rb (fun x y => f x (y.toNat % 64)) s

/-- A unary instruction of R203. -/
def execUnary (k : Ctl) (rd ra : BitVec 6) (f : Word → Word) (s : State) : Out :=
  execA k (fun s => regs 1 [.s rd.toNat (f (s.cur.S ra.toNat))] s) s

/-- An instruction of R205 on pairs. -/
def execPairOp (k : Ctl) (rd ra rb : BitVec 6) (f : DWord → DWord → DWord) (s : State) : Out :=
  execA k (fun s => regs 1 (pairWrites rd.toNat (f (s.cur.S64 ra.toNat) (s.cur.S64 rb.toNat))) s) s

/-- A 64-bit shift of R205: its count is bits [6:0] of `S(rb)`. -/
def execPairShift (k : Ctl) (rd ra rb : BitVec 6) (f : DWord → Nat → DWord) (s : State) : Out :=
  execA k (fun s => regs 1 (pairWrites rd.toNat (f (s.cur.S64 ra.toNat) ((s.cur.S rb.toNat).toNat % 128))) s) s

/-- An AI instruction of R206 on the sign-extended immediate. -/
def execAi (k : Ctl) (lat : Nat) (rd ra : BitVec 6) (imm : BitVec 24) (f : Word → Word → Word) (s : State) : Out :=
  execA k (fun s => regs lat [.s rd.toNat (f (s.cur.S ra.toNat) (imm.signExtend 32))] s) s

/-- A shift of R206: its count is the immediate. -/
def execShiftI (k : Ctl) (rd ra : BitVec 6) (imm : BitVec 24) (f : Word → Nat → Word) (s : State) : Out :=
  execA k (fun s => regs 1 [.s rd.toNat (f (s.cur.S ra.toNat) imm.toNat)] s) s

/-- NOP (R203): its place in the stream, and its flag. -/
def execNop (k : Ctl) (s : State) : Out := execA k (regs 1 []) s
/-- ADD (R203). -/
def execAdd (k : Ctl) (rd ra rb : BitVec 6) (s : State) : Out := execAr k 1 rd ra rb (· + ·) s
/-- SUB (R203). -/
def execSub (k : Ctl) (rd ra rb : BitVec 6) (s : State) : Out := execAr k 1 rd ra rb (· - ·) s
/-- AND (R203). -/
def execAnd (k : Ctl) (rd ra rb : BitVec 6) (s : State) : Out := execAr k 1 rd ra rb (· &&& ·) s
/-- OR (R203). -/
def execOr (k : Ctl) (rd ra rb : BitVec 6) (s : State) : Out := execAr k 1 rd ra rb (· ||| ·) s
/-- XOR (R203). -/
def execXor (k : Ctl) (rd ra rb : BitVec 6) (s : State) : Out := execAr k 1 rd ra rb (· ^^^ ·) s
/-- SHL (R203, R204). -/
def execShl (k : Ctl) (rd ra rb : BitVec 6) (s : State) : Out := execShift k rd ra rb shlW s
/-- SHR (R203, R204). -/
def execShr (k : Ctl) (rd ra rb : BitVec 6) (s : State) : Out := execShift k rd ra rb shrW s
/-- SAR (R203, R204). -/
def execSar (k : Ctl) (rd ra rb : BitVec 6) (s : State) : Out := execShift k rd ra rb sarW s
/-- MUL (R203). -/
def execMul (k : Ctl) (rd ra rb : BitVec 6) (s : State) : Out := execAr k 3 rd ra rb (· * ·) s
/-- MULH (R203). -/
def execMulh (k : Ctl) (rd ra rb : BitVec 6) (s : State) : Out := execAr k 3 rd ra rb mulhS s
/-- MULHN (R203). -/
def execMulhn (k : Ctl) (rd ra rb : BitVec 6) (s : State) : Out := execAr k 3 rd ra rb mulhU s
/-- DIV (R203, R204). -/
def execDiv (k : Ctl) (rd ra rb : BitVec 6) (s : State) : Out := execAr k 24 rd ra rb divS s
/-- DIVN (R203, R204). -/
def execDivn (k : Ctl) (rd ra rb : BitVec 6) (s : State) : Out := execAr k 24 rd ra rb divU s
/-- REM (R203, R204). -/
def execRem (k : Ctl) (rd ra rb : BitVec 6) (s : State) : Out := execAr k 24 rd ra rb remS s
/-- REMN (R203, R204). -/
def execRemn (k : Ctl) (rd ra rb : BitVec 6) (s : State) : Out := execAr k 24 rd ra rb remU s
/-- MIN (R203). -/
def execMin (k : Ctl) (rd ra rb : BitVec 6) (s : State) : Out := execAr k 1 rd ra rb minS s
/-- MAX (R203). -/
def execMax (k : Ctl) (rd ra rb : BitVec 6) (s : State) : Out := execAr k 1 rd ra rb maxS s
/-- MINN (R203). -/
def execMinn (k : Ctl) (rd ra rb : BitVec 6) (s : State) : Out := execAr k 1 rd ra rb minU s
/-- MAXN (R203). -/
def execMaxn (k : Ctl) (rd ra rb : BitVec 6) (s : State) : Out := execAr k 1 rd ra rb maxU s
/-- SET (R203): 1 if the condition holds, else 0. -/
def execSet (k : Ctl) (rd ra rb : BitVec 6) (c : BitVec 4) (s : State) : Out :=
  execAr k 1 rd ra rb (fun x y => boolWord (cond c.toNat x y)) s
/-- SEL (R203). -/
def execSel (k : Ctl) (rd ra rb : BitVec 6) (c : BitVec 4) (s : State) : Out :=
  execAr k 1 rd ra rb (fun x y => if cond c.toNat x y then x else y) s
/-- CLZ (R203). -/
def execClz (k : Ctl) (rd ra : BitVec 6) (s : State) : Out :=
  execUnary k rd ra (fun x => BitVec.ofNat 32 (leadingZeros x)) s
/-- POPC (R203). -/
def execPopc (k : Ctl) (rd ra : BitVec 6) (s : State) : Out :=
  execUnary k rd ra (fun x => BitVec.ofNat 32 (popcount x)) s
/-- BREV (R203). -/
def execBrev (k : Ctl) (rd ra : BitVec 6) (s : State) : Out := execUnary k rd ra bitReverse s
/-- ADDP (R205). -/
def execAddp (k : Ctl) (rd ra rb : BitVec 6) (s : State) : Out := execPairOp k rd ra rb (· + ·) s
/-- SUBP (R205). -/
def execSubp (k : Ctl) (rd ra rb : BitVec 6) (s : State) : Out := execPairOp k rd ra rb (· - ·) s
/-- SHLP (R205): a count of 64 to 127 gives 0. -/
def execShlp (k : Ctl) (rd ra rb : BitVec 6) (s : State) : Out := execPairShift k rd ra rb (fun x n => x <<< n) s
/-- SHRP (R205): a logical right shift. -/
def execShrp (k : Ctl) (rd ra rb : BitVec 6) (s : State) : Out := execPairShift k rd ra rb (fun x n => x >>> n) s
/-- MOV (R205). -/
def execMov (k : Ctl) (rd ra : BitVec 6) (s : State) : Out := execUnary k rd ra id s
/-- ADDI (R206). -/
def execAddi (k : Ctl) (rd ra : BitVec 6) (imm : BitVec 24) (s : State) : Out := execAi k 1 rd ra imm (· + ·) s
/-- ANDI (R206). -/
def execAndi (k : Ctl) (rd ra : BitVec 6) (imm : BitVec 24) (s : State) : Out := execAi k 1 rd ra imm (· &&& ·) s
/-- ORI (R206). -/
def execOri (k : Ctl) (rd ra : BitVec 6) (imm : BitVec 24) (s : State) : Out := execAi k 1 rd ra imm (· ||| ·) s
/-- XORI (R206). -/
def execXori (k : Ctl) (rd ra : BitVec 6) (imm : BitVec 24) (s : State) : Out := execAi k 1 rd ra imm (· ^^^ ·) s
/-- SHLI (R206). -/
def execShli (k : Ctl) (rd ra : BitVec 6) (imm : BitVec 24) (s : State) : Out := execShiftI k rd ra imm shlW s
/-- SHRI (R206). -/
def execShri (k : Ctl) (rd ra : BitVec 6) (imm : BitVec 24) (s : State) : Out := execShiftI k rd ra imm shrW s
/-- SARI (R206). -/
def execSari (k : Ctl) (rd ra : BitVec 6) (imm : BitVec 24) (s : State) : Out := execShiftI k rd ra imm sarW s
/-- MULI (R206). -/
def execMuli (k : Ctl) (rd ra : BitVec 6) (imm : BitVec 24) (s : State) : Out := execAi k 3 rd ra imm (· * ·) s
/-- SETI (R206): the condition is bits [23:20] of the immediate, y is [19:0] sign-extended. -/
def execSeti (k : Ctl) (rd ra : BitVec 6) (imm : BitVec 24) (s : State) : Out :=
  execUnary k rd ra (fun x => boolWord (cond (imm.toNat / 2 ^ 20) x ((imm.extractLsb' 0 20).signExtend 32))) s
/-- MOVHI (R206): the immediate fills bits [31:16] (R188). -/
def execMovhi (k : Ctl) (rd _ra : BitVec 6) (imm : BitVec 24) (s : State) : Out :=
  execA k (regs 1 [.s rd.toNat (BitVec.ofNat 32 (imm.toNat * 2 ^ 16))]) s
/-- ADDPI (R206): the immediate as 64 bits. -/
def execAddpi (k : Ctl) (rd ra : BitVec 6) (imm : BitVec 24) (s : State) : Out :=
  execA k (fun s => regs 1 (pairWrites rd.toNat (s.cur.S64 ra.toNat + imm.signExtend 64)) s) s

end Sys2Proof.Machine
end

