-- ==== Sys2Proof/Machine/Lines.lean ====
section
/-! DEFINITION. The lines that the wall and bay caches hold (R10, R96, R104, R105): which sectors stand where, and where newer than at their
home. -/

namespace Sys2Proof.Machine

/-- Sets of a slice: 12 MiB in 16 ways of 128-byte lines (R1, R105). -/
abbrev baySets : Nat := 6144

/-- Lines of a wall cache: 256 KiB of 128-byte lines (R96). The line size is the bay cache's (log entry 19, DESIGN CHOICE). -/
abbrev wallLines : Nat := 2048

/-- Where way w of the set of a line stands in `State.lines`: the set is the line's number modulo 6,144 (log entry 68, DESIGN CHOICE). -/
def lineKey (bay line way : Nat) : Nat := (baySets * bay + line % baySets) * 16 + way

/-- What way w of the set of a line holds. -/
def State.bayLine (s : State) (bay line way : Nat) : BayLine := Sparse.get s.lines (lineKey bay line way) BayLine.none

/-- The state with a way of a set replaced. -/
def State.setLine (s : State) (bay line way : Nat) (x : BayLine) : State :=
  { s with lines := Sparse.set s.lines (lineKey bay line way) (if x.valid = 0 then BayLine.none else x) BayLine.none }

/-- The way that holds a line. -/
def State.wayOf (s : State) (bay line : Nat) : Option Nat :=
  (List.range 16).find? (fun w => (s.bayLine bay line w).valid != 0 && (s.bayLine bay line w).line == line)

/-- Bit n of a mask of four sectors. -/
def hasBit (m n : Nat) : Bool := m / 2 ^ n % 2 == 1

/-- Whether a slice holds a sector. -/
def State.bayHolds (s : State) (bay sector : Nat) : Bool :=
  match s.wayOf bay (sector / 4) with
  | some w => hasBit (s.bayLine bay (sector / 4) w).valid (sector % 4)
  | none => false

/-- Whether a slice holds a sector that its home yard has not got back yet. -/
def State.bayDirty (s : State) (bay sector : Nat) : Bool :=
  match s.wayOf bay (sector / 4) with
  | some w => hasBit (s.bayLine bay (sector / 4) w).dirty (sector % 4)
  | none => false

/-- Whether a wall cache holds a sector. -/
def Wall.holds (w : Wall) (sector : Nat) : Bool := hasBit (Sparse.get w.cache (sector / 4) 0) (sector % 4)

/-- Whether any cache of the device holds a sector. -/
def State.cached (s : State) (sector : Nat) : Bool :=
  (List.range 48).any (fun b => s.bayHolds b sector) || s.walls.any (fun e => e.2.holds sector)

/-- Whether some slice holds a sector newer than its home yard (R105). -/
def State.dirtyAnywhere (s : State) (sector : Nat) : Bool := (List.range 48).any (fun b => s.bayDirty b sector)

/-- A store of `n` bytes from `a` on reaches client memory past the caches, where no slice holds the sector dirty: what the host wrote to
those bytes before is over (R119, R307). -/
def State.pastHost (s : State) (a n : Nat) : State :=
  if s.hostMem = [] then s
  else { s with hostMem := s.hostMem.filter (fun c => !(a ≤ c.1 && c.1 < a + n) || s.dirtyAnywhere (c.1 / 32)) }

end Sys2Proof.Machine
end

