-- ==== Sys2Proof/Machine/Translate.lean ====
section
/-! DEFINITION. Physical addresses (R146), page tables and walks (R148 to R151), TLBs (R152, R160), partitions (R312),
and the memory event ring (R364). -/

namespace Sys2Proof.Machine

/-! Device registers and physical addresses. -/

/-- A device-held special register (R300). -/
def State.dreg (s : State) (i : Nat) : Word := Sparse.get s.dregs i 0
/-- The state with a device-held special register written. -/
def State.setDreg (s : State) (i : Nat) (x : Word) : State := { s with dregs := Sparse.set s.dregs i x 0 }
/-- The 64-bit value of two device-held registers, low half first. -/
def State.dreg64 (s : State) (i : Nat) : Nat := (s.dreg i).toNat + 2 ^ 32 * (s.dreg (i + 1)).toNat

/-- The region of a physical address (R146). -/
def rgn (pa : Nat) : Nat := pa / 2 ^ 44 % 4
/-- The offset of a physical address in its region (R146). -/
def rgnOff (pa : Nat) : Nat := pa % 2 ^ 44
/-- Whether a physical address is of this device (R22, R146). -/
def State.isLocal (s : State) (pa : Nat) : Bool := pa / 2 ^ 46 == s.did
/-- Whether a physical address lies in local HBM (R146). -/
def State.isHbm (s : State) (pa : Nat) : Bool := s.isLocal pa && rgn pa == 0 && rgnOff pa < 2 ^ 40
/-- The physical address of a scratchpad byte of this device (R146). -/
def State.scratch (s : State) (wall plane off : Nat) : Nat :=
  s.did * 2 ^ 46 + 2 ^ 44 + wall * 2 ^ 36 + plane * 2 ^ 20 + off
/-- The home yard of an HBM address (R147). -/
def homeYard (pa : Nat) : Nat := pa / 2 ^ 36 % 16

/-- A life-long counter runs on by n (R392). -/
def State.lifeAdd (s : State) (sel n : Nat) : State :=
  let m := s.monitor
  { s with monitor := { m with lifeNow := Sparse.set m.lifeNow sel (Sparse.get m.lifeNow sel 0 + n) 0 } }

/-- The life-long counter that a kind of memory event advances (R392). -/
def lifeOf (kind yard : Nat) : Option Nat :=
  match kind with
  | 1 => some (0x010 + yard)
  | 2 => some (0x020 + yard)
  | 3 => some 0x030
  | _ => none

/-- Code of the granule of a physical address: of its local frame; a sector alone elsewhere (R121, R122). -/
def State.granuleAt (s : State) (pa : Nat) : Nat := if s.isHbm pa then (Sparse.get s.granule (pa / 2 ^ 14) 0).toNat else 0

/-- Sub-channels of a granule (R122). -/
def granWidth (g : Nat) : Nat := 2 ^ (if g < 3 then g else 3)

/-- Bytes of a granule: 32 for each sub-channel but those of G512, which have 64 (R122). -/
def granBytes (g : Nat) : Nat := if g < 3 then 32 * 2 ^ g else 512

/-- The memory event ring receives a record (R364): a kind, a place, the agents and RCs concerned, and the bad
sub-channels. Kinds 1 to 3 name the granule, the others the sector. A full ring drops it and counts the drop; a ring of size 0 keeps
nothing. The write is a release at system scope, by the agent concerned. -/
def State.memEvent (s : State) (kind pa die : Nat) (who other otherRc rc : DWord) (sub : DWord) : State :=
  let s := match lifeOf kind (homeYard pa) with | some n => s.lifeAdd n 1 | none => s
  let size := (s.dreg 0x892).toNat
  let head := s.dreg 0x893
  if size = 0 then s
  else if (head - s.dreg 0x894).toNat = size then
    s.setDreg 0x895 (if s.dreg 0x895 = 0xFFFFFFFF#32 then 0xFFFFFFFF#32 else s.dreg 0x895 + 1)
  else
    let gran := if 4 ≤ kind then 0 else s.granuleAt pa
    let unit := pa / granBytes gran * granBytes gran
    let bs := bytesLE 8 unit ++ bytesLE 8 (s.count die).toNat ++ bytesLE 8 who.toNat ++ bytesLE 8 other.toNat ++
      bytesLE 8 otherRc.toNat ++ bytesLE 8 rc.toNat ++ bytesLE 1 kind ++ bytesLE 1 gran ++ bytesLE 1 (homeYard pa) ++
      bytesLE 1 0 ++ bytesLE 8 sub.toNat ++ bytesLE 4 0
    ((s.releaseStore who 8 (s.dreg64 0x890 + 64 * (head.toNat % size)) bs).setDreg 0x893 (head + 1)).raiseEventWord (s.dreg 0x896)

/-- Poison of a sector is consumed (R367): a kind-3 record. -/
def State.poisonUsed (s : State) (pa : Nat) (who : DWord) (die : Nat) : State := s.memEvent 3 pa die who 0 0 0 0

/-- The sectors of the granule that holds a sector, by the granule's code (R105, R122). -/
def granSectors (code sector : Nat) : List Nat :=
  let n := granBytes code / 32
  (List.range n).map (sector / n * n + ·)

/-- Whether the granule of local HBM that holds a sector is marked as poisoned: some sector of it is (R366). -/
def State.granPoisoned (s : State) (sector : Nat) : Bool :=
  (granSectors (s.granuleAt (32 * sector)) sector).any (fun n => Sparse.get s.poison n false)

/-- Whether a byte lies in a poisoned sector, or in one that a fill would bring from a poisoned granule: the reader's caches do not hold it
(`held`), and no slice holds it newer (R366; log entry 109, DEDUCED). -/
def State.poisonedUnless (s : State) (held : Bool) (pa : Nat) : Bool :=
  s.poison != [] &&
    (Sparse.get s.poison (pa / 32) false || (!held && !s.dirtyAnywhere (pa / 32) && s.granPoisoned (pa / 32)))

/-- Whether a unit that reads past the caches finds a byte poisoned. -/
def State.poisoned (s : State) (pa : Nat) : Bool := s.poisonedUnless false pa

/-! Translation contexts. -/

/-- The kinds of access a leaf's permissions distinguish (R149, R150). -/
structure Acc where
  rd : Bool := false
  wr : Bool := false
  ex : Bool := false
  deriving DecidableEq, Repr

/-- Who translates, and how: its ASID, whether it is at user level, the TLBs its lookups try in order (level, unit),
whether its addresses are physical, the regions beyond HBM and the client window it may reach (R146, R297), and the launch whose
snapshot domain its accesses fall in (R179). `who` acquires what a walk's entries carry (R150). Of an access to region 11, `lvl` is the
level it is made at, `w` its whole width and `acc` what it does (R315). -/
structure Ctx where
  asid : Nat
  user : Bool
  path : List (Nat × Nat)
  phys : Bool := false
  dev  : Bool := false
  sp   : Bool := false
  launch : Option Nat := none
  who : DWord := 0
  lvl : Nat := 0
  w   : Nat := 4
  acc : Acc := {}
  deriving DecidableEq, Repr

/-- The context of an agent's own accesses (R152, R297). -/
def Course.ctx (c : Course) : Ctx :=
  match c.sys with
  | some y => { asid := y.asidr.toNat % 2048, user := y.lvl == 0, path := [(2, y.core)], phys := y.lvl == 2,
                dev := y.lvl != 0, who := c.ident, lvl := y.lvl.toNat }
  | none => { asid := c.asid, user := true, path := [(0, c.wall), (1, bayOf c.wall), (2, yardOf c.wall)],
              launch := some c.launch, who := c.ident }

/-- Whether the caches that an access goes through hold a sector: its bay's slice, and a course's wall cache (R10, R104). -/
def State.holdsFor (s : State) (x : Ctx) (sector : Nat) : Bool :=
  match x.path.find? (fun e => e.1 == 0) with
  | some e => s.bayHolds (bayOf e.2) sector || (kindOf x.who == 0 && (s.wall e.2).holds sector)
  | none => false

/-- Whether an address belongs to another device while the site fabric is not up (R22). -/
def State.noPeer (s : State) (pa : Nat) : Bool := !s.isLocal pa && !s.fabric

/-! Device registers (R29, R300, R315). -/

/-- Whether a register of R29 is writable: words 0 to 3 of a completion-record slot. -/
def lowWritable (i : Nat) : Bool := 0x200 ≤ i && i ≤ 0x2BF && i % 16 < 4

/-- The least levels at which a register may be read and written (none: read-only); none for a reserved index. Log entry 36, DEDUCED. Log entry 78, DEDUCED. -/
def srAccess (i : Nat) : Option (Nat × Option Nat) :=
  if i = 0x800 then some (0, some 1)
  else if i = 0x801 then some (1, some 2)
  else if i = 0x802 then some (0, none)
  else if 0x810 ≤ i ∧ i ≤ 0x817 then some (1, some 1)
  else if 0x818 ≤ i ∧ i ≤ 0x81F then some (2, some 2)
  else if (0x830 ≤ i ∧ i ≤ 0x835) ∨ i = 0x840 ∨ i = 0x841 ∨ i = 0x843 then some (2, some 2)
  else if i = 0x842 ∨ (0x850 ≤ i ∧ i ≤ 0x853) then some (1, some 1)
  else if i = 0x854 then some (1, none)
  else if 0x860 ≤ i ∧ i ≤ 0x863 then some (1, some 1)
  else if i = 0x87C ∨ i = 0x893 ∨ i = 0x8A3 ∨ i = 0x8B1 ∨ i = 0x8B2 then some (2, none)
  else if (0x870 ≤ i ∧ i ≤ 0x874) ∨ (0x878 ≤ i ∧ i ≤ 0x87E) ∨ i = 0x880 ∨ i = 0x881 then some (2, some 2)
  else if i = 0x884 then some (1, some 1)
  else if (0x890 ≤ i ∧ i ≤ 0x896) ∨ (0x8A0 ≤ i ∧ i ≤ 0x8A6) ∨ i = 0x8A8 ∨ i = 0x8A9 ∨ i = 0x8B0 then some (2, some 2)
  else none

/-- Whether an access of region 11 is refused: it is not one aligned 4-byte register that exists and that its level may access so (R300, R315;
log entry 36, DEDUCED). -/
def Ctx.regBad (x : Ctx) (pa : Nat) : Bool :=
  let o := rgnOff pa
  let i := o % 2 ^ 16 / 4
  !x.dev || x.w != 4 || pa % 4 != 0 || 4 ≤ o / 2 ^ 20 || 4 ≤ o / 2 ^ 16 % 16 ||
    (if i < 0x800 then x.acc.wr && !lowWritable i
     else match srAccess i with
       | none => true
       | some (r, w) => (x.acc.rd && x.lvl < r) || (x.acc.wr && (match w with | none => true | some w => x.lvl < w)))

/-- Whether an offset of region 10 lies in its link's client window as the host has declared it: enabled, and long enough (R146, R327; log entry
131, DEDUCED). -/
def State.inWindow (s : State) (o : Nat) : Bool :=
  let w := Sparse.get s.windows (o / 2 ^ 40) Window.zero
  w.ctl.getLsbD 0 && decide (o % 2 ^ 40 < w.len.toNat)

/-- Whether a physical address is one that the access may not reach (R22, R146). -/
def State.rangeBad (s : State) (x : Ctx) (pa : Nat) : Bool :=
  let o := rgnOff pa
  s.noPeer pa ||
  match rgn pa with
  | 0 => 2 ^ 40 ≤ o
  | 1 => !x.sp || 191 < o / 2 ^ 36 || o / 2 ^ 22 % 2 ^ 14 != 0 || o / 2 ^ 20 % 4 == 3
  | 2 => 2 ^ 41 ≤ o || (s.isLocal pa && !s.inWindow o)
  | _ => x.regBad pa

/-! Tables of the hypervisor (R312). -/

/-- The first 8 bytes of an ASID's entry of ASIDTAB. -/
def State.asidEntry (s : State) (asid : Nat) : Nat := s.loadNat (s.dreg64 0x830 + 16 * asid) 8
/-- Whether an ASID's entry binds a table. -/
def State.asidBound (s : State) (asid : Nat) : Bool := s.asidEntry asid % 2 == 1
/-- The partition that owns an ASID. -/
def State.partOf (s : State) (asid : Nat) : Nat := (s.byte (s.dreg64 0x830 + 16 * asid + 8)).toNat
/-- The windows of a partition: base and length. -/
def State.windows_ (s : State) (part : Nat) : List (Nat × Nat) :=
  (List.range 4).map (fun i =>
    (s.loadNat (s.dreg64 0x832 + 64 * part + 16 * i) 8, s.loadNat (s.dreg64 0x832 + 64 * part + 16 * i + 8) 8))
/-- Whether a range of physical memory lies within one window of a partition (R151). Log entry 97, DEDUCED. -/
def State.inPartition (s : State) (part lo len : Nat) : Bool :=
  (s.windows_ part).any (fun w => w.2 != 0 && w.1 ≤ lo && lo + len ≤ w.1 + w.2)

/-! Leaves (R149). -/

/-- Bit n of an entry. -/
def ebit (e n : Nat) : Bool := e / 2 ^ n % 2 == 1

/-- A leaf as R149 lays it out, with the logarithm of its page size. -/
structure Leaf where
  e    : Nat
  size : Nat
  deriving DecidableEq, Repr

/-- The frame of a leaf: bits [51:14]. -/
def Leaf.frame (l : Leaf) : Nat := l.e % 2 ^ 52 / 2 ^ 14 * 2 ^ 14
/-- Resident. -/
def Leaf.res (l : Leaf) : Bool := ebit l.e 8
/-- Race-checked (R140). -/
def Leaf.chk (l : Leaf) : Bool := ebit l.e 59
/-- Granule (R121). -/
def Leaf.gr (l : Leaf) : Nat := l.e / 2 ^ 60 % 4
/-- Memory type. -/
def Leaf.ca (l : Leaf) : Nat := l.e / 2 ^ 6 % 4
/-- The physical address of a virtual address in the page. -/
def Leaf.place (l : Leaf) (va : Nat) : Nat := l.frame + va % 2 ^ l.size

/-- The permission check of a leaf (R150). -/
def Leaf.denied (l : Leaf) (user : Bool) (a : Acc) : Bool :=
  (a.rd && !ebit l.e 3) || (a.wr && !ebit l.e 4) || (a.ex && !ebit l.e 5) || (user && !ebit l.e 2)

/-- A bit that R149 requires to be zero is set in a leaf, its memory type is 11, or its frame is not aligned to its
page; the frame bits of a non-resident leaf are the pager's. -/
def Leaf.malformed (l : Leaf) : Bool :=
  l.e / 2 ^ 62 != 0 || l.e / 2 ^ 52 % 2 ^ 6 != 0 || l.e / 2 ^ 10 % 16 != 0 || ebit l.e 9 || l.ca == 3 ||
  (l.res && l.e % 2 ^ 52 / 2 ^ 14 * 2 ^ 14 % 2 ^ l.size != 0)

/-! Walks (R150). -/

/-- What a walk or a lookup ends in. -/
inductive Xl where
  | ok (l : Leaf)
  | fail (code : Code)
  | poison (pa : Nat)
  deriving DecidableEq, Repr

/-- A level of the table: the lowest index bit, the index width, and whether a leaf may stand there (R148). -/
def walkLevels : List (Nat × Nat × Bool) :=
  [(47, 9, false), (38, 9, false), (29, 9, true), (21, 8, true), (14, 7, true)]

/-- A walk from the table at `tab` through the levels that remain. Log entry 96, DEDUCED. No walk cache of pointer entries is kept, which the
manual allows: every walk reads its entries from memory (R153; log entry 110, DESIGN CHOICE). -/
def State.walkFrom (s : State) (va : Nat) : List (Nat × Nat × Bool) → Nat → Xl
  | [], _ => .fail 0x02
  | (shift, width, leafOk) :: rest, tab =>
    let a := tab + 8 * (va / 2 ^ shift % 2 ^ width)
    if s.poisoned a then .poison a
    else
      let e := s.loadNat a 8
      if !ebit e 0 then .fail 0x01
      else if ebit e 1 then
        let l : Leaf := ⟨e, shift⟩
        if !leafOk || l.malformed then .fail 0x02
        else if l.res && s.isHbm (l.place va) && (Sparse.get s.granule (l.place va / 2 ^ 14) 0).toNat != l.gr then
          .fail 0x02
        else .ok l
      else
        let next := e % 2 ^ 52 / 2 ^ 10 * 2 ^ 10
        match rest with
        | [] => .fail 0x02
        | (_, w', _) :: _ =>
          if e / 2 ^ 52 != 0 || e / 2 ^ 2 % 2 ^ 8 != 0 || !s.isHbm next || next % (8 * 2 ^ w') != 0 then .fail 0x02
          else s.walkFrom va rest next

/-- The root table of an ASID. -/
def State.rootOf (s : State) (asid : Nat) : Nat := s.asidEntry asid % 2 ^ 52 / 2 ^ 10 * 2 ^ 10

/-- Whether the walks of an ASID have no root: it is unbound, or its root is not an aligned table in local HBM (R150). -/
def State.rootBad (s : State) (asid : Nat) : Bool :=
  !s.asidBound asid || !s.isHbm (s.rootOf asid) || s.rootOf asid % 4096 != 0

/-- A walk in an address space (R150): without a root it is a walk fault. -/
def State.walk (s : State) (asid va : Nat) : Xl :=
  if s.rootBad asid then .fail 0x02 else s.walkFrom va walkLevels (s.rootOf asid)

/-- The addresses of the entries that a walk through the levels that remain reads. -/
def State.walkReads (s : State) (va : Nat) : List (Nat × Nat × Bool) → Nat → List Nat
  | [], _ => []
  | (shift, width, _) :: rest, tab =>
    let a := tab + 8 * (va / 2 ^ shift % 2 ^ width)
    let e := s.loadNat a 8
    a :: (if s.poisoned a || !ebit e 0 || ebit e 1 then [] else s.walkReads va rest (e % 2 ^ 52 / 2 ^ 10 * 2 ^ 10))

/-- The releases whose values the entries of a walk carry (R131, R150): each entry is read as an acquire at device scope. -/
def State.walkRels (s : State) (asid va : Nat) : List Carry :=
  if s.rels = [] ∨ s.rootBad asid then []
  else ((s.walkReads va walkLevels (s.rootOf asid)).flatMap (fun a => s.relsOn a 8)).dedup

/-- An agent's synchronisation state once it has acquired releases at device scope (R131, R132). -/
def State.syncWalk (s : State) (who : DWord) (y : Sync) (cs : List Carry) : Sync :=
  cs.foldl (fun y c => if s.syncs c who 6 then y.acquire who c else y) y

/-- The agent for which a walk is made acquires what the walk's entries carry: a course, a core or a Hod channel (R150; log entry 111,
DEDUCED). -/
def State.walked (s : State) (x : Ctx) (va : Nat) : State :=
  let cs := s.walkRels x.asid va
  if cs = [] ∨ x.who = 0 then s
  else if kindOf x.who = 1 then
    { s with walls := s.walls.map (fun (e : Nat × Wall) => (e.1, { e.2 with chans := e.2.chans.map (fun (h : Nat × Chan) =>
        (h.1, if h.2.ident = x.who then { h.2 with sync := s.syncWalk x.who h.2.sync cs } else h.2)) })) }
  else s.modWhere (fun c => c.ident == x.who) (fun c => { c with sync := s.syncWalk x.who c.sync cs })

/-- The checks of R150 on the leaf of a walk, in the order of R354: partition and, where it is asked for, range on a resident
leaf, permission, residency. -/
def State.leafFault (s : State) (x : Ctx) (l : Leaf) (va : Nat) (a : Acc) (ranged : Bool) : Option Code :=
  if l.res && !s.inPartition (s.partOf x.asid) l.frame (2 ^ l.size) then some 0x05
  else if ranged && l.res && s.rangeBad x (l.place va) then some 0x07
  else if l.denied x.user a then some 0x03
  else if !l.res then some 0x04
  else none

/-! TLBs (R152). -/

/-- Entries of a TLB by level. -/
def tlbCap : Nat → Nat
  | 0 => 64
  | 1 => 4096
  | _ => 65536

/-- The entries of one TLB that match an address. -/
def State.tlbMatches (s : State) (level unit asid va : Nat) : List TlbEntry :=
  s.tlb.filter (fun e => e.level == level && e.unit == unit && e.asid == asid && va / 2 ^ e.size == e.page)

/-- The smallest match of one TLB, and the state without the larger ones (R160). -/
def State.tlbLook (s : State) (level unit asid va : Nat) : Option TlbEntry × State :=
  let ms := s.tlbMatches level unit asid va
  match ms.foldl (fun o e => match o with | none => some e | some b => if e.size < b.size then some e else some b) none with
  | none => (none, s)
  | some b => (some b, { s with tlb := s.tlb.filter (fun e => e.size ≤ b.size || !ms.contains e) })

/-- A lookup through the TLBs of a path: the entry found and the TLBs passed before it. -/
def State.tlbFind (s : State) (asid va : Nat) : List (Nat × Nat) → List (Nat × Nat) →
    Option TlbEntry × List (Nat × Nat) × State
  | [], passed => (none, passed, s)
  | (level, unit) :: rest, passed =>
    match s.tlbLook level unit asid va with
    | (some e, s) => (some e, passed, s)
    | (none, s) => s.tlbFind asid va rest ((level, unit) :: passed)

/-- An entry is written into a TLB, which drops its oldest entry when it is full (log entry 8, DESIGN CHOICE). -/
def tlbFill (t : List TlbEntry) (e : TlbEntry) : List TlbEntry :=
  let same := t.filter (fun o => o.level == e.level && o.unit == e.unit)
  let t := if same.length < tlbCap e.level then t else (match same.getLast? with | some o => t.erase o | none => t)
  e :: t.filter (fun o => o != e)

/-- A leaf is written into every TLB passed (R152). -/
def State.tlbFillAll (s : State) (asid va : Nat) (l : Leaf) (passed : List (Nat × Nat)) : State :=
  { s with tlb := passed.foldl (fun t p =>
      tlbFill t ⟨p.1, p.2, asid, l.size, va / 2 ^ l.size, BitVec.ofNat 64 l.e⟩) s.tlb }

/-- A micro-TLB that was passed counts a miss (R348). -/
def State.missed (s : State) (passed : List (Nat × Nat)) : State :=
  match passed.find? (fun p => p.1 == 0) with
  | some p => s.countEvent p.2 5 1
  | none => s

/-- The race tags of `n` bytes of a frame from `a` on are empty, those of its working frames in snapshot domains too, which stand at
multiples of 2^53 above it (R140, R179). -/
def State.clearFrame (s : State) (a n : Nat) : State :=
  { s with tags := s.tags.filter (fun e => !(a ≤ 32 * e.1 % 2 ^ 53 && 32 * e.1 % 2 ^ 53 < a + n)) }

/-- A walk has seen a page's leaf: where its `CHECKED` attribute is not what a walk saw of the page before, the attribute has changed, and the
tags of the page's frame are empty (R140; log entry 87, DEDUCED). -/
def State.seeLeaf (s : State) (asid va : Nat) (l : Leaf) : State :=
  let key := (asid, l.size, va / 2 ^ l.size)
  match s.attrs.find? (fun e => e.1 == key) with
  | none => { s with attrs := s.attrs ++ [(key, l.chk)] }
  | some e =>
    if e.2 = l.chk then s
    else ({ s with attrs := s.attrs.map (fun (o : (Nat × Nat × Nat) × Bool) => if o.1 = key then (key, l.chk) else o) }).clearFrame l.frame (2 ^ l.size)

/-- What the walk that a translation needs carries: nothing where a TLB holds the page (R150). -/
def State.lookRels (s : State) (x : Ctx) (va : Nat) : List Carry :=
  if s.rels = [] ∨ x.phys ∨ 2 ^ 56 ≤ va ∨ (s.tlbFind x.asid va x.path []).1.isSome then [] else s.walkRels x.asid va

/-- Translation of a virtual address through the TLBs and tables of a context (R145, R150, R152), with the physical range
judged where `ranged` asks for it. At level 2 of a system core addresses are physical (R297). The state has the TLBs as the
lookup leaves them: a leaf out of range is not held (R152). Log entry 104, DEDUCED. -/
def State.translateBy (s : State) (x : Ctx) (va : Nat) (a : Acc) (ranged : Bool) : Xl × State :=
  if x.phys then
    if 2 ^ 52 ≤ va then (.fail 0x06, s)
    else if ranged && s.rangeBad x va then (.fail 0x07, s)
    else (.ok ⟨va / 2 ^ 14 * 2 ^ 14 + 0x13F, 14⟩, s)
  else if 2 ^ 56 ≤ va then (.fail 0x06, s)
  else
    match s.tlbFind x.asid va x.path [] with
    | (some e, passed, s) =>
      let s := s.missed passed
      let l : Leaf := ⟨e.leaf.toNat, e.size⟩
      let bad := s.rangeBad x (l.place va)
      if ranged && bad then (.fail 0x07, s)
      else if l.denied x.user a then (.fail 0x03, s)
      else (.ok l, if bad then s else s.tlbFillAll x.asid va l passed)
    | (none, passed, s) =>
      let s := (s.missed passed).walked x va
      match s.walk x.asid va with
      | .ok l =>
        (match s.leafFault x l va a ranged with
         | some c => (.fail c, s)
         | none => (.ok l, (if s.rangeBad x (l.place va) then s else s.tlbFillAll x.asid va l passed).seeLeaf x.asid va l))
      | r => (r, s)

/-- Translation for an access (R150). -/
def State.translate (s : State) (x : Ctx) (va : Nat) (a : Acc) : Xl × State := s.translateBy x va a true

/-- A translation register bound in global mode (R155): what `BIND` makes of a base and extent, or the fault it
raises: it is no access, and a frame out of range faults in the lanes that use it (R98). `LIM` ends at the page; a
non-resident page leaves it 0 and the attributes as they were. Log entry 59, DEDUCED. -/
def State.bindGlobal (s : State) (x : Ctx) (old : BReg) (base : DWord) (ext : Word) : Except Xl BReg × State :=
  let va := base.toNat
  let off : BReg := { old with base := base, ext := ext, lim := 0, stale := false, mode := false }
  match s.translateBy x va {} false with
  | (.ok l, s) =>
    let room := 2 ^ l.size - va % 2 ^ l.size
    (.ok { base := base, frame := BitVec.ofNat 52 (l.place va), ca := BitVec.ofNat 2 l.ca, rd := ebit l.e 3,
           w := ebit l.e 4, chk := l.chk, gr := BitVec.ofNat 2 l.gr, stale := false, mode := false,
           lim := BitVec.ofNat 32 (min ext.toNat room), ext := ext }, s)
  | (.fail c, s) => if c = 0x04 then (.ok off, s) else (.error (.fail c), s)
  | (r, s) => (.error r, s)

/-- A stale register of the focused agent is re-translated at its next use (R157): a fault or a non-resident page
leaves `LIM` 0. -/
def State.refresh (s : State) (n : Nat) : State :=
  let r := s.cur.B n
  if !r.stale then s
  else match s.bindGlobal s.cur.ctx r r.base r.ext with
    | (.ok r', s) => s.modC (fun c => c.write (.b n r'))
    | (.error _, s) => s.modC (fun c => c.write (.b n { r with lim := 0, stale := false }))

end Sys2Proof.Machine
end

