-- ==== Sys2Proof/Machine/Cache.lean ====
section
/-! DEFINITION. The wall and bay caches (R10, R11, R104, R105, R119, R211): which lines they hold, fills, evictions and
write-backs. The directories keep the caches coherent for device and peer memory (R11, R97), so `State.mem` is what every agent of the
device sees and the caches say where copies stand; of client memory that its host has written without snooping, they keep the older
bytes in sight until they give the sector up (R307). -/

namespace Sys2Proof.Machine

/-! Client memory that its host writes without snooping (R307). -/

/-- The host's bytes of a sector that no cache holds any more come into sight. -/
def State.reveal (s : State) (sector : Nat) : State :=
  if s.hostMem = [] ∨ s.cached sector then s
  else
    let new := s.hostMem.filter (fun c => c.1 / 32 == sector)
    { s with mem := new.foldl (fun m c => Sparse.set m c.1 c.2 0) s.mem,
             hostMem := s.hostMem.filter (fun c => c.1 / 32 != sector) }

/-- All of the host's bytes that no cache holds back come into sight. -/
def State.revealAll (s : State) : State := ((s.hostMem.map (fun c => c.1 / 32)).dedup).foldl State.reveal s

/-- Sectors are written back to their home (R105): the home merges them with the stored granule and re-encodes its check bits, in one
step, so every byte reads as before; of client memory the whole sector goes, over what the host wrote there. -/
def State.mergedHome (s : State) (sectors : List Nat) : State :=
  if s.hostMem = [] then s else { s with hostMem := s.hostMem.filter (fun c => !sectors.contains (c.1 / 32)) }

/-- The sectors of a line that a mask names. -/
def maskSectors (line mask : Nat) : List Nat := ((List.range 4).filter (hasBit mask)).map (4 * line + ·)

/-- A way gives up its line: its dirty sectors are written back first (R105, R119). -/
def State.dropLine (s : State) (bay line way : Nat) : State :=
  let x := s.bayLine bay line way
  let s := (s.mergedHome (maskSectors x.line x.dirty)).setLine bay line way BayLine.none
  (maskSectors x.line x.valid).foldl State.reveal s

/-! Fills and evictions. -/

/-- Whether a way of a slice is on and awake (R119, R120). -/
def State.wayOn (s : State) (bay way : Nat) : Bool :=
  !(Sparse.get s.waysOff bay 0).getLsbD (way / 2) && !(Sparse.get s.waysWake bay 0).getLsbD (way / 2)

/-- Whether a slice has a way pair that is waking: its accesses stall (R120). -/
def State.bayWaking (s : State) (bay : Nat) : Bool := Sparse.get s.waysWake bay 0 != 0

/-- The way that a new line takes: one that holds nothing, else one of those that hold no `.keep` line, else any (R211); which of them,
the manual leaves open (log entry 68, DESIGN CHOICE). None while every way is off. -/
def State.victim (s : State) (bay line : Nat) : Option Nat × State :=
  let ws := (List.range 16).filter (s.wayOn bay)
  match ws.find? (fun w => (s.bayLine bay line w).valid == 0) with
  | some w => (some w, s)
  | none =>
    let plain := ws.filter (fun w => !(s.bayLine bay line w).keep)
    let pool := if plain = [] then ws else plain
    (pool[Config.freeNat s.free % pool.length]?, { s with free := s.free + 1 })

/-- Sectors of one line come into a slice; a slice without a way on takes none (R119). -/
def State.fillLine (s : State) (bay line mask : Nat) (keep : Bool) : State :=
  match s.wayOf bay line with
  | some w => let x := s.bayLine bay line w; s.setLine bay line w { x with valid := x.valid ||| mask, keep := x.keep || keep }
  | none =>
    match s.victim bay line with
    | (some w, s) => (s.dropLine bay line w).setLine bay line w ⟨line, mask, 0, keep⟩
    | (none, s) => s

/-- A sector with the code of the granule in which it is delivered (R122): that of its frame in local HBM, and that of the page it is
reached through in a peer's. -/
abbrev GranSector := Nat × Nat

/-- Sectors that a fill brings into a slice from a poisoned granule are poisoned (R366), but those that the slice holds already, or that some slice
holds newer. -/
def State.spreadPoison (s : State) (bay sector : Nat) (brought : List Nat) : State :=
  if s.poison = [] ∨ !s.granPoisoned sector then s
  else { s with poison := (brought.filter (fun n => !s.bayHolds bay n && !s.dirtyAnywhere n)).foldl (fun t n => Sparse.put t n true) s.poison }

/-- A list of sectors comes into a slice. -/
def State.fillAll (s : State) (bay : Nat) (sectors : List Nat) (keep : Bool) : State :=
  ((sectors.map (· / 4)).dedup).foldl (fun s line =>
    s.fillLine bay line ((sectors.filter (fun n => n / 4 == line)).foldl (fun m n => m ||| 2 ^ (n % 4)) 0) keep) s

/-- A slice is asked for a sector: a miss fills the sectors of its granule (R105, R122), each poisoned if the granule is (R366). -/
def State.bayTouch (s : State) (bay : Nat) (keep : Bool) (x : GranSector) : State :=
  if s.bayHolds bay x.1 then s
  else
    let ns := granSectors x.2 x.1
    (s.spreadPoison bay x.1 ns).fillAll bay ns keep

/-- A sector stands newer in a slice than at its home yard (R105); a slice that does not hold it has passed the store on. -/
def State.bayWrite (s : State) (bay sector : Nat) : State :=
  match s.wayOf bay (sector / 4) with
  | some w =>
    let x := s.bayLine bay (sector / 4) w
    s.setLine bay (sector / 4) w { x with valid := x.valid ||| 2 ^ (sector % 4), dirty := x.dirty ||| 2 ^ (sector % 4) }
  | none => s

/-- A sector that a course of a wall has read stands in the wall cache (R104); a full cache gives up a line that the manual leaves open
(log entry 19, DESIGN CHOICE). -/
def State.wallFill (s : State) (w sector : Nat) : State :=
  let x := s.wall w
  let line := sector / 4
  let mask := Sparse.get x.cache line 0
  if mask = 0 ∧ wallLines ≤ x.cache.length then
    let out := (x.cache[Config.freeNat s.free % x.cache.length]?.map Prod.fst).getD line
    let given := maskSectors out (Sparse.get x.cache out 0)
    given.foldl State.reveal
      ({ s with free := s.free + 1 }.setWall w { x with cache := Sparse.put (Sparse.del x.cache out) line (2 ^ (sector % 4)) })
  else s.setWall w { x with cache := Sparse.put x.cache line (mask ||| 2 ^ (sector % 4)) }

/-- Placement of an access in the caches: `.stream` is not kept in the wall cache, `.keep` is kept in the bay cache ahead of other
lines (R211). -/
structure Hint where
  wall : Bool := true
  keep : Bool := false
  deriving DecidableEq, Repr

/-- The hint field of R211. -/
def Hint.of (h : BitVec 2) : Hint := { wall := h != 1, keep := h == 2 }

/-- Courses of a wall read sectors of global data: those that the wall cache does not hold come through the bay's slice, and are then
held (R104, R105). How many were missing is given too (R348). -/
def State.cacheReads (s : State) (w : Nat) (h : Hint) (sectors : List GranSector) : Nat × State :=
  sectors.foldl (fun (acc : Nat × State) n =>
    if (acc.2.wall w).holds n.1 then acc
    else
      let s := acc.2.bayTouch (bayOf w) h.keep n
      (acc.1 + 1, if h.wall then s.wallFill w n.1 else s)) (0, s)

/-- A Hod channel, an instruction fetch or an atomic reads sectors of global data: they come through the bay's slice (R96, R105). -/
def State.bayReads (s : State) (bay : Nat) (h : Hint) (sectors : List GranSector) : State :=
  sectors.foldl (fun s n => s.bayTouch bay h.keep n) s

/-- A course of a wall stores to sectors of global data: each store passes through the wall cache, whose copy it updates, to the bay's
slice, which holds them dirty; with every way off it goes to the home yard (R104, R105, R119). -/
def State.cacheWrites (s : State) (bay : Nat) (h : Hint) (sectors : List GranSector) : State :=
  sectors.foldl (fun s n => (s.bayTouch bay h.keep n).bayWrite bay n.1) s

/-! Maintenance (R307). -/

/-- Dirty sectors of all slices that `hit` picks are written back. -/
def State.writeBack (s : State) (hit : Nat → Bool) : State :=
  let ds := s.lines.flatMap (fun e => (maskSectors e.2.line e.2.dirty).filter hit)
  let clean (x : BayLine) : BayLine :=
    { x with dirty := (List.range 4).foldl (fun m i => if hasBit x.dirty i && !hit (4 * x.line + i) then m + 2 ^ i else m) 0 }
  { s with lines := s.lines.map (fun (e : Nat × BayLine) => (e.1, clean e.2)) }.mergedHome ds

/-- Every wall and bay cache gives up the sectors that `hit` picks, after their write-back. -/
def State.invalidateCaches (s : State) (hit : Nat → Bool) : State :=
  let s := s.writeBack hit
  let keep (line mask : Nat) : Nat :=
    (List.range 4).foldl (fun m i => if hasBit mask i && !hit (4 * line + i) then m + 2 ^ i else m) 0
  { s with
    lines := (s.lines.map (fun (e : Nat × BayLine) => (e.1, { e.2 with valid := keep e.2.line e.2.valid }))).filter (fun e => e.2.valid != 0)
    walls := s.walls.map (fun (e : Nat × Wall) => (e.1, { e.2 with
      cache := (e.2.cache.map (fun (c : Nat × Nat) => (c.1, keep c.1 c.2))).filter (fun (c : Nat × Nat) => c.2 != 0) })) }.revealAll

/-! Sub-channels and codes (R122, R123, R365). -/

/-- The first sub-channel of the granule of a physical address: with N its 16 KiB frame in the yard, g its index there and w its
width, `k` is (g + N) mod (64 / w), and it occupies sub-channels kw to kw + w - 1 (R123, R147). -/
def firstSub (gran pa : Nat) : Nat :=
  let w := granWidth gran
  let N := pa % 2 ^ 36 / 2 ^ 14
  let g := pa % 2 ^ 14 / granBytes gran
  (g + N) % (64 / w) * w

/-- The sub-channels of the device's yard that hold the bad symbols of a granule, bit n for sub-channel n (R123, R364). -/
def badSubs (gran pa : Nat) (e : Ecc) : DWord :=
  BitVec.ofNat 64 (((e.bad.map (fun b => b.1 % granWidth gran)).dedup).foldl (fun m i => m + 2 ^ (firstSub gran pa + i)) 0)

/-- What decoding a granule comes to (R365): no error, corrected, detected, or what its code does not promise: detected,
miscorrected or undetected. -/
inductive EccOut where
  | clean
  | corrected
  | detected
  | unpromised
  deriving DecidableEq, Repr

/-- Decoding under the code of a granule, by the bad symbols (R122, R365): G32 and G128 correct one and detect two, G64 corrects one,
G512 corrects all that lie in one sub-channel and detects one or two more outside it. -/
def eccOut (gran : Nat) (e : Ecc) : EccOut :=
  let bad := e.bad.dedup
  let n := bad.length
  let outside (i : Nat) : Nat := (bad.filter (fun b => b.1 != i)).length
  if n = 0 then .clean
  else if gran < 3 then
    if n = 1 then .corrected else if n = 2 ∧ gran ≠ 1 then .detected else .unpromised
  else if (List.range 8).any (fun i => outside i == 0) then .corrected
  else if (List.range 8).any (fun i => outside i ≤ 2) then .detected
  else .unpromised

end Sys2Proof.Machine
end

