-- ==== Sys2Proof/Machine/Access.lean ====
section
/-! DEFINITION. Accesses of an agent to memory, lane by lane: routing through translation registers (R98, R156), the
faults of a lane in the order of R354, the race check (R142, R144), and the effects of loads and stores. -/

namespace Sys2Proof.Machine

/-- One lane of an access: its thread, its virtual address, its width in bytes. -/
structure Lane where
  t  : Nat
  va : Nat
  w  : Nat
  deriving DecidableEq, Repr

/-- What an access is: what it does to memory, whether it is atomic, its kind and scope (R126), whether it excuses
a non-resident page (R213), and its placement in the caches (R211). -/
structure How where
  acc    : Acc
  atomic : Bool := false
  kind   : Nat := 0
  scope  : Nat := 0
  nr     : Bool := false
  hint   : Hint := {}
  deriving DecidableEq, Repr

/-- A lane whose place is known: its physical address, whether its page is race-checked, its memory type and granule (R149), where its bytes stand
in `State.mem`, and the sector whose tag it is checked against. The last two differ from the physical address only in the working frame
of a snapshot domain (R179). -/
structure Place where
  t   : Nat
  va  : Nat
  w   : Nat
  pa  : Nat
  chk : Bool
  ca  : Nat := 0
  gr  : Nat := 0
  mem : Nat := pa
  sec : Nat := pa / 32
  deriving DecidableEq, Repr

/-- Where the releases that a place's bytes carry are kept (R131). -/
def Place.key (p : Place) : Nat := 32 * p.sec + p.pa % 32

/-- Whether a place goes through the wall and bay caches (R98, R149): no scratchpad byte of any device does, and no byte of an uncached page
or one in device order. -/
def Place.cacheable (p : Place) : Bool := p.ca == 0 && rgn p.pa != 1 && rgn p.pa != 3

/-- The code of the granule in which the home yard delivers a place's sector (R122): of its frame in local HBM, of the page's leaf in a
peer's, a sector alone from elsewhere. -/
def State.granCode (s : State) (p : Place) : Nat :=
  if s.isHbm p.pa then s.granuleAt p.pa else if rgn p.pa = 0 then p.gr else 0

/-- What becomes of a lane before any lane takes effect (R214): a place, a non-resident page that `.nr` excuses, or a
fault with the poisoned byte that caused it, if one did. -/
inductive LaneR where
  | place (p : Place)
  | absent (t : Nat)
  | fault (t va : Nat) (code : Code) (poison : Option Nat)
  deriving DecidableEq, Repr

/-! Shadow buffers (R138, R262). -/

/-- An address moved to the other copy of the declared buffer that holds it; `visible` says which copy is meant. -/
def shadowMove (bufs : Sparse Shadow) (asid x : Nat) (visible : Bool) : Nat :=
  match bufs.find? (fun e => e.2.asid == asid && e.2.name ≤ x && x < e.2.name + e.2.len) with
  | some e => if e.2.swap == visible then e.2.second + (x - e.2.name) else x
  | none => x

/-- What the publishes of the declared buffers that overlap a range released (R138). -/
def pubCarries (bufs : Sparse Shadow) (asid lo len : Nat) : List Carry :=
  bufs.flatMap (fun e =>
    if e.2.asid = asid ∧ e.2.name < lo + len ∧ lo < e.2.name + e.2.len then e.2.pub else [])

/-- An access of the focused agent through published mappings is ordered after the publishes, as if it had acquired them,
where the agent is in their scope (R138). -/
def State.seePublish (s : State) (cs : List Carry) : State :=
  cs.foldl (fun s c => if s.inScope c.scope c.who s.cur.ident then s.acquireC c else s) s

/-! Sectors and scratchpad banks. -/

/-- Whether `w` bytes at `a` cross a sector boundary (R129). -/
def crosses (a w : Nat) : Bool := 32 < a % 32 + w

/-- The scratchpad bank of an offset (R99). -/
def bankOf (off : Nat) : Nat := off / 32 % 64

/-- Whether a bank of a plane is gated off and not waking (R119, R120, R368). -/
def Plane.gated (p : Plane) (off : Nat) : Bool := p.off.getLsbD (bankOf off) && !p.waking.getLsbD (bankOf off)

/-- The wall, plane and offset of a scratchpad address (R146). -/
def spPlace (pa : Nat) : Nat × Nat × Nat := (rgnOff pa / 2 ^ 36, rgnOff pa / 2 ^ 20 % 4, pa % 2 ^ 20)

/-- Whether a physical address lies in a bank that is still waking: its access stalls (R120). -/
def State.stalls (s : State) (pa : Nat) : Bool :=
  rgn pa == 1 && s.isLocal pa && (let p := spPlace pa; (s.plane p.1 p.2.1).waking.getLsbD (bankOf p.2.2))

/-- Whether an access by a wall stalls at a place: for a bank that wakes, or for a way pair of its bay's slice that does (R120). -/
def State.stallsAt (s : State) (wall : Option Nat) (p : Place) : Bool :=
  s.stalls p.pa || (match wall with | some w => p.cacheable && s.bayWaking (bayOf w) | none => false)

/-- The wall through whose caches the focused agent's accesses go: a system core has none. -/
def Course.cacheWall (c : Course) : Option Nat := if c.sys.isSome then none else some c.wall

/-- Whether a physical address lies in a bank that is gated off (R368). -/
def State.gatedAt (s : State) (pa : Nat) : Bool :=
  rgn pa == 1 && s.isLocal pa && (let p := spPlace pa; (s.plane p.1 p.2.1).gated p.2.2)

/-- Whether a place's sector is poisoned for a reader: one of a working frame if it is marked itself, any other by its home too (R179, R366). -/
def State.placePoisoned (s : State) (x : Ctx) (p : Place) : Bool :=
  if p.mem = p.pa then s.poisonedUnless (s.holdsFor x (p.pa / 32)) p.pa else Sparse.get s.poison (p.mem / 32) false

/-- The faults of a lane that its place alone decides, in the order of R354: sector crossing, misaligned atomic, gated
bank, poison. A peer that does not answer is found later (R376). -/
def State.placeFault (s : State) (x : Ctx) (h : How) (p : Place) : Option (Code × Option Nat) :=
  if crosses p.pa p.w then some (if h.atomic then 0x0A else 0x09, none)
  else if s.gatedAt p.pa then some (0x0D, none)
  else if h.acc.rd && s.placePoisoned x p then some (0x0C, some p.pa)
  else none

/-- A lane whose place is known. -/
def State.placed (s : State) (x : Ctx) (h : How) (l : Lane) (p : Place) : LaneR :=
  match s.placeFault x h p with
  | some f => .fault l.t l.va f.1 f.2
  | none => .place p

/-- A lane's place in a scratchpad: always race-checked (R140). -/
def Lane.inScratch (l : Lane) (va pa : Nat) : Place := { t := l.t, va := va, w := l.w, pa := pa, chk := true }

/-! Snapshot domains (R179). -/

/-- Where the working frame of launch n for a page stands in `State.mem`: above every physical address, as the manual names no frame
for it (log entry 41, DESIGN CHOICE). -/
def workAt (n pa : Nat) : Nat := 2 ^ 53 * (n + 1) + pa

/-- Whether a virtual page lies in a launch's snapshot domain (R179): its range table is in HBM. -/
def State.inDomain (s : State) (l : Launch) (va : Nat) : Bool :=
  (List.range l.hdr.snapCount).any (fun i =>
    let base := s.loadNat (l.hdr.snapTab.toNat + 16 * i) 8
    let len := s.loadNat (l.hdr.snapTab.toNat + 16 * i + 8) 8
    base ≤ va && va < base + len)

/-- Whether a write by launch n at a virtual address goes to a working frame (R179). -/
def State.writesWork (s : State) (n va pa : Nat) : Bool :=
  match s.launches[n]? with
  | some l => l.snapOpen && rgn pa != 1 && (l.snapPages.contains (pa / 2 ^ 14) || s.inDomain l va)
  | none => false

/-- The place of an access of a launch: in the working frame, if its page has one or the access will make one (R179). -/
def State.framed (s : State) (launch : Option Nat) (wr : Bool) (p : Place) : Place :=
  match launch with
  | none => p
  | some n =>
    match s.launches[n]? with
    | none => p
    | some l =>
      if !l.snapOpen || rgn p.pa == 1 then p
      else if l.snapPages.contains (p.pa / 2 ^ 14) then { p with mem := workAt n p.pa, sec := workAt n p.pa / 32 }
      else if wr && s.inDomain l p.va then { p with sec := workAt n p.pa / 32 }
      else p

/-- The first write of launch n to a page of its open snapshot domain copies the committed frame into the working one, and the wall that
writes is noted with the time (R179, R180); where the write goes is given too. -/
def State.ownFrame (s : State) (n wall va pa : Nat) : Nat × State :=
  match s.launches[n]? with
  | none => (pa, s)
  | some l =>
    if !s.writesWork n va pa then (pa, s)
    else
      let page := pa / 2 ^ 14
      let s := if l.snapPages.contains page then s
        else { s with
          mem := (s.mem.filter (fun c => c.1 / 2 ^ 14 == page)).foldl (fun m c => Sparse.set m (workAt n c.1) c.2 0) s.mem
          rels := s.rels ++ (s.rels.filter (fun e => e.1 / 2 ^ 14 == page)).map (fun e => (workAt n e.1, e.2))
          poison := (s.poison.filter (fun e => e.1 / 512 == page)).foldl (fun t e => Sparse.put t (workAt n (32 * e.1) / 32) true) s.poison }
      (workAt n pa, s.modLaunch n (fun l =>
        { l with snapPages := if l.snapPages.contains page then l.snapPages else l.snapPages ++ [page],
                 snapWalls := Sparse.put l.snapWalls wall (s.count (dieOf wall)) }))

/-- A lane of global data whose physical address, memory type and granule are known. -/
def State.placedGlobal (s : State) (x : Ctx) (h : How) (l : Lane) (va pa : Nat) (chk : Bool) (ca gr : Nat) : LaneR :=
  s.placed x h l (s.framed x.launch h.acc.wr { t := l.t, va := va, w := l.w, pa := pa, chk := chk, ca := ca, gr := gr })

/-- A lane through the TLBs (R152). Log entry 58, DEDUCED. -/
def State.laneGlobal (s : State) (x : Ctx) (h : How) (l : Lane) (va : Nat) : LaneR × State :=
  match s.translate x va h.acc with
  | (.ok f, s) => (s.placedGlobal x h l va (f.place va) f.chk f.ca f.gr, s)
  | (.fail c, s) => (if c = 0x04 && h.nr then .absent l.t else .fault l.t l.va c none, s)
  | (.poison pa, s) => (.fault l.t l.va 0x0C (some pa), s)

/-- A lane of the focused agent, through a translation register where one is named and covers it (R98, R156), otherwise
through the TLBs; a lane that a scratchpad register does not cover is a scratchpad-bounds fault. A base past the address width faults as
the lane's own address would (R145). -/
def State.lane (s : State) (x : Ctx) (reg : Option BReg) (h : How) (l : Lane) : LaneR × State :=
  if 2 ^ 56 ≤ l.va then (.fault l.t l.va 0x06 none, s)
  else
    match reg with
    | none =>
      (s.seePublish (pubCarries s.shadows x.asid l.va l.w)).laneGlobal x h l (shadowMove s.shadows x.asid l.va true)
    | some r =>
      if 2 ^ 56 ≤ r.base.toNat then (.fault l.t l.va 0x06 none, s)
      else
      let s := if r.mode then s else s.seePublish (pubCarries s.shadows x.asid l.va l.w)
      let va := if r.mode then l.va else shadowMove s.shadows x.asid l.va true
      let o := (BitVec.ofNat 64 va - r.base).toNat
      if o + l.w ≤ r.lim.toNat ∧ (r.mode → r.frame.toNat + o + l.w ≤ 0x100000) then
        let s := if s.cur.sys.isSome then s else s.countEvent s.cur.wall 6 1
        if !r.mode && s.rangeBad x (r.frame.toNat + o) then (.fault l.t l.va 0x07 none, s)
        else if (h.acc.rd && !r.rd) || (h.acc.wr && !r.w) then (.fault l.t l.va 0x03 none, s)
        else if r.mode then
          let c := s.cur
          let bufs := (s.plane c.wall c.plane).shadows
          let s := s.seePublish (pubCarries bufs c.asid (r.frame.toNat + o) l.w)
          let off := shadowMove bufs c.asid (r.frame.toNat + o) true
          (s.placed x h l (l.inScratch va (s.scratch c.wall c.plane off)), s)
        else (s.placedGlobal x h l va (r.frame.toNat + o) r.chk r.ca.toNat r.gr.toNat, s)
      else if r.mode then (.fault l.t l.va 0x08 none, s)
      else s.laneGlobal x h l va

/-- All lanes of an access, in turn. -/
def State.lanes (s : State) (x : Ctx) (reg : Option BReg) (h : How) : List Lane → List LaneR × State
  | [] => ([], s)
  | l :: r =>
    let (a, s) := s.lane x reg h l
    let (b, s) := s.lanes x reg h r
    (a :: b, s)

/-- What an access comes to: it traps with no effect but its reports, it must wait for a bank that wakes, or it may
take effect at these places, `absent` being the threads whose page is excused, answered by the peers it reaches or not. -/
inductive Reach where
  | trap (s : State) (t : Trp)
  | wait
  | ok (s : State) (ps : List Place) (absent : List Nat)
  /-- the same, but that the peers it reaches will not answer (R376) -/
  | lost (s : State) (ps : List Place) (absent : List Nat)
  deriving DecidableEq, Repr

/-- The places of a list of lanes. -/
def placesOf (rs : List LaneR) : List Place := rs.filterMap (fun r => match r with | .place p => some p | _ => none)

/-- The threads whose page is excused. -/
def absentOf (rs : List LaneR) : List Nat := rs.filterMap (fun r => match r with | .absent t => some t | _ => none)

/-- The sectors an access touches that are race-checked, each once: one access per sector (R128), in which its place lies whole. -/
def checkedSectors (ps : List Place) : List Nat := ((ps.filter (fun p => p.chk)).map (fun p => p.sec)).dedup

/-- The lanes with the race check applied to those that have no other fault (R142, R354). -/
def State.raced (s : State) (h : How) (wr : Nat → Bool) (rs : List LaneR) : List (LaneR × Option (DWord × DWord)) :=
  rs.map (fun r => match r with
    | .place p =>
      if p.chk then
        (r, (checkedSectors [p]).findSome? (fun n => s.raceOn s.cur.ident s.cur.sync n (wr n) h.atomic h.scope))
      else (r, none)
    | _ => (r, none))

/-- The code of a lane, if it faults. -/
def laneCode (e : LaneR × Option (DWord × DWord)) : Option (Nat × Code × DWord × Option Nat × DWord × DWord) :=
  match e with
  | (.fault t va c p, _) => some (t, c, BitVec.ofNat 64 va, p, 0, 0)
  | (.place p, some o) => some (p.t, 0x0B, BitVec.ofNat 64 (p.va - p.pa % 32), none, o.1, o.2)
  | _ => none

/-- The sectors of some places that go through the caches, each once, with the granule it comes in. -/
def State.cacheSectors (s : State) (ps : List Place) : List GranSector :=
  ((ps.filter Place.cacheable).map (fun p => (p.pa / 32, s.granCode p))).dedup

/-- What serving an access of a course moves: the bank-conflict counter, by the cycles in which a scratchpad bank serves a second and
further sector (R99, R348), and for a load of global data the wall and bay caches, whose misses are counted (R104, R105, R348). An
atomic is performed beyond the wall cache, in the bay's slice or at a peer's home (`State.cacheAtomics`). -/
def State.served (s : State) (h : How) (ps : List Place) : State :=
  if s.cur.sys.isSome then s
  else
    let w := s.cur.wall
    let sp := ((ps.filter (fun p => s.isLocal p.pa && rgn p.pa == 1)).map (fun p => p.pa / 32)).dedup
    let load (b : Nat) : Nat := (sp.filter (fun n => n % 64 == b)).length
    let s := s.countEvent w 7 ((List.range 64).foldl (fun m b => max m (load b)) 0 - 1)
    if h.acc.rd && !h.atomic then
      let r := s.cacheReads w h.hint (s.cacheSectors ps)
      r.2.countEvent w 13 r.1
    else s

/-- The release counter with which the focused agent's access to a sector is stamped (R131): each sector of an instruction is one access
(R128), and each that is written as a release raises the counter for those after it, in the order in which `State.syncStores` performs them;
the sectors that are only read come first. -/
def State.stampOf (s : State) (h : How) (written : List Place) (sector : Nat) : DWord :=
  let releases := h.kind == 3 || h.kind == 4 || (h.kind == 1 && !s.cur.relFences.isEmpty)
  let ns := (written.map (fun p => p.sec)).dedup
  let before := if ns.contains sector then ns.takeWhile (fun n => n != sector) else []
  s.cur.sync.rc + BitVec.ofNat 64 (if releases then before.length else 0)

/-- The tags of the checked sectors of an access of the focused agent, updated in turn (R142). -/
def State.stamped (s : State) (h : How) (ps written : List Place) : State :=
  (checkedSectors ps).foldl (fun t n =>
    t.tagged t.cur.ident { t.cur.sync with rc := s.stampOf h written n } n (written.any (fun p => p.sec == n)) h.atomic h.scope) s

/-- The places of an access that lie on other devices. -/
def State.farOf (s : State) (ps : List Place) : List Place := ps.filter (fun p => !s.isLocal p.pa)

/-- Whether the requests of an access to other devices stay without an answer, which is open (R376; log entry 24, DESIGN CHOICE). -/
def State.unanswered (s : State) (ps : List Place) : Bool × State := if s.farOf ps = [] then (false, s) else s.drawBit

/-- The first address of each sector: what an instruction reads of one sector is one access (R128), and consumes its poison once (R367). -/
def onePerSector (as : List Nat) : List Nat :=
  as.foldl (fun l a => if l.any (fun b => b / 32 == a / 32) then l else l ++ [a]) []

/-- Every lane's faults are found before any lane takes effect (R214); without one, the race tags are updated (R142).
The lowest-numbered faulting thread gives the code and the detail, and the mask marks every faulting thread (R354,
R356). `wr` gives those of the places reached that the access writes: a compare-and-swap that does not write is
a read (R216). Log entry 31, DESIGN CHOICE. Log entry 60, DEDUCED. -/
def State.reachW (s : State) (x : Ctx) (reg : Option BReg) (h : How) (ls : List Lane)
    (wr : State → List Place → List Place) : Reach :=
  let (rs, s) := s.lanes x reg h ls
  let written := wr s (placesOf rs)
  let es := s.raced h (fun n => written.any (fun p => p.sec == n)) rs
  let fs := es.filterMap laneCode
  match fs.foldl (fun o f => match o with | none => some f | some g => if f.1 < g.1 then some f else some g) none with
  | some (_, c, va, _, other, rc) =>
    let s := (onePerSector (fs.filterMap (fun f => f.2.2.2.1))).foldl (fun s pa => s.poisonUsed pa s.cur.ident s.cur.die) s
    .trap s { code := c, detail := va, fmask := maskOf (fs.map (fun f => f.1)), other := other, otherRc := rc,
              rc := if c = 0x0B then s.cur.sync.rc else 0 }
  | none =>
    let ps := placesOf rs
    if ps.any (s.stallsAt s.cur.cacheWall) then .wait
    else
      let (lost, s) := s.unanswered ps
      let t := (s.stamped h ps written).served h ps
      if lost then .lost t ps (absentOf rs) else .ok t ps (absentOf rs)

/-- `State.reachW` for an access that writes all its places or none. -/
def State.reach (s : State) (x : Ctx) (reg : Option BReg) (h : How) (ls : List Lane) : Reach :=
  s.reachW x reg h ls (fun _ ps => if h.acc.wr then ps else [])

/-! Effects. -/

/-- Stored bytes leave the parameter-block cache of the wall whose scratchpad they lie in (R108): an entry is the
offset of a 32-byte block. -/
def State.dropBlocks (s : State) (pa n : Nat) : State :=
  if rgn pa = 1 ∧ s.isLocal pa then
    let p := spPlace pa
    let w := s.wall p.1
    if w.pcache = [] then s
    else s.setWall p.1 { w with pcache := w.pcache.filter (fun b => !(b < p.2.2 + n && p.2.2 < b + 32)) }
  else s

/-- The stores of the focused agent to some places go through its wall's caches (R104, R105). -/
def State.cacheStores (s : State) (h : How) (ps : List Place) : State :=
  match s.cur.cacheWall with
  | some w => s.cacheWrites (bayOf w) h.hint (s.cacheSectors ps)
  | none => s

/-- The read-modify-writes of the focused agent at some places, of which it writes some, use its bay's slice (R96, R105); a peer's are
performed at its home directory and leave the slice as it is (R96, R388). -/
def State.cacheAtomics (s : State) (h : How) (ps written : List Place) : State :=
  let mine (ps : List Place) : List Place := ps.filter (fun p => s.isLocal p.pa)
  match s.cur.cacheWall with
  | some w => (s.bayReads (bayOf w) h.hint (s.cacheSectors (mine ps))).cacheStores h (mine written)
  | none => s

/-- What persist scope asks of stores to client memory (R20): their sectors are written back at once. -/
def State.persisted (s : State) (h : How) (ps : List Place) : State :=
  if h.scope = 9 then s.writeBack (fun n => rgn (32 * n) == 2 && ps.any (fun p => p.pa / 32 == n)) else s

/-- Poison is cleared in every sector of which one access writes all 32 bytes (R366). -/
def State.cleanse (s : State) (ps : List Place) : State :=
  if s.poison = [] then s
  else
    let full (n : Nat) : Bool := (List.range 32).all (fun i => ps.any (fun p => p.key ≤ 32 * n + i && 32 * n + i < p.key + p.w))
    { s with poison := s.poison.filter (fun e => !full e.1) }

/-- The launch of the focused agent. -/
def State.launchOf (s : State) : Option Launch := if s.cur.sys.isSome then none else s.launches[s.cur.launch]?

/-- The working frames that stores of the focused agent to some places need are there (R179). -/
def State.openFrames (s : State) (ps : List Place) : State :=
  if s.cur.sys.isSome then s else ps.foldl (fun s p => (s.ownFrame s.cur.launch s.cur.wall p.va p.pa).2) s

/-- The bytes of one place are stored by the focused agent, with everything a store moves beside them. -/
def State.storeAt (s : State) (p : Place) (x : Nat) : State :=
  let (a, s) := if s.cur.sys.isSome then (p.pa, s) else s.ownFrame s.cur.launch s.cur.wall p.va p.pa
  ((s.dropBlocks p.pa p.w).pastHost p.pa p.w).storeNat a p.w x

/-- Places with their values are stored in turn: of two that write one byte, the later stands (R212). -/
def State.storeAll (s : State) (h : How) (ps : List (Place × Nat)) : State :=
  let s := s.openFrames (ps.map Prod.fst)
  let s := s.syncStores h.kind h.scope false (ps.map (fun e => (e.1.key, e.1.w)))
  let s := (s.cacheStores h (ps.map Prod.fst)).cleanse (ps.map Prod.fst)
  (ps.foldl (fun s e => s.storeAt e.1 e.2) s).persisted h (ps.map Prod.fst)

/-- The value a place holds. -/
def State.valueAt (s : State) (p : Place) : Nat := s.loadNat p.mem p.w

/-- The value of an address sum in 64 bits. -/
def addr (base : DWord) (off : Nat) : Nat := (base + BitVec.ofNat 64 off).toNat

/-- What a flag-class memory access leaves to do at its completion: a peer's answer is awaited (R376, R389), a store without
a flag is counted (R173). -/
def State.memAct (s : State) (ps : List Place) (store : Bool) (sig : Option Nat) : Act :=
  let counted := if store && sig.isNone && s.cur.sys.isNone then some s.cur.wall else none
  if s.farOf ps ≠ [] then .peer counted
  else if store then .store counted ((ps.filter (fun p => rgn p.pa == 1)).map (fun p => ((spPlace p.pa).2.2, p.w)))
  else .none

/-- A store without a flag raises its wall's outstanding counter for the launch (R173). -/
def State.countOut (s : State) (a : Act) : State :=
  match a with
  | .store (some w) _ | .peer (some w) =>
      s.modLaunch s.cur.launch (fun l => { l with outst := Sparse.set l.outst w (Sparse.get l.outst w 0 + 1) 0 })
  | _ => s

/-- The wall whose outstanding counter counts a work item (R173). -/
def Act.counted : Act → Option Nat
  | .store w _ => w
  | .peer w => w
  | .lost _ _ _ w _ => w
  | _ => Option.none

/-- The stream of the focused agent waits at its word for an answer that will not come (R376): `va` is the lowest lane's address. -/
def State.unheard (s : State) (va : Nat) (lanes : Mask) (wall : Option Nat) (st : Stream) : State :=
  let k : Work := ⟨s.nextId, st, none, 0, none, none, [], .lost s.word va lanes wall s.now⟩
  { s with nextId := s.nextId + 1 }.modC (fun c => { c with work := c.work ++ [k] })

/-- What becomes of an instruction whose peers will not answer (R376): it does not issue, and its stream waits at it; a store or an atomic of it
has been performed once or not at all, as an open value says (log entry 24, DESIGN CHOICE). `r` is what the instruction comes to otherwise,
`lanes` are those that its trap marks. -/
def State.lose (s : State) (ps : List Place) (lanes : Mask) (r : Res) : Res :=
  let va := ((s.farOf ps).foldl (fun (b : Nat × Nat) p => if p.t < b.1 then (p.t, p.va) else b) (96, 0)).2
  match r with
  | .done t p =>
    let done := Config.freeBit s.free
    let u := if done then { t with cur := { s.cur with atoms := t.cur.atoms, sync := { s.cur.sync with rc := t.cur.sync.rc } } } else s
    .wait ({ u with free := t.free + 1 }.unheard va lanes (if done then p.act.counted else none) (s.cur.streamOf true))
  | r => r

/-- An instruction's outcome from the reach of its access. -/
def Reach.res (r : Reach) (s0 : State) (f : State → List Place → List Nat → Res) : Res :=
  match r with
  | .trap s t => .trap s t
  | .wait => .wait s0
  | .ok s ps absent => f s ps absent
  | .lost s ps absent => s.lose ps (maskOf ((s.farOf ps).map (fun p => p.t))) (f s ps absent)

end Sys2Proof.Machine
end

