-- ==== Sys2Proof/Machine/Fetch.lean ====
section
/-! DEFINITION. Fetching an agent's words (R181, R182, R198, R310), and what the word at the program counter is. -/

namespace Sys2Proof.Machine

/-- The words a stream has fetched (R182). -/
def Course.icache (c : Course) : Stream → Sparse (BitVec 128)
  | .addr => c.icacheA
  | .comp => c.icacheC

/-- A fetched word is kept. -/
def Course.keepWord (c : Course) (st : Stream) (a : Nat) (w : BitVec 128) : Course :=
  match st with
  | .addr => { c with icacheA := Sparse.put c.icacheA a w }
  | .comp => { c with icacheC := Sparse.put c.icacheC a w }

/-- What the next word of a stream is: an instruction, the trap that its fetch or its decoding raises, or nothing yet, where a peer does not
answer the fetch (R376). -/
inductive NextWord where
  | instr (i : Instr)
  | bad (k : Ctl) (t : Trp)
  | lost
  deriving DecidableEq, Repr

/-- The place of a code word in a page. -/
def Leaf.codePlace (l : Leaf) (va w : Nat) : Place := { t := 0, va := va, w := w, pa := l.place va, chk := false, ca := l.ca, gr := l.gr }

/-- The context of a course's fetches: of the whole word (R315). -/
def Course.fetchCtx (c : Course) (st : Stream) : Ctx := { c.ctx with w := c.wordBytes st }

/-- A fetch of the focused agent reads a sector through its bay's slice (R96, R105). -/
def State.fetchReads (s : State) (p : Place) : State :=
  match s.cur.cacheWall with
  | some w => s.bayReads (bayOf w) {} (s.cacheSectors [p])
  | none => s

/-- Whether the next fetch of a stream of the focused agent stalls: its cache does not hold the word, and the slice it would come through has a
way pair that is waking (R120). -/
def State.fetchStalls (s : State) (st : Stream) : Bool :=
  let va := (s.cur.pc st).toNat
  match s.cur.cacheWall with
  | none => false
  | some w => s.bayWaking (bayOf w) && (s.cur.icache st).all (fun e => e.1 != va) &&
      (match (s.translate (s.cur.fetchCtx st) va { ex := true }).1 with
       | .ok l => (l.codePlace va (s.cur.wordBytes st)).cacheable
       | _ => false)

/-- A fetch of the word at an address by the focused agent: through translation with execute permission (R150). A word
that was fetched before and has been stored to since reads as the old word or the new one (R182). A fetch from region 11, whose registers
have no word that wide, is a physical-range fault (R315). A course's word that its cache does not hold comes through the bay's slice (R96).
Of a word that has been stored to and that the stream has not fetched before, the new value is read (log entry 3, DESIGN CHOICE). A fetch that
a peer does not answer comes to 0x10 (R376). -/
def State.fetchAt (s : State) (st : Stream) (va : Nat) : Except Trp (BitVec 128) × State :=
  match s.translate (s.cur.fetchCtx st) va { ex := true } with
  | (.fail c, s) => (.error { code := c, detail := BitVec.ofNat 64 va }, s)
  | (.poison pa, s) => (.error { code := 0x0C, detail := BitVec.ofNat 64 va }, s.poisonUsed pa s.cur.ident s.cur.die)
  | (.ok l, s) =>
    let pa := l.place va
    if rgn pa = 3 then (.error { code := 0x07, detail := BitVec.ofNat 64 va }, s)
    else
      let p := s.framed s.cur.ctx.launch false (l.codePlace va (s.cur.wordBytes st))
      if s.placePoisoned s.cur.ctx p then
        (.error { code := 0x0C, detail := BitVec.ofNat 64 va }, s.poisonUsed pa s.cur.ident s.cur.die)
      else
      let new := BitVec.ofNat 128 (s.loadNat p.mem p.w)
      match (s.cur.icache st).find? (fun e => e.1 == va) with
      | none =>
        let (lost, s) := s.unanswered [p]
        if lost then (.error { code := 0x10, detail := BitVec.ofNat 64 va }, s)
        else (.ok new, (s.fetchReads p).modC (fun c => c.keepWord st va new))
      | some e =>
        if e.2 = new then (.ok new, s)
        else (let r := s.drawBit; (.ok (if r.1 then new else e.2), r.2))

/-- The word at the program counter of a stream of the focused agent. -/
def State.fetch (s : State) (st : Stream) : Except Trp (BitVec 128) × State := s.fetchAt st (s.cur.pc st).toNat

/-- The control fields of a stream's word (R184, R189, R199). -/
def Course.wordCtl (c : Course) (st : Stream) (w : Nat) : Ctl :=
  match st with
  | .addr => Ctl.of w 44
  | .comp => if c.w6 then Ctl.of (translateW6 w) 108 else Ctl.of w 108

/-- The instruction a stream reads from a word, or the check of R183 that the word fails. -/
def Course.decodeIn (c : Course) (st : Stream) (w : Nat) : Dec :=
  match st with
  | .addr => decodeWord true false w
  | .comp => decodeWord false c.unified (if c.w6 then translateW6 w else w)



/-- The next word of a stream of the focused agent; it stands in `State.word` as its trap record would carry it
(R356). -/
def State.nextWord (s : State) (st : Stream) : NextWord × State :=
  match s.fetch st with
  | (.error t, s) => (if t.code = 0x10 then .lost else .bad ⟨0, 0, 0⟩ t, { s with word := 0 })
  | (.ok w, s) =>
    (match s.cur.decodeIn st w.toNat with
     | .ok i => .instr i
     | .error e => .bad (s.cur.wordCtl st w.toNat) { code := e.code },
     { s with word := w })

/-- A word that cannot be run traps once conditions 1 to 3 of R33 hold for it (R183). -/
def State.badWord (s : State) (st : Stream) (k : Ctl) (t : Trp) : State :=
  if s.frontReady st k.dist.toNat then s.trapAt st t else s

/-- A trap at the next instruction of the address stream, whatever it is (R113). -/
def State.trapNext (s : State) (code : Code) : State :=
  let st := s.cur.streamOf true
  (s.nextWord st).2.trapAt st { code := code }

end Sys2Proof.Machine
end

