-- ==== Sys2Proof/Machine/Control.lean ====
section
/-! DEFINITION. Control flow of the address stream (R221 to R223), barriers (R224, R225, R381), sleeping and events (R226,
R227), and the wake-up after `SLEEPT` (R113). -/

namespace Sys2Proof.Machine

/-! Branches. -/

/-- A transfer of control to an address, with register writes at latency 1; an address that is no word address of the
stream traps at the transferring instruction (R181). -/
def State.jump (s : State) (target : DWord) (ws : List RegWrite) : Res :=
  if s.cur.misaligned (s.cur.streamOf true) target then .trap s { code := 0x66 }
  else .done s { lat := some 1, writes := ws, target := some target }

/-- The target of an address-stream branch (R188, R221). -/
def Course.branchA (c : Course) (off : BitVec 26) : DWord := c.pc (c.streamOf true) + off.signExtend 64 * 8

/-- BR (R221). -/
def execBr (k : Ctl) (off : BitVec 26) (s : State) : Out := execA k (fun s => s.jump (s.cur.branchA off) []) s

/-- BCND (R221). -/
def execBcnd (k : Ctl) (cc : BitVec 4) (ra : BitVec 6) (off : BitVec 26) (s : State) : Out :=
  execA k (fun s =>
    if cond cc.toNat (s.cur.S ra.toNat) 0 then s.jump (s.cur.branchA off) [] else regs 1 [] s) s

/-- What a link receives: the instruction's own address + 8, in a unified course too, whose native words are 16 bytes (R195, R221,
R222). -/
def Course.linkPc (c : Course) : DWord := c.pc (c.streamOf true) + 8

/-- CALL (R221). -/
def execCall (k : Ctl) (off : BitVec 26) (s : State) : Out :=
  execA k (fun s => s.jump (s.cur.branchA off) (pairWrites 56 s.cur.linkPc)) s

/-- LOOP (R221). -/
def execLoop (k : Ctl) (cc : BitVec 4) (ra : BitVec 6) (off : BitVec 26) (s : State) : Out :=
  execA k (fun s =>
    let x := s.cur.S ra.toNat - 1
    if cond cc.toNat x 0 then s.jump (s.cur.branchA off) [.s ra.toNat x] else regs 1 [.s ra.toNat x] s) s

/-- RET (R222). -/
def execRet (k : Ctl) (s : State) : Out := execA k (fun s => s.jump (s.cur.S64 56) []) s

/-- JMPR (R222): the target is read before the link is written. -/
def execJmpr (k : Ctl) (rd ra : BitVec 6) (s : State) : Out :=
  execA k (fun s => s.jump (s.cur.S64 ra.toNat)
    (if rd = 0 then [] else pairWrites rd.toNat s.cur.linkPc)) s

/-- EXIT (R223, R38): the address stream ends, and with it the one stream of a unified course (R196). -/
def execExit (k : Ctl) (s : State) : Out :=
  execA k (fun s => regs 1 [] (s.modC (fun c => { c with endA := true, endC := c.endC || c.unified }))) s

/-! Barriers. -/

/-- The unit of a barrier instance (R224), a gang's with its plane; none at course scope, and at gang scope without a gang (R19). -/
def Course.barUnit (c : Course) (scope : Nat) : Option Nat :=
  match scope with
  | 2 => (c.gangKey).map (fun g => (3 * c.wall + c.plane) * 256 + g.2)
  | 3 => some (3 * c.wall + c.plane)
  | 4 => some (bayOf c.wall)
  | 5 => some (yardOf c.wall)
  | 6 => some 0
  | _ => none

/-- The state of a barrier instance (R225). -/
def State.barrier (s : State) (lid : Word) (scope unit id : Nat) : Barrier :=
  if scope = 3 then Sparse.get (Sparse.get s.planes unit Plane.zero).bars id Barrier.zero
  else if scope = 2 then
    (((Sparse.get s.planes (unit / 256) Plane.zero).gbars.find? (fun e => e.1 == (lid, unit % 256, id))).map Prod.snd).getD
      Barrier.zero
  else ((s.gbars.find? (fun e => e.1 == (lid, scope, unit, id))).map Prod.snd).getD Barrier.zero

/-- The state with that of a barrier instance replaced. -/
def State.setBarrier (s : State) (lid : Word) (scope unit id : Nat) (b : Barrier) : State :=
  if scope = 3 then
    let p := Sparse.get s.planes unit Plane.zero
    { s with planes := Sparse.set s.planes unit { p with bars := Sparse.set p.bars id b Barrier.zero } Plane.zero }
  else if scope = 2 then
    let p := Sparse.get s.planes (unit / 256) Plane.zero
    let key := (lid, unit % 256, id)
    let rest := p.gbars.filter (fun e => e.1 != key)
    let p' := { p with gbars := rest ++ (if b = Barrier.zero then [] else [(key, b)]) }
    { s with planes := Sparse.set s.planes (unit / 256) p' Plane.zero }
  else { s with gbars := s.gbars.filter (fun e => e.1 != (lid, scope, unit, id)) ++ [((lid, scope, unit, id), b)] }

/-- The course has passed one more barrier of an instance (R141). -/
def Course.passOne (c : Course) (scope : Nat) (inst : DWord) : Course := c.pass scope inst (c.passed scope inst + 1)

/-- A held course goes on (R224): it merges what the departure carries, its status is written one cycle later, and its
stream stands at the next word. A departure with a status other than 0 passes no barrier (R381). Log entry 46, DEDUCED. -/
def Course.depart (c : Course) (cycle : Nat) (cs : List Carry) (status : Word) : Course :=
  match c.hold with
  | .bar sc u i _ rd _ =>
    let st := c.streamOf true
    let c := if status = 0 then c.passOne sc (instanceOf c.lid u i) else c
    { c.setPc st (c.nextPc st) with
      hold := .none, sync := c.sync.depart c.ident cs,
      work := c.work.map (fun k => if k.act = .bar then
        { k with due := some (cycle + 1), writes := [.s rd status], act := .none } else k) }
  | _ => c

/-- Whether a course is resident in an Active plane. -/
def State.active (s : State) (c : Course) : Bool := c.resident && (s.plane c.wall c.plane).st == .active

/-- Every course held at an instance departs: at once in an Active plane, at its resumption otherwise (R225). -/
def State.departAll (s : State) (lid : Word) (scope unit id : Nat) (cs : List Carry) : State :=
  s.modAll (fun c => match c.hold with
    | .bar sc u i e rd none =>
      if c.lid = lid ∧ sc = scope ∧ u = unit ∧ i = id then
        (if s.active c then c.depart (s.cycleOf c.die) cs 0 else { c with hold := .bar sc u i e rd (some cs) })
      else c
    | _ => c)

/-- The courses of a plane whose barrier departed while they were away go on (R225). -/
def State.departDue (s : State) (w p : Nat) : State :=
  s.modWhere (fun c => c.wall == w && c.plane == p && s.active c) (fun c => match c.hold with
    | .bar _ _ _ _ _ (some cs) => c.depart (s.cycleOf c.die) cs 0
    | _ => c)

/-- An instance that is abandoned counts no arrival any more (R381). -/
def Barrier.dropped (b : Barrier) : Barrier := { b with count := 0, carries := [] }

/-- The instances of a launch that a plane holds are abandoned. -/
def Plane.dropBarriers (p : Plane) (lid : Word) : Plane :=
  { p with bars := p.bars.map (fun (e : Nat × Barrier) => (e.1, if e.2.lid = lid then e.2.dropped else e.2)),
           gbars := p.gbars.map (fun e => (e.1, if e.1.1 = lid then e.2.dropped else e.2)) }

/-- The instances of a launch of an ASID are abandoned, wherever they are kept: another launch that shares an id waits for them no longer
(R225, R381). -/
def State.dropBarriers (s : State) (lid : Word) (asid : Nat) : State :=
  let drop (m : Sparse Plane) : Sparse Plane := m.map (fun (e : Nat × Plane) => (e.1, if e.2.asid = some asid then e.2.dropBarriers lid else e.2))
  { s with planes := drop s.planes, shelf := drop s.shelf,
           gbars := s.gbars.map (fun e => (e.1, if e.1.1 = lid then e.2.dropped else e.2)) }

/-- A course held at an instance that is abandoned departs with 0x27; one whose generation departed while its plane was away keeps its own
departure (R225). -/
def Course.abandoned (c : Course) (cycle : Nat) : Course :=
  match c.hold with
  | .bar _ _ _ _ _ none => c.depart cycle [] 0x27
  | _ => c

/-- The barriers of a launch wider than a course are abandoned (R381): every course held at one departs with the status
0x27, which is no acquire and advances no epoch. -/
def State.abandon (s : State) (n : Nat) : State :=
  match s.launches[n]? with
  | none => s
  | some l =>
    ((s.modLaunch n (fun l => { l with abandoned := true })).dropBarriers l.lid l.asid).modWhere
      (fun c => c.sys.isNone && c.launch == n) (fun c => c.abandoned (s.cycleOf c.die))

/-- The arrival of the focused course at an instance (R224). Log entry 33, DESIGN CHOICE. -/
def State.arrive (s0 : State) (rd scope unit id n : Nat) : Res :=
  let c := s0.cur
  let b := s0.barrier c.lid scope unit id
  if scope = 3 ∧ b.count ≠ 0 ∧ b.lid ≠ c.lid then .wait s0
  else if b.count ≠ 0 ∧ b.n ≠ n then .trap s0 { code := 0x65 }
  else
    let (carry, s) := s0.releaseC scope
    let inst := instanceOf c.lid unit id
    let cs := b.carries ++ [carry]
    if b.count + 1 = n then
      let b := { b with lid := c.lid, n := n, count := 0, epoch := b.epoch + 1, carries := [], last := cs.map (fun e => e.who) }
      let s := (s.setBarrier c.lid scope unit id b).departAll c.lid scope unit id cs
      regs 1 [.s rd 0] (s.modC (fun c => { c.passOne scope inst with sync := c.sync.depart c.ident cs }))
    else
      let b := { b with lid := c.lid, n := n, count := b.count + 1, carries := cs }
      let s := s.setBarrier c.lid scope unit id b
      .done (s.modC (fun c => { c with hold := .bar scope unit id (b.epoch + 1) rd none }))
        { lat := none, act := .bar, target := some (c.pc (c.streamOf true)) }

/-- BAR (R224): a course-scope barrier departs at once, and so does any wider one of a launch whose barriers are
abandoned (R381). -/
def execBar (k : Ctl) (rd ra : BitVec 6) (id scope : BitVec 4) (s : State) : Out :=
  execCourse k {} (fun s =>
    let n := (s.cur.S ra.toNat).toNat
    if n = 0 ∨ 65535 < n then .trap s { code := 0x65 }
    else match s.cur.barUnit scope.toNat with
      | none =>
        let inst := instanceOf s.cur.lid 0 id.toNat
        let (carry, s) := s.releaseC 1
        regs 1 [.s rd.toNat 0] ((s.acquireC carry).modC (fun c => c.passOne 1 inst))
      | some unit =>
        if (s.launchOf.map (fun l => l.abandoned)).getD false then regs 1 [.s rd.toNat 0x27] s
        else s.arrive rd.toNat scope.toNat unit id.toNat n) s

/-! Sleeping and events. -/

/-- SLEEPT (R226): the stream is held until `SLEEPT_WAKE`. -/
def execSleept (k : Ctl) (rd : BitVec 6) (s : State) : Out :=
  execA k (fun s => regs 1 [] (s.modC (fun c => { c with hold := .sleep (c.S64 rd.toNat) }))) s

/-- Whether a course's sleep is over (R226). -/
def State.sleepOver (s : State) (c : Course) : Bool :=
  match c.hold with
  | .sleep v => v.toNat ≤ (s.count c.die).toNat
  | _ => false

/-- SLEEPT_WAKE (R226, R113): the stream goes on; a copy whose promise is at most the present tick and that has not
completed raises the missed-promise trap at the next instruction. The sleeping course of the Active plane wakes; one
that is switched out does so when it is back. -/
def execSleeptWake (who : DWord) (s : State) : Out :=
  .next (match s.focus who with
    | none => s
    | some s1 =>
      if s1.sleepOver s1.cur && s1.cur.trap.isNone && (s1.cur.sys.isSome || s1.active s1.cur) then
        let s2 := s1.modC (fun c => { c with hold := .none })
        if s2.cur.promises.any (fun p => p.2.toNat ≤ s2.now.toNat) then (s2.countEvent s2.cur.wall 9 1).trapNext 0x42
        else s2
      else s)

/-- WFE (R227). -/
def execWfe (k : Ctl) (s : State) : Out :=
  execA k (fun s => regs 1 [] (s.modC (fun c =>
    if c.event then { c with event := false } else { c with hold := .wfe }))) s

/-- SEV (R227): every course of the Active plane of the wall, the course itself included; on a system core, which has
no wall, the core alone. Log entry 61, DEDUCED. -/
def execSev (k : Ctl) (s : State) : Out :=
  execA k (fun s => regs 1 [] (
    if s.cur.sys.isSome then s.modC Course.setEvent
    else s.modWhere (fun c => c.sys.isNone && c.wall == s.cur.wall && s.active c) Course.setEvent)) s

end Sys2Proof.Machine
end

