-- ==== Sys2Proof/Machine/Fp.lean ====
section
/-! DEFINITION. Number formats (R79 to R82), exact values, rounding (R89 to R92) and the correctly rounded functions of
R235 to R238. -/

namespace Sys2Proof.Machine

/-! Exact values. A sticky value has its magnitude strictly between m × 2^e and (m + 1) × 2^e; the functions that make
one leave far more bits in m than any format keeps. -/

/-- A value before rounding. -/
inductive XVal where
  | nan
  | inf (neg : Bool)
  | fin (neg : Bool) (m : Nat) (e : Int) (sticky : Bool)
  deriving DecidableEq, Repr

/-- A zero of a sign. -/
def XVal.zero (neg : Bool) : XVal := .fin neg 0 0 false
/-- The value 1. -/
def XVal.one : XVal := .fin false 1 0 false

/-- Whether a value is a zero. -/
def XVal.isZero : XVal → Bool
  | .fin _ m _ st => m == 0 && !st
  | _ => false
/-- The sign of a value. -/
def XVal.neg : XVal → Bool
  | .nan => false
  | .inf n => n
  | .fin n _ _ _ => n
/-- The value with its sign set. -/
def XVal.withSign (x : XVal) (neg : Bool) : XVal :=
  match x with
  | .nan => .nan
  | .inf _ => .inf neg
  | .fin _ m e st => .fin neg m e st
/-- Absolute value. -/
def XVal.abs (x : XVal) : XVal := x.withSign false
/-- Negation. -/
def XVal.negate (x : XVal) : XVal := x.withSign (!x.neg)
/-- The value times 2^k. -/
def XVal.shift (x : XVal) (k : Int) : XVal :=
  match x with
  | .fin n m e st => .fin n m (e + k) st
  | x => x

/-- An integer as a value. -/
def XVal.ofInt (i : Int) : XVal := .fin (i < 0) i.natAbs 0 false

/-- Comparison of magnitudes of two finite exact values: less than. -/
def magLt (m1 : Nat) (e1 : Int) (m2 : Nat) (e2 : Int) : Bool :=
  let e := min e1 e2
  m1 * 2 ^ (e1 - e).toNat < m2 * 2 ^ (e2 - e).toNat

/-- x < y for exact values that are not NaN; zeros are equal. -/
def XVal.lt (x y : XVal) : Bool :=
  match x, y with
  | .inf true, .inf true => false
  | .inf true, .nan => false
  | .inf true, _ => true
  | .fin _ _ _ _, .inf n => !n
  | .fin n1 m1 e1 _, .fin n2 m2 e2 _ =>
    if m1 = 0 ∧ m2 = 0 then false
    else match n1, n2 with
      | true, false => true
      | false, true => false
      | false, false => magLt m1 e1 m2 e2
      | true, true => magLt m2 e2 m1 e1
  | _, _ => false

/-- x = y for values that are not NaN; zeros are equal. -/
def XVal.eqv (x y : XVal) : Bool := !x.lt y && !y.lt x

/-! Formats (R79, R80). -/

/-- A floating format: mantissa and exponent widths, bias, and whether its last exponent holds infinities and NaNs (0),
the one NaN of E4M3 (1), or ordinary values (2). -/
structure Fmt where
  man  : Nat
  exp  : Nat
  bias : Nat
  kind : Nat
  deriving DecidableEq, Repr

/-- FP32. -/
def fp32 : Fmt := ⟨23, 8, 127, 0⟩
/-- FP8 E4M3. -/
def e4m3 : Fmt := ⟨3, 4, 7, 1⟩

/-- The floating format of a code (R79). -/
def fmtOf : Nat → Option Fmt
  | 0 => some fp32
  | 1 => some ⟨7, 8, 127, 0⟩
  | 2 => some ⟨10, 5, 15, 0⟩
  | 3 => some e4m3
  | 4 => some ⟨2, 5, 15, 0⟩
  | 5 => some ⟨3, 2, 1, 2⟩
  | 6 => some ⟨2, 3, 3, 2⟩
  | 7 => some ⟨1, 2, 1, 2⟩
  | _ => none

/-- Width in bits of an integer format, and whether it is signed (R79). -/
def intOf : Nat → Option (Nat × Bool)
  | 8 => some (32, true)
  | 9 => some (16, true)
  | 10 => some (8, true)
  | 11 => some (4, true)
  | 13 => some (8, false)
  | 14 => some (32, false)
  | _ => none

/-- Width in bits of an element (R79). -/
def widthOf (code : Nat) : Nat :=
  match fmtOf code, intOf code with
  | some f, _ => 1 + f.exp + f.man
  | none, some i => i.1
  | none, none => 4

/-- The exact value of a floating code (R80). -/
def Fmt.decode (f : Fmt) (x : Nat) : XVal :=
  let m := x % 2 ^ f.man
  let e := x / 2 ^ f.man % 2 ^ f.exp
  let neg := x / 2 ^ (f.man + f.exp) % 2 == 1
  let top := 2 ^ f.exp - 1
  if f.kind = 0 ∧ e = top then (if m = 0 then .inf neg else .nan)
  else if f.kind = 1 ∧ e = top ∧ m = 2 ^ f.man - 1 then .nan
  else if e = 0 then .fin neg m (1 - (f.bias : Int) - f.man) false
  else .fin neg (2 ^ f.man + m) ((e : Int) - f.bias - f.man) false

/-- The value of an n-bit integer code. -/
def decodeInt (n : Nat) (signed : Bool) (x : Nat) : Int :=
  let v := x % 2 ^ n
  if signed && 2 ^ (n - 1) ≤ v then (v : Int) - 2 ^ n else v

/-- The value of an element of any format but I4X, from its code (R80). -/
def decodeElem (code x : Nat) : XVal :=
  match fmtOf code, intOf code with
  | some f, _ => f.decode x
  | none, some i => XVal.ofInt (decodeInt i.1 i.2 x)
  | none, none => .nan

/-- The canonical NaN of a format (R80), and +0 for a format without one. -/
def Fmt.nanCode (f : Fmt) : Nat :=
  match f.kind with
  | 0 => (2 ^ f.exp - 1) * 2 ^ f.man + 2 ^ (f.man - 1)
  | 1 => 2 ^ (f.man + f.exp) - 1
  | _ => 0

/-! Rounding (R89, R92). -/

/-- The parts of an instruction's rounding (R88, R92): mode (0 RNE, 1 RTZ, 2 RDN, 3 RUP, 4 stochastic), saturation,
subnormals kept, the lane's random word, and whether it is a conversion. -/
structure Rnd where
  mode : Nat
  sat  : Bool := false
  sub  : Bool := true
  word : Word := 0
  conv : Bool := false
  deriving DecidableEq, Repr

/-- Round to nearest even, subnormals kept. -/
def rne : Rnd := { mode := 0 }

/-- The integer multiple of 2^q that a magnitude rounds to. Log entry 91, DEDUCED. -/
def roundAt (r : Rnd) (neg : Bool) (m : Nat) (e : Int) (st : Bool) (q : Int) : Nat :=
  if q ≤ e then m * 2 ^ (e - q).toNat
  else
    let sh := (q - e).toNat
    let kept := m / 2 ^ sh
    let rest := m % 2 ^ sh
    let up := match r.mode with
      | 0 => 2 ^ (sh - 1) < rest || (rest == 2 ^ (sh - 1) && (st || kept % 2 == 1))
      | 1 => false
      | 2 => neg && (rest != 0 || st)
      | 3 => !neg && (rest != 0 || st)
      | _ =>
        let d := if r.conv then min sh 32 else 32
        2 ^ d ≤ rest * 2 ^ d / 2 ^ sh + r.word.toNat / 2 ^ (32 - d)
    if up then kept + 1 else kept

/-- The largest finite magnitude of a format: significand and exponent (R79). -/
def Fmt.largest (f : Fmt) : Nat × Int :=
  match f.kind with
  | 0 => (2 ^ (f.man + 1) - 1, (2 ^ f.exp - 2 : Int) - f.bias - f.man)
  | 1 => (2 ^ (f.man + 1) - 2, (2 ^ f.exp - 1 : Int) - f.bias - f.man)
  | _ => (2 ^ (f.man + 1) - 1, (2 ^ f.exp - 1 : Int) - f.bias - f.man)

/-- A code from its sign and the rest. -/
def Fmt.withSign (f : Fmt) (neg : Bool) (x : Nat) : Nat := if neg then x + 2 ^ (f.man + f.exp) else x

/-- The code of a magnitude k × 2^q that the format holds. -/
def Fmt.encMag (f : Fmt) (k : Nat) (q : Int) : Nat :=
  if k < 2 ^ f.man then k else (q + f.man + f.bias).toNat * 2 ^ f.man + (k - 2 ^ f.man)

/-- The code of the largest finite magnitude. -/
def Fmt.maxCode (f : Fmt) (neg : Bool) : Nat := f.withSign neg (f.encMag f.largest.1 f.largest.2)
/-- The code of an infinity, for a format that has one. -/
def Fmt.infCode (f : Fmt) (neg : Bool) : Nat := f.withSign neg ((2 ^ f.exp - 1) * 2 ^ f.man)

/-- A value rounded beyond the largest finite one (R89). -/
def Fmt.overflow (f : Fmt) (r : Rnd) (neg : Bool) : Nat :=
  if r.sat then f.maxCode neg
  else match f.kind with
    | 0 => if r.mode = 1 ∨ (r.mode = 3 ∧ neg) ∨ (r.mode = 2 ∧ !neg) then f.maxCode neg else f.infCode neg
    | 1 => f.withSign neg f.nanCode
    | _ => f.maxCode neg

/-- Whether a non-zero value is below 2^-126 in magnitude (R90). -/
def XVal.tiny : XVal → Bool
  | .fin _ m e _ => m != 0 && magLt m e 1 (-126)
  | _ => false

/-- A value with subnormals flushed to a zero of its sign where they are not kept (R90). -/
def XVal.flush (x : XVal) (sub : Bool) : XVal := if !sub && x.tiny then XVal.zero x.neg else x

/-- A value rounded to a floating format (R89). Flushing is the caller's (R90). -/
def Fmt.round (f : Fmt) (r : Rnd) (x : XVal) : Nat :=
  match x with
  | .nan => f.nanCode
  | .inf neg => (match f.kind with
      | 0 => f.infCode neg
      | 1 => if r.sat then f.maxCode neg else f.withSign neg f.nanCode
      | _ => f.maxCode neg)
  | .fin neg m e st =>
    if m = 0 then f.withSign neg 0
    else
      let q := max (e + m.log2 - f.man) (1 - (f.bias : Int) - f.man)
      let k := roundAt r neg m e st q
      let (k, q) := if 2 ^ (f.man + 1) ≤ k then (k / 2, q + 1) else (k, q)
      if f.largest.2 < q || (q == f.largest.2 && f.largest.1 < k) then f.overflow r neg
      else f.withSign neg (f.encMag k q)

/-- The range of an integer format. -/
def intRange (n : Nat) (signed : Bool) : Int × Int :=
  if signed then (-(2 ^ (n - 1) : Int), 2 ^ (n - 1) - 1) else (0, 2 ^ n - 1)

/-- A value rounded to an integer format (R89); `fromInt` when its source was an integer. -/
def roundInt (n : Nat) (signed : Bool) (r : Rnd) (fromInt : Bool) (x : XVal) : Int :=
  let lim := intRange n signed
  match x with
  | .nan => 0
  | .inf neg => if neg then lim.1 else lim.2
  | .fin neg m e st =>
    let k : Int := roundAt r neg m e st 0
    let v := if neg then -k else k
    if fromInt && !r.sat then decodeInt n signed (v % 2 ^ n).toNat else max lim.1 (min lim.2 v)

/-- A value rounded to FP32, flushed where subnormals are not kept. -/
def round32 (r : Rnd) (x : XVal) : Word := BitVec.ofNat 32 (fp32.round r (x.flush r.sub))

/-- The value of an FP32 word. -/
def val32 (x : Word) : XVal := fp32.decode x.toNat

/-! Exact arithmetic (R235). -/

/-- The sign of an exact zero sum (R89). -/
def zeroSum (mode : Nat) (n1 n2 : Bool) : XVal := XVal.zero (if n1 == n2 then n1 else mode == 2)

/-- The sum of two exact values, with the sign of a zero sum by the mode. -/
def XVal.add (mode : Nat) (x y : XVal) : XVal :=
  match x, y with
  | .nan, _ => .nan
  | _, .nan => .nan
  | .inf a, .inf b => if a == b then .inf a else .nan
  | .inf a, _ => .inf a
  | _, .inf b => .inf b
  | .fin n1 m1 e1 _, .fin n2 m2 e2 _ =>
    if m1 = 0 ∧ m2 = 0 then zeroSum mode n1 n2
    else
      let e := min e1 e2
      let a : Int := (m1 * 2 ^ (e1 - e).toNat : Nat)
      let b : Int := (m2 * 2 ^ (e2 - e).toNat : Nat)
      let t := (if n1 then -a else a) + (if n2 then -b else b)
      if t = 0 then zeroSum mode false true else .fin (t < 0) t.natAbs e false

/-- The product of two exact values. -/
def XVal.mul (x y : XVal) : XVal :=
  match x, y with
  | .nan, _ => .nan
  | _, .nan => .nan
  | .inf a, y => if y.isZero then .nan else .inf (a != y.neg)
  | x, .inf b => if x.isZero then .nan else .inf (x.neg != b)
  | .fin n1 m1 e1 _, .fin n2 m2 e2 _ => .fin (n1 != n2) (m1 * m2) (e1 + e2) false

/-- The quotient of two finite non-zero magnitudes, with at least 96 bits. -/
def divMag (m1 : Nat) (e1 : Int) (m2 : Nat) (e2 : Int) : Nat × Int × Bool :=
  let k := m2.log2 + 97
  let q := m1 * 2 ^ k / m2
  (q, e1 - e2 - k, q * m2 != m1 * 2 ^ k)

/-- The quotient of two exact values. -/
def XVal.div (x y : XVal) : XVal :=
  match x, y with
  | .nan, _ => .nan
  | _, .nan => .nan
  | .inf _, .inf _ => .nan
  | .inf a, y => .inf (a != y.neg)
  | x, .inf b => XVal.zero (x.neg != b)
  | .fin n1 m1 e1 _, .fin n2 m2 e2 _ =>
    if m2 = 0 then (if m1 = 0 then .nan else .inf (n1 != n2))
    else if m1 = 0 then XVal.zero (n1 != n2)
    else let (q, e, st) := divMag m1 e1 m2 e2; .fin (n1 != n2) q e st

/-- The integer square root, bit by bit from bit `n` down. -/
def isqrtFrom (x : Nat) : Nat → Nat → Nat
  | 0, r => if (r + 1) * (r + 1) ≤ x then r + 1 else r
  | n + 1, r => isqrtFrom x n (if (r + 2 ^ (n + 1)) * (r + 2 ^ (n + 1)) ≤ x then r + 2 ^ (n + 1) else r)

/-- The integer square root. -/
def isqrt (x : Nat) : Nat := isqrtFrom x (x.log2 / 2) 0

/-- `FSQRT` (R237). -/
def XVal.sqrt : XVal → XVal
  | .nan => .nan
  | .inf neg => if neg then .nan else .inf false
  | .fin neg m e _ =>
    if m = 0 then XVal.zero neg
    else if neg then .nan
    else
      let k := 200 + (e % 2).toNat
      let x := m * 2 ^ k
      let r := isqrt x
      .fin false r ((e - k) / 2) (r * r != x)

/-- `FRCP` (R237). -/
def XVal.rcp : XVal → XVal
  | .nan => .nan
  | .inf neg => XVal.zero neg
  | .fin neg m e _ => if m = 0 then .inf neg else let (q, e', st) := divMag 1 0 m e; .fin neg q e' st

/-- `FRSQ` (R237). -/
def XVal.rsq : XVal → XVal
  | .nan => .nan
  | .inf neg => if neg then .nan else XVal.zero false
  | .fin neg m e _ =>
    if m = 0 then .inf neg
    else if neg then .nan
    else
      let par := (e % 2).toNat
      let d := m * 2 ^ par
      let k := 100 + d.log2
      let z := 2 ^ (2 * k) / d
      let r := isqrt z
      .fin false r (-((e - par) / 2) - k) (r * r * d != 2 ^ (2 * k))

/-- Working precision of the transcendental functions, in bits. -/
def prec : Nat := 320
/-- ln 2 × 2^320, rounded down. -/
def ln2 : Nat := 0xb17217f7d1cf79abc9e3b39803f2f6af40f343267298b62d8a0d175b8baafa2be7b876206debac98

/-- The sum of y^n / n! from term n on, all scaled by 2^320; `fuel` terms. -/
def expSum (y : Nat) : Nat → Nat → Nat → Nat → Nat
  | 0, _, _, acc => acc
  | fuel + 1, n, term, acc => expSum y fuel (n + 1) (term * y / 2 ^ prec / (n + 1)) (acc + term)

/-- 2^f × 2^320 for a fraction f scaled by 2^320. -/
def exp2Frac (f : Nat) : Nat := expSum (f * ln2 / 2 ^ prec) 80 0 (2 ^ prec) 0

/-- `FEXP2` (R237): exact for integers; beyond the range of every format it only has to overflow or underflow. -/
def XVal.exp2 : XVal → XVal
  | .nan => .nan
  | .inf neg => if neg then XVal.zero false else .inf false
  | .fin neg m e _ =>
    if m = 0 then XVal.one
    else if !magLt m e 1 10 then (if neg then .fin false (2 ^ 64) (-2000) true else .fin false (2 ^ 64) 2000 true)
    else
      let a : Int := if 0 ≤ e then (m * 2 ^ e.toNat * 2 ^ prec : Nat)
                     else (m * 2 ^ prec / 2 ^ (-e).toNat : Nat)
      let exact := 0 ≤ e || m % 2 ^ (-e).toNat == 0
      let v := if neg then -a else a
      let n := v / 2 ^ prec
      let f := (v % 2 ^ prec).toNat
      if exact then .fin false 1 n false else .fin false (exp2Frac f) (n - prec) true

/-- The sum of z^(2i+1) / (2i+1) from power `p` on, scaled by 2^320. -/
def atanhSum (z2 : Nat) : Nat → Nat → Nat → Nat → Nat
  | 0, _, _, acc => acc
  | fuel + 1, i, p, acc => atanhSum z2 fuel (i + 1) (p * z2 / 2 ^ prec) (acc + p / (2 * i + 1))

/-- log2 of a significand in [1, 2) scaled by 2^320. -/
def log2Sig (x : Nat) : Nat :=
  let z := (x - 2 ^ prec) * 2 ^ prec / (x + 2 ^ prec)
  2 * atanhSum (z * z / 2 ^ prec) 110 0 z 0 * 2 ^ prec / ln2

/-- `FLOG2` (R237): exact for powers of two. -/
def XVal.log2 : XVal → XVal
  | .nan => .nan
  | .inf neg => if neg then .nan else .inf false
  | .fin neg m e _ =>
    if m = 0 then .inf true
    else if neg then .nan
    else
      let n : Int := e + m.log2
      if m = 2 ^ m.log2 then XVal.ofInt n
      else
        let v : Int := n * 2 ^ prec + (log2Sig (m * 2 ^ prec / 2 ^ m.log2) : Nat)
        .fin (v < 0) (if v < 0 then v.natAbs - 1 else v.natAbs) (-(prec : Int)) true

/-- `FMIN` and `FMAX` (R238): the other operand of a NaN; -0 below +0. -/
def XVal.minmax (wantMax : Bool) (x y : XVal) : XVal :=
  match x, y with
  | .nan, y => y
  | x, .nan => x
  | x, y =>
    let less := x.lt y || (x.isZero && y.isZero && x.neg && !y.neg)
    if less != wantMax then x else y

/-- The codes of `FCMP` (R238). -/
def fcond (code : Nat) (x y : XVal) : Bool :=
  let un := x == .nan || y == .nan
  match code with
  | 0 => !un && x.eqv y
  | 1 => un || !x.eqv y
  | 2 => !un && x.lt y
  | 3 => !un && !x.lt y
  | 4 => !un && !y.lt x
  | 5 => !un && y.lt x
  | 6 => !un
  | _ => un

/-- The word of `FCLASS` (R238). -/
def classOf (x : XVal) : Nat :=
  match x with
  | .nan => 8
  | .inf neg => if neg then 0 else 7
  | .fin neg m _ _ =>
    if m = 0 then (if neg then 3 else 4)
    else if x.tiny then (if neg then 2 else 5)
    else (if neg then 1 else 6)

/-- The atomic addition `.fadd` (R215): to FP32 by RNE, subnormals kept. -/
def fadd32 (x y : Word) : Word := round32 rne (XVal.add 0 (val32 x) (val32 y))

end Sys2Proof.Machine
end

