-- ==== Sys2Proof/Machine/Operands.lean ====
section
/-! DEFINITION. Operands of compute instructions: queue entries and ports (R31), vector, uniform and predicate fields (R230 to
R232), faces and threads acted on (R65, R66), format slots (R88), and the stochastic generator (R91). Every C-format
meaning goes through `execC`. -/

namespace Sys2Proof

/-! Fields of a C word (R189, R190). -/

/-- The operand sets of a word. -/
def CView.sets (c : CView) : List OpSet := c.a :: c.t.second.toList

/-- Whether the immediate stands in place of `S2`. -/
def CView.immS2 (c : CView) (sh : CShape) : Bool := c.t.immed.isSome && sh.imm == 1

/-- The classes of the fields of an operand set, with their values. -/
def CShape.fields (sh : CShape) (immS2 : Bool) (a : OpSet) : List (FClass × Nat) :=
  [(sh.d, a.d.toNat), (sh.s1, a.s1.toNat)] ++ (if immS2 then [] else [(sh.s2, a.s2.toNat)]) ++ [(sh.s3, a.s3.toNat)]

/-- Whether a class is of a source that may name a pop port. -/
def FClass.popsPort : FClass → Bool
  | .vecS | .uniS | .runS => true
  | _ => false

/-- Whether a class is of a destination that may name a push port. -/
def FClass.pushesPort : FClass → Bool
  | .vecD | .uniD | .runD => true
  | _ => false

/-- A field that names a `v` or `q` register the course does not have (R28, R288). -/
def FClass.beyond (cl : FClass) (c : Machine.Course) (uni : Bool) (n v : Nat) : Bool :=
  match cl with
  | .vecD | .vecS => !uni && c.vcnt ≤ v && v < 120
  | .runS | .runD => v < 120 && c.vcnt < v + n
  | .run6 => c.vcnt < v + 6
  | .qm => c.qcnt ≤ v
  | _ => false

/-- Whether any field of a word names a register the course does not have. -/
def CShape.beyond (sh : CShape) (c : Machine.Course) (v : CView) : Bool :=
  v.sets.any (fun a => (sh.fields (v.immS2 sh) a).any (fun f => f.1.beyond c (v.h.uni == 1) a.s3.toNat f.2))

end Sys2Proof

namespace Sys2Proof.Machine

/-! Queue entries (R31). -/

/-- The threads that an instruction acts on for an entry it pops: those whose bit is set, or every live thread for a
uniform entry (R31, R212). -/
def QEntry.threads (e : QEntry) (live : Mask) : List Nat :=
  match e with
  | .vec valid _ => Machine.threads valid
  | .uni _ => Machine.threads live

/-- The word a thread reads from an entry (R31). -/
def QEntry.word (e : QEntry) (t : Nat) : Word :=
  match e with
  | .vec _ ws => Sparse.get ws t 0
  | .uni w => w

/-- An entry read as a uniform word (R31): the lowest-numbered valid thread's. -/
def QEntry.uniform (e : QEntry) : Word :=
  match e with
  | .vec valid ws => (match Machine.threads valid with | t :: _ => Sparse.get ws t 0 | [] => 0)
  | .uni w => w

/-- A vector entry of the words of some threads. -/
def vecEntry (ts : List (Nat × Word)) : QEntry :=
  .vec (maskOf (ts.map Prod.fst)) (ts.foldl (fun m e => Sparse.set m e.1 e.2 0) [])

/-- The i-th entry that an instruction pops from a queue. -/
def Course.popped (c : Course) (q i : Nat) : QEntry :=
  match (c.queue q)[i]? with
  | some slot => slot.data.getD (.uni 0)
  | none => .uni 0

/-! Fields (R189, R230). -/

/-- `V(t, n)` of a source field: a register, a pop port, `tid` or `vz` (R27, R230). -/
def Course.vsrc (c : Course) (t n : Nat) : Word :=
  if n < 120 then c.V t n
  else if n < 124 then (c.popped (n - 120) 0).word t
  else if n = 126 then BitVec.ofNat 32 t
  else 0

/-- A source field of uniform class (R189, R230). -/
def Course.usrc (c : Course) (n : Nat) : Word :=
  if n < 32 then c.W n else if n < 124 then (c.popped (n - 120) 0).uniform else 0

/-- A source field of vector class, read as uniform class under `UNI` (R232). -/
def Course.src (c : Course) (uni : Bool) (t n : Nat) : Word := if uni then c.usrc n else c.vsrc t n

/-- The entries a word pops and pushes: one for each port named, however often (R31, R66). -/
def portUse (sh : CShape) (c : CView) : QueueUse :=
  let fs := c.sets.flatMap (sh.fields (c.immS2 sh))
  { pops := ((List.range 4).filter (fun q => fs.any (fun f => f.1.popsPort && f.2 == 120 + q))).map (fun q => (q, 1)),
    pushes := ([4, 5].filter (fun q => fs.any (fun f => f.1.pushesPort && f.2 == 120 + q))).map (fun q => (q, 1)) }

/-! Checks that depend on the course (R183, step 5; R88). -/

/-- Word j of format slot n (R88). -/
def Course.slotWord (c : Course) (n j : Nat) : Word := Sparse.get c.fslots (4 * n + j) 0

/-- A slot that holds a reserved value (R88). -/
def Course.slotBad (c : Course) (n : Nat) : Bool :=
  let w := (c.slotWord n 0).toNat
  2 ^ 14 ≤ w || 4 < w / 2 ^ 8 % 8 || w / 2 ^ 6 % 4 == 3 || 14 < w % 32 || c.slotWord n 2 != 0 || c.slotWord n 3 != 0

/-- The face rule of R65 for a word that is no meld or control instruction. -/
def faceBad (part : Option Mask) (face : BitVec 2) : Bool := face != 0 && part.isNone

/-- The checks of a word in the course's state: its slot's contents (step 4 of R183), then uniform guards and faces
(R26, R75), the face rule, and the registers that exist (R28). -/
def courseChecks (faces : Option Mask → BitVec 2 → Bool) (sh : CShape) (v : CView) (extra : Bool) (c : Course) :
    Option Code :=
  firstCode
    [ (sh.slot && c.slotBad v.h.slot.toNat, 0x63),
      (extra, 0x63),
      (v.h.uni == 1 && (v.h.grd != 0 || v.h.gneg != 0 || v.h.face != 0), 0x64),
      (faces (partition c.meld) v.h.face, 0x64),
      (sh.beyond c v, 0x64) ]

/-! Threads acted on (R65). -/

/-- The threads of each operand set that an instruction acts on, before its guard (R65). -/
def Course.acted (c : Course) (v : CView) : List (OpSet × Mask) :=
  let act := c.mask
  match partition c.meld, v.h.face.toNat with
  | some fa, 1 => [(v.a, act &&& fa)]
  | some fa, 2 => [(v.a, act &&& ~~~fa)]
  | some fa, 3 => (v.a, act &&& fa) :: v.t.second.toList.map (fun b => (b, act &&& ~~~fa))
  | _, _ => [(v.a, act)]

/-- The threads that pass the guard (R44). -/
def Course.guard (c : Course) (h : CHdr) : Mask := if h.gneg = 1 then ~~~(c.P h.grd.toNat) else c.P h.grd.toNat

/-- The threads of each operand set that are acted on and pass the guard. -/
def Course.groups (c : Course) (v : CView) : List (OpSet × List Nat) :=
  (c.acted v).map (fun e => (e.1, threads (e.2 &&& c.guard v.h)))

/-- All threads acted on, before the guard. -/
def Course.actedMask (c : Course) (v : CView) : Mask := (c.acted v).foldl (fun m e => m ||| e.2) 0

/-- The beats of an instruction that are not skipped (R25, R66); a uniform one has one beat (R91). -/
def Course.beats (c : Course) (v : CView) : List Nat :=
  if v.h.uni = 1 then [0] else (List.range 3).filter (fun k => maskWord (c.actedMask v) k != 0)

/-- The beats that are skipped (R25). -/
def Course.skipped (c : Course) (v : CView) : Nat := if v.h.uni = 1 then 0 else 3 - (c.beats v).length

/-! Results (R231, R232, R66). -/

/-- The writes of per-thread words to destinations of vector class; destination 127 discards. Each push port named
receives one entry (R31, R66). -/
def vectorWrites (id : Nat) (rs : List (Nat × List (Nat × Word))) : List RegWrite :=
  rs.flatMap (fun r => if r.1 < 120 then r.2.map (fun e => RegWrite.v r.1 e.1 e.2) else []) ++
  ([124, 125].filter (fun p => rs.any (fun r => r.1 == p))).map (fun p =>
    RegWrite.push (p - 120) (pushTag id 0) (vecEntry ((rs.filter (fun r => r.1 == p)).flatMap (fun r => r.2))))

/-- The write of a uniform destination (R232). -/
def uniformWrites (id d : Nat) (x : Word) : List RegWrite :=
  if d < 32 then [.w d x] else if d = 124 ∨ d = 125 then [.push (d - 120) (pushTag id 0) (.uni x)] else []

/-- An instruction that gives each thread acted on, or the course when it is uniform, one word. -/
def State.words (s : State) (v : CView) (lat : Option Nat) (f : OpSet → Nat → Word) : Res :=
  .done s
    { lat := lat, beats := (s.cur.beats v).length, skipped := s.cur.skipped v,
      writes :=
        if v.h.uni = 1 then uniformWrites s.nextId v.a.d.toNat (f v.a 0)
        else vectorWrites s.nextId ((s.cur.groups v).map (fun g => (g.1.d.toNat, g.2.map (fun t => (t, f g.1 t))))) }

/-- An instruction that gives each thread acted on one predicate. -/
def State.preds (s : State) (v : CView) (lat : Nat) (f : OpSet → Nat → Bool) : Res :=
  .done s
    { lat := some lat, beats := (s.cur.beats v).length, skipped := s.cur.skipped v,
      writes := (s.cur.groups v).map (fun g => .p g.1.d.toNat (maskOf g.2) (maskOf (g.2.filter (f g.1)))) }

/-! Rounding of an instruction (R88, R91, R235). -/

/-- One step of the stochastic generator (R91). -/
def stochStep (x : Word) : Word :=
  let x := x ^^^ (x <<< 13)
  let x := x ^^^ (x >>> 17)
  x ^^^ (x <<< 5)

/-- The word of lane l (R91). -/
def laneWord (x : Word) (l : Nat) : Word := x.rotateLeft (5 * l % 32)

/-- The beats of a stochastic instruction at the generator of one lane set: the state of each beat, and the generator stepped (R91). -/
def State.stochAt (s : State) (wl l : Nat) (seed : Word) (beats : List Nat) : List (Nat × Word) × State :=
  let w := s.wall wl
  let run := beats.foldl (fun (acc : List (Nat × Word) × (Word × Bool)) k =>
    let start := seed ^^^ BitVec.ofNat 32 (4 * wl + l)
    let x := stochStep (if acc.2.2 then acc.2.1 else if start = 0 then 1 else start)
    (acc.1 ++ [(k, x)], (x, true))) ([], Sparse.get w.gens l (0, false))
  (run.1, s.setWall wl { w with gens := Sparse.set w.gens l run.2 (0, false) })

/-- The beats of a stochastic instruction of the focused course, with the state of its lane set's generator in each (R91). Those of the second
member of a redundant pair step the generator of its own lane set (R93, R387); the words are the first member's (log entry 20, DESIGN CHOICE). -/
def State.stochastic (s : State) (seed : Word) (beats : List Nat) : List (Nat × Word) × State :=
  let r := s.stochAt s.cur.wall s.cur.lset seed beats
  match s.cur.second with
  | some p => (r.1, (r.2.stochAt p.1 s.cur.twinSet seed beats).2)
  | none => r

/-- The parts of a format slot (R88). -/
structure Slot where
  fmt  : Nat
  blk  : Nat
  scl  : Nat
  rnd  : Nat
  sat  : Bool
  sub  : Bool
  outl : Bool
  seed : Word
  deriving DecidableEq, Repr

/-- A slot from its words 0 and 1. -/
def Slot.of (w seed : Word) : Slot :=
  { fmt := w.toNat % 32, blk := if w.getLsbD 5 then 16 else 32, scl := w.toNat / 2 ^ 6 % 4, rnd := w.toNat / 2 ^ 8 % 8,
    sat := w.getLsbD 11, sub := w.getLsbD 12, outl := w.getLsbD 13, seed := seed }

/-- The slot an instruction names. -/
def Course.slotOf (c : Course) (h : CHdr) : Slot := Slot.of (c.slotWord h.slot.toNat 0) (c.slotWord h.slot.toNat 1)

/-- The rounding mode of an instruction: its override, or its slot's (R88). -/
def Slot.mode (l : Slot) (ro : BitVec 2) : Nat :=
  match ro.toNat with
  | 0 => l.rnd
  | 1 => 0
  | 2 => 1
  | _ => 4

/-- What rounding an instruction does: its slot and mode, and the lane words of its beats when the mode is stochastic. -/
structure Rounding where
  slot  : Slot
  mode  : Nat
  beats : List (Nat × Word)
  deriving DecidableEq, Repr

/-- The rounding of one thread (R91, R92). -/
def Rounding.at (r : Rounding) (t : Nat) (conv : Bool := false) : Rnd :=
  { mode := r.mode, sat := r.slot.sat, sub := r.slot.sub, word := laneWord (Sparse.get r.beats (t / 32) 0) (t % 32),
    conv := conv }

/-- The rounding of an instruction that rounds, and the state with the generator stepped (R91). -/
def State.rounding (s : State) (v : CView) : Rounding × State :=
  let l := s.cur.slotOf v.h
  let m := l.mode v.h.ro
  if m = 4 then
    let (bs, s) := s.stochastic l.seed (s.cur.beats v)
    ({ slot := l, mode := m, beats := bs }, s)
  else ({ slot := l, mode := m, beats := [] }, s)

/-! Issue. -/

/-- A C-format instruction: its ports, its checks, its own part. -/
def execC (i : Instr) (faces : Option Mask → BitVec 2 → Bool) (extra : Course → Bool) (body : CView → State → Res)
    (s : State) : Out :=
  match i.cview, i.shape with
  | some v, some sh =>
    .next (s.issue false v.h.k (portUse sh v) (courseChecks faces sh v (extra s.cur) s.cur) (body v))
  | _, _ => .next s

/-- A C-format instruction under the plain face rule. -/
def execPlain (i : Instr) (body : CView → State → Res) (s : State) : Out := execC i faceBad (fun _ => false) body s

end Sys2Proof.Machine
end

