-- ==== Sys2Proof/Machine/Vector.lean ====
section
/-! DEFINITION. The vector instructions of the compute stream that work thread by thread: integer (R234), floating (R235 to
R238), predicates (R239), moves (R240) and `EXPR` (R248). -/

namespace Sys2Proof.Machine

/-- `S2` of a thread: the immediate in its immediate form (R230). -/
def Course.src2 (c : Course) (v : CView) (a : OpSet) (t : Nat) : Word :=
  match v.t.immed with
  | some x => x
  | none => c.src (v.h.uni == 1) t a.s2.toNat

/-! Integer instructions (R234). -/

/-- An integer instruction of R234: `f` from whether `TYPE` is N32 and the three sources. -/
def execInt (i : Instr) (lat : Nat) (f : Bool → Word → Word → Word → Word) (s : State) : Out :=
  execPlain i (fun v s =>
    let u := v.h.uni == 1
    s.words v (some lat) (fun a t =>
      f (v.h.typ == 14) (s.cur.src u t a.s1.toNat) (s.cur.src2 v a t) (s.cur.src u t a.s3.toNat))) s

/-- VADD (R234). -/
def execVadd (h : CHdr) (a : OpSet) (t : Tail) (s : State) : Out :=
  execInt (.vadd h a t) 4 (fun _ x y _ => x + y) s
/-- VSUB (R234). -/
def execVsub (h : CHdr) (a : OpSet) (t : Tail) (s : State) : Out :=
  execInt (.vsub h a t) 4 (fun _ x y _ => x - y) s
/-- VMUL (R234). -/
def execVmul (h : CHdr) (a : OpSet) (t : Tail) (s : State) : Out :=
  execInt (.vmul h a t) 5 (fun _ x y _ => x * y) s
/-- VMULH (R234). -/
def execVmulh (h : CHdr) (a : OpSet) (t : Tail) (s : State) : Out :=
  execInt (.vmulh h a t) 5 (fun n x y _ => if n then mulhU x y else mulhS x y) s
/-- VMAD (R234). -/
def execVmad (h : CHdr) (a : OpSet) (t : Tail) (s : State) : Out :=
  execInt (.vmad h a t) 5 (fun _ x y z => x * y + z) s
/-- VAND (R234). -/
def execVand (h : CHdr) (a : OpSet) (t : Tail) (s : State) : Out :=
  execInt (.vand h a t) 4 (fun _ x y _ => x &&& y) s
/-- VOR (R234). -/
def execVor (h : CHdr) (a : OpSet) (t : Tail) (s : State) : Out :=
  execInt (.vor h a t) 4 (fun _ x y _ => x ||| y) s
/-- VXOR (R234). -/
def execVxor (h : CHdr) (a : OpSet) (t : Tail) (s : State) : Out :=
  execInt (.vxor h a t) 4 (fun _ x y _ => x ^^^ y) s
/-- VSHL (R234). -/
def execVshl (h : CHdr) (a : OpSet) (t : Tail) (s : State) : Out :=
  execInt (.vshl h a t) 4 (fun _ x y _ => shlW x (y.toNat % 64)) s
/-- VSHR (R234). -/
def execVshr (h : CHdr) (a : OpSet) (t : Tail) (s : State) : Out :=
  execInt (.vshr h a t) 4 (fun _ x y _ => shrW x (y.toNat % 64)) s
/-- VSAR (R234). -/
def execVsar (h : CHdr) (a : OpSet) (t : Tail) (s : State) : Out :=
  execInt (.vsar h a t) 4 (fun _ x y _ => sarW x (y.toNat % 64)) s
/-- VMIN (R234). -/
def execVmin (h : CHdr) (a : OpSet) (t : Tail) (s : State) : Out :=
  execInt (.vmin h a t) 4 (fun n x y _ => if n then minU x y else minS x y) s
/-- VMAX (R234). -/
def execVmax (h : CHdr) (a : OpSet) (t : Tail) (s : State) : Out :=
  execInt (.vmax h a t) 4 (fun n x y _ => if n then maxU x y else maxS x y) s
/-- VABS (R234). -/
def execVabs (h : CHdr) (a : OpSet) (t : Tail) (s : State) : Out :=
  execInt (.vabs h a t) 4 (fun _ x _ _ => if x.msb then -x else x) s
/-- VCLZ (R234). -/
def execVclz (h : CHdr) (a : OpSet) (t : Tail) (s : State) : Out :=
  execInt (.vclz h a t) 4 (fun _ x _ _ => BitVec.ofNat 32 (leadingZeros x)) s
/-- VPOPC (R234). -/
def execVpopc (h : CHdr) (a : OpSet) (t : Tail) (s : State) : Out :=
  execInt (.vpopc h a t) 4 (fun _ x _ _ => BitVec.ofNat 32 (popcount x)) s
/-- VCMP (R234, R187): the condition is a literal in `S3`. -/
def execVcmp (h : CHdr) (a : OpSet) (t : Tail) (s : State) : Out :=
  execPlain (.vcmp h a t) (fun v s =>
    s.preds v 4 (fun a t => cond a.s3.toNat (s.cur.vsrc t a.s1.toNat) (s.cur.src2 v a t))) s
/-- VSEL (R234). -/
def execVsel (h : CHdr) (a : OpSet) (t : Tail) (s : State) : Out :=
  execPlain (.vsel h a t) (fun v s =>
    s.words v (some 4) (fun a t =>
      if (s.cur.P a.s3.toNat).getLsbD t then s.cur.vsrc t a.s1.toNat else s.cur.src2 v a t)) s

/-! Floating instructions (R235). -/

/-- The value of a 32-bit operand of FP32 or BF16 (R81, R230). -/
def operand (bf : Bool) (x : Word) : XVal := val32 (if bf then x &&& 0xFFFF0000#32 else x)

/-- `Src` of R235: decoded, flushed, then its absolute value and its negation. -/
def srcVal (sub bf : Bool) (x : Word) (neg abs : BitVec 1) : XVal :=
  let v := (operand bf x).flush sub
  let v := if abs = 1 then v.abs else v
  if neg = 1 then v.negate else v

/-- A value rounded to FP32 or BF16, as a register holds it (R81, R90, R231). -/
def roundTyp (bf : Bool) (r : Rnd) (x : XVal) : Word :=
  if bf then BitVec.ofNat 32 (Fmt.round ⟨7, 8, 127, 0⟩ r (x.flush r.sub) * 2 ^ 16) else round32 r x

/-- A signed field of 3 bits (R189). -/
def scl3 (x : BitVec 3) : Int := x.toInt

/-- The clamp of R235, on the rounded word. -/
def clampWord (clmp : BitVec 2) (x : Word) : Word :=
  let v := val32 x
  let one : Word := 0x3F800000#32
  match clmp.toNat with
  | 1 => if v = .nan ∨ v.neg ∨ v.isZero then 0 else if XVal.one.lt v then one else x
  | 2 => if v = .nan then 0 else if XVal.one.lt v.abs then (if v.neg then 0xBF800000#32 else one) else x
  | _ => x

/-- The value of source 1 of a floating instruction. -/
def Course.fsrc1 (c : Course) (v : CView) (sub : Bool) (a : OpSet) (t : Nat) : XVal :=
  srcVal sub (v.h.typ == 1) (c.src (v.h.uni == 1) t a.s1.toNat) a.n1 a.a1

/-- The value of source 2: an immediate is FP32 whatever `TYPE` says (R230). -/
def Course.fsrc2 (c : Course) (v : CView) (sub : Bool) (a : OpSet) (t : Nat) : XVal :=
  srcVal sub (v.h.typ == 1 && v.t.immed.isNone) (c.src2 v a t) a.n2 a.a2

/-- The value of source 3. -/
def Course.fsrc3 (c : Course) (v : CView) (sub : Bool) (a : OpSet) (t : Nat) : XVal :=
  srcVal sub (v.h.typ == 1) (c.src (v.h.uni == 1) t a.s3.toNat) a.n3 a.a3

/-- A floating instruction of R235: `f` from the mode and the three sources gives the exact result. -/
def execFloat (i : Instr) (lat : Nat) (f : Nat → XVal → XVal → XVal → XVal) (s : State) : Out :=
  execPlain i (fun v s =>
    let (r, s) := s.rounding v
    let c := s.cur
    let sub := r.slot.sub
    s.words v (some lat) (fun a t =>
      let x := f r.mode (c.fsrc1 v sub a t) (c.fsrc2 v sub a t) (c.fsrc3 v sub a t)
      clampWord a.clmp (roundTyp (v.h.typ == 1) (r.at t) (x.shift (scl3 a.scl))))) s

/-- FADD (R236). -/
def execFadd (h : CHdr) (a : OpSet) (t : Tail) (s : State) : Out :=
  execFloat (.fadd h a t) 6 (fun m x y _ => XVal.add m x y) s
/-- FSUB (R236). -/
def execFsub (h : CHdr) (a : OpSet) (t : Tail) (s : State) : Out :=
  execFloat (.fsub h a t) 6 (fun m x y _ => XVal.add m x y.negate) s
/-- FMUL (R236). -/
def execFmul (h : CHdr) (a : OpSet) (t : Tail) (s : State) : Out :=
  execFloat (.fmul h a t) 6 (fun _ x y _ => x.mul y) s
/-- FFMA (R236). -/
def execFfma (h : CHdr) (a : OpSet) (t : Tail) (s : State) : Out :=
  execFloat (.ffma h a t) 6 (fun m x y z => XVal.add m (x.mul y) z) s
/-- FMIN (R238). -/
def execFmin (h : CHdr) (a : OpSet) (t : Tail) (s : State) : Out :=
  execFloat (.fmin h a t) 4 (fun _ x y _ => XVal.minmax false x y) s
/-- FMAX (R238). -/
def execFmax (h : CHdr) (a : OpSet) (t : Tail) (s : State) : Out :=
  execFloat (.fmax h a t) 4 (fun _ x y _ => XVal.minmax true x y) s
/-- FRCP (R237). -/
def execFrcp (h : CHdr) (a : OpSet) (t : Tail) (s : State) : Out :=
  execFloat (.frcp h a t) 12 (fun _ x _ _ => x.rcp) s
/-- FRSQ (R237). -/
def execFrsq (h : CHdr) (a : OpSet) (t : Tail) (s : State) : Out :=
  execFloat (.frsq h a t) 12 (fun _ x _ _ => x.rsq) s
/-- FSQRT (R237). -/
def execFsqrt (h : CHdr) (a : OpSet) (t : Tail) (s : State) : Out :=
  execFloat (.fsqrt h a t) 12 (fun _ x _ _ => x.sqrt) s
/-- FEXP2 (R237). -/
def execFexp2 (h : CHdr) (a : OpSet) (t : Tail) (s : State) : Out :=
  execFloat (.fexp2 h a t) 12 (fun _ x _ _ => x.exp2) s
/-- FLOG2 (R237). -/
def execFlog2 (h : CHdr) (a : OpSet) (t : Tail) (s : State) : Out :=
  execFloat (.flog2 h a t) 12 (fun _ x _ _ => x.log2) s
/-- FCMP (R238): it flushes and rounds nothing. -/
def execFcmp (h : CHdr) (a : OpSet) (t : Tail) (s : State) : Out :=
  execPlain (.fcmp h a t) (fun v s =>
    let sub := (s.cur.slotOf v.h).sub
    s.preds v 4 (fun a t => fcond a.s3.toNat (s.cur.fsrc1 v sub a t) (s.cur.fsrc2 v sub a t))) s
/-- FCLASS (R238): the raw operand of `TYPE`. -/
def execFclass (h : CHdr) (a : OpSet) (t : Tail) (s : State) : Out :=
  execPlain (.fclass h a t) (fun v s =>
    s.words v (some 4) (fun a t =>
      BitVec.ofNat 32 (2 ^ classOf (operand (v.h.typ == 1) (s.cur.src (v.h.uni == 1) t a.s1.toNat))))) s

/-! Predicates and moves (R239, R240). -/

/-- PLOP (R239). -/
def execPlop (h : CHdr) (a : OpSet) (t : Tail) (s : State) : Out :=
  execPlain (.plop h a t) (fun v s =>
    s.preds v 2 (fun a t =>
      let x := if (s.cur.P a.s1.toNat).getLsbD t then 1 else 0
      let y := if (s.cur.P a.s2.toNat).getLsbD t then 2 else 0
      a.s3.getLsbD (x + y))) s
/-- PFROM (R239). -/
def execPfrom (h : CHdr) (a : OpSet) (t : Tail) (s : State) : Out :=
  execPlain (.pfrom h a t) (fun v s => s.preds v 2 (fun a t => s.cur.vsrc t a.s1.toNat != 0)) s
/-- PTO (R239). -/
def execPto (h : CHdr) (a : OpSet) (t : Tail) (s : State) : Out :=
  execPlain (.pto h a t) (fun v s =>
    s.words v (some 2) (fun a t => boolWord ((s.cur.P a.s1.toNat).getLsbD t))) s
/-- VMOV (R240). -/
def execVmov (h : CHdr) (a : OpSet) (t : Tail) (s : State) : Out :=
  execPlain (.vmov h a t) (fun v s => s.words v (some 4) (fun a t => s.cur.src (v.h.uni == 1) t a.s1.toNat)) s
/-- VMOVI (R240). -/
def execVmovi (h : CHdr) (a : OpSet) (t : Tail) (s : State) : Out :=
  execPlain (.vmovi h a t) (fun v s => s.words v (some 4) (fun _ _ => v.t.immed.getD 0)) s
/-- VBCAST (R240). -/
def execVbcast (h : CHdr) (a : OpSet) (t : Tail) (s : State) : Out :=
  execPlain (.vbcast h a t) (fun v s => s.words v (some 4) (fun a _ => s.cur.usrc a.s1.toNat)) s

/-! Fused expressions (R248). -/

/-- One token of an `EXPR` program on the stack, its top first; each operator's result is rounded to FP32. -/
def exprStep (r : Rnd) (ins : List XVal) (st : List XVal) (tok : Nat) : List XVal :=
  let rd (x : XVal) : XVal := val32 (round32 r x)
  match tok, st with
  | 4, y :: x :: st => rd (XVal.add r.mode x y) :: st
  | 5, y :: x :: st => rd (XVal.add r.mode x y.negate) :: st
  | 6, y :: x :: st => rd (x.mul y) :: st
  | 7, y :: x :: st => rd (XVal.minmax true x y) :: st
  | 8, y :: x :: st => rd (XVal.minmax false x y) :: st
  | 9, x :: st => rd x.negate :: st
  | 10, x :: st => rd x.abs :: st
  | 11, x :: st => rd x.exp2 :: st
  | 12, x :: st => rd x.log2 :: st
  | 13, x :: st => rd x.rcp :: st
  | 14, x :: st => rd x.rsq :: st
  | n, st => (ins[n]?).getD .nan :: st

/-- The fields of an `EXPR` as an operand set and a view, for the threads it acts on. -/
def exprView (h : CHdr) (e : ExprBody) : CView :=
  ⟨0x080, h, { OpSet.zero with d := e.d, s1 := e.s1, s2 := e.s2, s3 := e.s3 }, .none⟩

/-- The class table of `EXPR` (R191, R233). -/
def exprShape : CShape :=
  ⟨.vecD, .vecS, .vecS, .vecS, false, false, false, false, false, false, false, 0, false, [0, 1], true, true, true⟩

/-- Operator tokens of a program. -/
def ExprBody.ops (e : Sys2Proof.ExprBody) : Nat := (e.prog.filter (fun t => 4 ≤ t)).length

/-- The entries an `EXPR` word pops and pushes; its fourth input is a source where its program reads it. -/
def exprIo (h : CHdr) (e : ExprBody) : QueueUse :=
  let s4 := e.s4.toNat
  let port := if e.prog.contains 3 && 120 ≤ s4 && s4 < 124 then [(s4 - 120, 1)] else []
  let fields := portUse exprShape (exprView h e)
  { fields with pops := fields.pops ++ port.filter (fun q => !fields.pops.contains q) }

/-- EXPR (R248, R249): its results commit 6 to 6 + 12k cycles after issue. -/
def execExpr (h : CHdr) (e : ExprBody) (s : State) : Out :=
  let v := exprView h e
  let s4 := e.s4.toNat
  let k := ExprBody.ops e
  .next (s.issue false h.k (exprIo h e)
    (courseChecks (fun part f => faceBad part f || f == 3) exprShape v false s.cur |>.orElse (fun _ =>
      if s.cur.vcnt ≤ s4 ∧ s4 < 120 then some 0x64 else none)) (fun s =>
    let (r, s) := s.rounding v
    let c := s.cur
    let bf := h.typ == 1
    match s.words v none (fun _ t =>
        let ins := [e.s1, e.s2, e.s3, e.s4].map (fun x => (operand bf (c.vsrc t x.toNat)).flush r.slot.sub)
        let out := e.prog.foldl (exprStep (r.at t) ins) []
        roundTyp bf (r.at t) (out.headD .nan)) with
    | .done s p => .done s { p with window := (6, some (6 + 12 * k)) }
    | x => x))

end Sys2Proof.Machine
end

