-- ==== Sys2Proof/Machine/Convert.lean ====
section
/-! DEFINITION. Conversions: `CVT` and `CVTI` (R241), packed strings with block scales (R242, R243), I4X blocks (R83 to R85),
and the choice of scales (R86, R87). -/

namespace Sys2Proof.Machine

/-! Element conversion (R241). -/

/-- The code of an element in a register word (R81, R241). -/
def elemBits (fmt : Nat) (x : Word) : Nat :=
  if fmt = 1 then x.toNat / 2 ^ 16 else x.toNat % 2 ^ widthOf fmt

/-- The register word of an element: BF16 in the high half, signed integers extended (R241). -/
def elemWord (fmt code : Nat) : Word :=
  match intOf fmt with
  | some (w, signed) => BitVec.ofInt 32 (decodeInt w signed code)
  | none => if fmt = 1 then BitVec.ofNat 32 (code * 2 ^ 16) else BitVec.ofNat 32 code

/-- A value rounded to a format, as its code (R89): `fromInt` when its source was an integer. -/
def roundElem (fmt : Nat) (r : Rnd) (fromInt : Bool) (x : XVal) : Nat :=
  match fmtOf fmt, intOf fmt with
  | some f, _ => f.round r x
  | none, some (w, signed) => (roundInt w signed r fromInt x % 2 ^ w).toNat
  | none, none => 0

/-- The format pairings that `CVT` and `CVTI` forbid (R241). -/
def pairingBad (ints : Bool) (src dst : Nat) : Bool :=
  if ints then src == 12 || dst == 12 || 14 < src || ((fmtOf src).isSome && (fmtOf dst).isSome) else 7 < src || 7 < dst

/-- CVT and CVTI (R241). -/
def execConvert (i : Instr) (ints : Bool) (s : State) : Out :=
  match i.cview with
  | none => .next s
  | some v0 =>
    execC i faceBad (fun c => pairingBad ints (c.slotOf v0.h).fmt v0.h.typ.toNat) (fun v s =>
      let (r, s) := s.rounding v
      let c := s.cur
      let src := r.slot.fmt
      let dst := v.h.typ.toNat
      s.words v (some 6) (fun a t =>
        let x := (decodeElem src (elemBits src (c.src (v.h.uni == 1) t a.s1.toNat))).shift (scl3 a.scl)
        let x := if (fmtOf src).isSome then x.flush r.slot.sub else x
        elemWord dst (roundElem dst (r.at t true) (intOf src).isSome x))) s

/-- CVT (R241). -/
def execCvt (h : CHdr) (a : OpSet) (t : Tail) (s : State) : Out := execConvert (.cvt h a t) false s
/-- CVTI (R241). -/
def execCvti (h : CHdr) (a : OpSet) (t : Tail) (s : State) : Out := execConvert (.cvti h a t) true s

/-! Scales (R86, R87). -/

/-- The value of a scale byte (R86). -/
def scaleVal (scl byte : Nat) : XVal :=
  match scl with
  | 1 => if byte = 255 then .nan else .fin false 1 ((byte : Int) - 127) false
  | 2 => e4m3.decode byte
  | _ => XVal.one

/-- The exponent E of R87. -/
def scaleExp (fmt : Nat) : Int :=
  match fmt with
  | 3 => 8
  | 4 => 15
  | 6 => 4
  | 10 => 6
  | 13 => 7
  | _ => 2

/-- The value Mmax of R87. -/
def scaleMax (fmt : Nat) : XVal :=
  match fmt with
  | 12 => XVal.ofInt 7
  | _ =>
    match fmtOf fmt, intOf fmt with
    | some f, _ => .fin false f.largest.1 f.largest.2 false
    | none, some (w, signed) => XVal.ofInt (intRange w signed).2
    | none, none => XVal.one

/-- `ChooseScale` of R87: the scale byte for the largest magnitude of a block. -/
def chooseScale (scl fmt : Nat) (amax : XVal) : Nat :=
  match scl with
  | 1 =>
    (match amax with
     | .fin _ m e _ =>
       if m = 0 then 127 else (max (-127) (min 127 (e + m.log2 - scaleExp fmt)) + 127).toNat
     | _ => 254)
  | 2 => if amax.isZero then e4m3.encMag 8 (-3) else e4m3.round { mode := 3, sat := true } (amax.div (scaleMax fmt))
  | _ => 0

/-- The largest magnitude of the values that are not NaN, 0 if there is none. -/
def amaxOf (xs : List XVal) : XVal :=
  xs.foldl (fun m x => if x = .nan then m else if m.lt x.abs then x.abs else m) (XVal.zero false)

/-! I4X (R83 to R85). -/

/-- Nibble k of a payload. -/
def nibble (bytes : List Nat) (k : Nat) : Nat := bytes.getD (k / 2) 0 / 16 ^ (k % 2) % 16

/-- `I4(n)` of R84. -/
def i4 (n : Nat) : XVal := XVal.ofInt (decodeInt 4 true n)

/-- The elements of an I4X block (R84): payload bytes, scale, outlier byte; with a NaN scale every element is NaN (R86). Log entry 10,
DEDUCED. -/
def decodeI4x (outl : Bool) (bytes : List Nat) (s : XVal) (b17 : Nat) : List XVal :=
  if s = .nan then List.replicate 32 .nan
  else ((List.range 16).foldl (fun (acc : List XVal × Nat) j =>
    let lo := nibble bytes (2 * j)
    let hi := nibble bytes (2 * j + 1)
    if !outl || (lo != 8 && hi != 8) then (acc.1 ++ [(i4 lo).mul s, (i4 hi).mul s], acc.2)
    else if lo = 8 ∧ hi = 8 then (acc.1 ++ [XVal.zero false, XVal.zero false], acc.2)
    else
      let k := if lo = 8 then hi else lo
      let (mk, other) := if acc.2 < 2 then
          ((e4m3.decode ((if acc.2 = 0 then b17 % 16 else b17 / 16) * 16 + k)).mul s, XVal.zero false)
        else (XVal.zero false, (i4 k).mul s)
      (acc.1 ++ (if lo = 8 then [mk, other] else [other, mk]), if acc.2 < 2 then acc.2 + 1 else acc.2))
    ([], 0)).1

/-- The index of the largest magnitude among the values whose index `ok` admits, the lowest on a tie; NaN is no
candidate. -/
def largestAt (xs : List XVal) (ok : Nat → Bool) : Option Nat :=
  (xs.zipIdx.filter (fun e => e.1 != .nan && ok e.2)).foldl (fun o e =>
    match o with
    | none => some e.2
    | some i => if ((xs.getD i .nan).abs).lt e.1.abs then some e.2 else some i) none

/-- The integer that a value rounds to before any range is applied (R85, log entry 9, DEDUCED). -/
def roundWhole (r : Rnd) (x : XVal) : Int :=
  match x with
  | .nan => 0
  | .inf neg => if neg then -(2 ^ 40 : Int) else 2 ^ 40
  | .fin neg m e st => let k : Int := roundAt r neg m e st 0; if neg then -k else k

/-- The 18 bytes of an I4X block (R85); `r` gives each element's rounding. -/
def encodeI4x (l : Slot) (r : Nat → Rnd) (xs : List XVal) : List Nat :=
  let cand := if l.outl then
      (match largestAt xs (fun _ => true) with
       | none => []
       | some a => a :: (largestAt xs (fun i => i / 2 != a / 2)).toList)
    else []
  let amax := amaxOf ((xs.zipIdx.filter (fun e => !cand.contains e.2)).map Prod.fst)
  let byte := chooseScale l.scl 12 amax
  let s := scaleVal l.scl byte
  let x (i : Nat) : XVal := (xs.getD i .nan).div s
  let out := cand.filter (fun c => 7 < (roundWhole (r c) (x c)).natAbs)
  let q (c : Nat) : Nat := e4m3.round (r c) (x c)
  let low := out.foldl min 32
  let nib (i : Nat) : Nat :=
    if out.contains i then 8
    else if out.contains (i ^^^ 1) then q (i ^^^ 1) % 16
    else (max (-7) (min 7 (roundWhole (r i) (x i))) % 16).toNat
  let b17 := out.foldl (fun b c => b + (q c / 16) * (if c = low then 1 else 16)) 0
  (List.range 16).map (fun j => nib (2 * j) + 16 * nib (2 * j + 1)) ++ [byte, b17]

/-! Packed strings (R242, R243). -/

/-- Elements of a block, and words of its string. -/
def blockOf (l : Slot) (fmt : Nat) : Nat × Nat :=
  let b := if fmt = 12 then 32 else l.blk
  (b, b * widthOf fmt / 32)

/-- The words that `PACK` gives a block's threads: the string, the scale word, then zeros (R242). `spare` is what a
scale byte that no scale fills reads as. -/
def packBlock (l : Slot) (fmt : Nat) (r : Nat → Rnd) (spare : Nat) (xs : List XVal) : List Word :=
  let w := widthOf fmt
  if fmt = 12 then
    let bytes := encodeI4x l r xs
    (List.range 4).map (fun k =>
      BitVec.ofNat 32 ((List.range 4).foldl (fun n i => n + bytes.getD (4 * k + i) 0 * 256 ^ i) 0)) ++
    [BitVec.ofNat 32 (bytes.getD 16 0 + 256 * bytes.getD 17 0)]
  else
    let scaled := l.scl != 0 && w ≤ 8
    let byte := if scaled then chooseScale l.scl fmt (amaxOf xs) else spare
    let s := if scaled then scaleVal l.scl byte else XVal.one
    let codes := xs.zipIdx.map (fun e => roundElem fmt (r e.2) false (e.1.div s))
    let str := codes.zipIdx.foldl (fun n e => n + e.1 * 2 ^ (w * e.2)) 0
    (List.range (xs.length * w / 32)).map (fun k => BitVec.ofNat 32 (str / 2 ^ (32 * k))) ++ [BitVec.ofNat 32 byte]

/-- The face rule of `PACK` and `UNPK` (R244). -/
def noMeld (part : Option Mask) (face : BitVec 2) : Bool := faceBad part face || face == 3

/-- PACK (R242). Without a scale the manual states no scale byte: it is a free value (log entry 3, DESIGN CHOICE). -/
def execPack (h : CHdr) (a : OpSet) (t : Tail) (s : State) : Out :=
  execC (.pack h a t) noMeld (fun _ => false) (fun v s =>
    let (r, s) := s.rounding v
    let c := s.cur
    let fmt := v.h.typ.toNat
    let b := (blockOf r.slot fmt).1
    let spare := (Config.freeByte s.free).toNat
    let s := { s with free := s.free + 1 }
    let ts := (c.groups v).flatMap (fun g => g.2)
    let x (t : Nat) : XVal :=
      if ts.contains t then (val32 (c.vsrc t a.s1.toNat)).flush r.slot.sub else XVal.zero false
    let blocks := (List.range (96 / b)).map (fun j =>
      packBlock r.slot fmt (fun i => r.at (j * b + i) true) spare ((List.range b).map (fun i => x (j * b + i))))
    s.words v (some 4) (fun _ t => (blocks.getD (t / b) []).getD (t % b) 0)) s

/-- The elements of a block that `UNPK` reads, as register words (R243). -/
def unpackBlock (l : Slot) (fmt : Nat) (words : List Word) (scale : Word) : List Word :=
  let w := widthOf fmt
  let str := words.zipIdx.foldl (fun n e => n + e.1.toNat * 2 ^ (32 * e.2)) 0
  let byte := scale.toNat % 256
  let put (x : XVal) : Word := round32 { mode := l.rnd, sat := l.sat, sub := l.sub } x
  if fmt = 12 then
    let bytes := (List.range 16).map (fun j => str / 256 ^ j % 256)
    (decodeI4x l.outl bytes (scaleVal l.scl byte) (scale.toNat / 256 % 256)).map put
  else
    let n := 32 * words.length / w
    let codes := (List.range n).map (fun k => str / 2 ^ (w * k) % 2 ^ w)
    match intOf fmt with
    | some (_, signed) =>
      if fmt = 9 ∨ l.scl = 0 then codes.map (fun x => BitVec.ofInt 32 (decodeInt w signed x))
      else codes.map (fun x => put ((decodeElem fmt x).mul (scaleVal l.scl byte)))
    | none => codes.map (fun x => put ((decodeElem fmt x).mul (scaleVal (if w ≤ 8 then l.scl else 0) byte)))

/-- UNPK (R243): strings and scales are read whatever the state of their threads. -/
def execUnpk (h : CHdr) (a : OpSet) (t : Tail) (s : State) : Out :=
  execC (.unpk h a t) noMeld (fun _ => false) (fun v s =>
    let l := s.cur.slotOf v.h
    let fmt := v.h.typ.toNat
    let (b, n) := blockOf l fmt
    let word (t : Nat) : Word := s.cur.vsrc t a.s1.toNat
    let blocks := (List.range (96 / b)).map (fun j =>
      unpackBlock l fmt ((List.range n).map (fun i => word (j * b + i))) (word (j * b + n)))
    s.words v (some 4) (fun _ t => (blocks.getD (t / b) []).getD (t % b) 0)) s

end Sys2Proof.Machine
end

