-- ==== Sys2Proof/Machine/Memory.lean ====
section
/-! DEFINITION. Translation registers (R207 to R209), vector loads and stores (R211 to R214), vector atomics (R215,
R217), fences (R218), queue moves (R219) and the tag table (R100 to R102, R220). -/

namespace Sys2Proof.Machine

/-! Translation registers. -/

/-- BIND (R155, R207). A system core may bind in global mode only (R298). -/
def execBind (k : Ctl) (rd : BitVec 6) (bp : BitVec 5) (sp : BitVec 1) (bt : BitVec 3) (off : BitVec 20) (s : State) : Out :=
  .next (s.issue true k {} (firstCode [(sp == 1 && s.cur.sys.isSome, 0x64)]) (fun s =>
    let base := s.cur.S64 (2 * bp.toNat)
    let ext := s.cur.S rd.toNat
    if sp = 1 then
      if 2 ^ 56 ≤ base.toNat then .trap s { code := 0x06, detail := base }
      else
        let lim : Word := BitVec.ofNat 32 (min ext.toNat (0x100000 - off.toNat))
        let r : BReg := ⟨base, BitVec.ofNat 52 off.toNat, 0, true, true, false, 0, false, true, lim, ext⟩
        .done s { lat := none, writes := [.b bt.toNat r] }
    else
      match s.bindGlobal s.cur.ctx (s.cur.B bt.toNat) base ext with
      | (.ok r, s') => .done s' { lat := none, writes := [.b bt.toNat r] }
      | (.error (.fail c), s') => .trap s' { code := c, detail := base }
      | (.error (.poison pa), s') => .trap (s'.poisonUsed pa s'.cur.ident s'.cur.die) { code := 0x0C, detail := base }
      | (.error (.ok _), s') => .done s' { lat := none }))

/-- The bits [127:119] of a translation register, in [8:0] (R154, R208). -/
def BReg.attr (r : BReg) : Nat :=
  r.ca.toNat + (if r.rd then 4 else 0) + (if r.w then 8 else 0) + (if r.chk then 16 else 0) + r.gr.toNat * 32 +
  (if r.stale then 128 else 0) + (if r.mode then 256 else 0)

/-- LEA (R208): the register is read as stored, never re-translated. -/
def execLea (k : Ctl) (rd : BitVec 6) (bt which : BitVec 3) (imm : BitVec 24) (s : State) : Out :=
  execA k (fun s =>
    let r := s.cur.B bt.toNat
    let v : DWord := match which.toNat with
      | 0 => r.base + imm.signExtend 64
      | 1 => r.lim.setWidth 64
      | 2 => r.ext.setWidth 64
      | _ => BitVec.ofNat 64 r.attr
    regs 1 (pairWrites rd.toNat v) s) s

/-- UNBIND (R209). -/
def execUnbind (k : Ctl) (bt : BitVec 3) (s : State) : Out := execA k (regs 1 [.b bt.toNat BReg.zero]) s

/-! Vector accesses. -/

/-- Bytes of an element (R211). -/
def szBytes (sz : BitVec 2) : Nat := 2 ^ sz.toNat

/-- The base of a vector access: the register re-translated first if it is stale (R157). -/
def State.vreg (s : State) (bt : BitVec 3) : State × BReg :=
  let s := s.refresh bt.toNat
  (s, s.cur.B bt.toNat)

/-- The words of the threads acted on that entry j of a load receives: the low words first, a narrower element
zero-extended, a thread whose page is excused zero (R212, R213). -/
def loadEntry (ts : List Nat) (vals : List (Nat × Nat)) (j : Nat) : QEntry :=
  vecEntry (ts.map (fun t =>
    let v := match vals.find? (fun e => e.1 == t) with | some e => e.2 | none => 0
    (t, BitVec.ofNat 32 (v / 2 ^ (32 * j)))))

/-- A vector load of some threads (R211 to R214), pushed to queue `q`. -/
def State.vload (s0 : State) (sz : BitVec 2) (q : Nat) (nr : Bool) (hint : BitVec 2) (bt : BitVec 3)
    (sig : Option Nat) (lanes : BReg → List (Nat × Nat)) : Res :=
  let (s, r) := s0.vreg bt
  let w := szBytes sz
  let ls := lanes r
  (s.reach s.cur.ctx (some r) { acc := { rd := true }, nr := nr, hint := Hint.of hint } (ls.map (fun l => ⟨l.1, l.2, w⟩))).res s0
    (fun s ps absent =>
      let ts := ls.map Prod.fst
      let vals := ps.map (fun p => (p.t, s.valueAt p))
      let n := if w = 8 then 2 else 1
      let data := (List.range n).map (fun j => RegWrite.push q (pushTag s.nextId j) (loadEntry ts vals j))
      let resid := if nr then
          [RegWrite.push q (pushTag s.nextId n) (vecEntry (ts.map (fun t => (t, boolWord (absent.contains t)))))]
        else []
      .done s { lat := none, writes := data ++ resid, act := s.memAct ps false sig })

/-- The lanes of `VLD` and `VST`: thread t at `BASE` + imm + `S(rs)` + t × w (R211). -/
def strideLanes (c : Course) (rs : BitVec 6) (imm : BitVec 21) (w : Nat) (ts : List Nat) (r : BReg) : List (Nat × Nat) :=
  ts.map (fun t => (t, addr (r.base + imm.signExtend 64 + (c.S rs.toNat).setWidth 64) (t * w)))

/-- The lanes of `VLDX` and `VSTX`: thread t at `BASE` + imm + (`I(t)` << sh) (R211). -/
def indexLanes (imm : BitVec 21) (sh : Nat) (idx : QEntry) (ts : List Nat) (r : BReg) : List (Nat × Nat) :=
  ts.map (fun t => (t, addr (r.base + imm.signExtend 64) ((idx.word t).toNat * 2 ^ sh)))

/-- Entries a load pushes (R212, R213). -/
def loadCount (sz : BitVec 2) (nr : BitVec 1) : Nat := (if sz = 3 then 2 else 1) + nr.toNat

/-- VLD (R211 to R213). -/
def execVld (k : Ctl) (sz : BitVec 2) (q bt : BitVec 3) (rs : BitVec 6) (nr : BitVec 1) (hint : BitVec 2)
    (imm : BitVec 21) (s : State) : Out :=
  let io : QueueUse := { pushes := [(q.toNat, loadCount sz nr)] }
  execCourse k io (fun s =>
    s.vload sz q.toNat (nr == 1) hint bt (sigFlag k) (strideLanes s.cur rs imm (szBytes sz) (threads s.cur.live))) s

/-- VLDX (R211 to R213): `rs` names the index queue in bit 5 and the shift in [4:0]. -/
def execVldx (k : Ctl) (sz : BitVec 2) (q bt : BitVec 3) (rs : BitVec 6) (nr : BitVec 1) (hint : BitVec 2)
    (imm : BitVec 21) (s : State) : Out :=
  let iq := 4 + rs.toNat / 32
  let io : QueueUse := { pops := [(iq, 1)], pushes := [(q.toNat, loadCount sz nr)] }
  execCourse k io (fun s =>
    let idx := s.cur.popped iq 0
    s.vload sz q.toNat (nr == 1) hint bt (sigFlag k) (indexLanes imm (rs.toNat % 32) idx (idx.threads s.cur.live))) s

/-- A vector store of some threads (R211, R212, R214): data from the popped entries, the low word first. -/
def State.vstore (s0 : State) (sz : BitVec 2) (hint : BitVec 2) (bt : BitVec 3) (sig : Option Nat)
    (data : List QEntry) (lanes : BReg → List (Nat × Nat)) : Res :=
  let (s, r) := s0.vreg bt
  let w := szBytes sz
  let value (t : Nat) : Nat :=
    (data.zipIdx.foldl (fun v e => v + (e.1.word t).toNat * 2 ^ (32 * e.2)) 0) % 2 ^ (8 * w)
  let h : How := { acc := { wr := true }, hint := Hint.of hint }
  (s.reach s.cur.ctx (some r) h ((lanes r).map (fun l => ⟨l.1, l.2, w⟩))).res s0
    (fun s ps _ =>
      let act := s.memAct ps true sig
      let s := s.storeAll h (ps.map (fun p => (p, value p.t)))
      .done (s.countOut act) { lat := none, act := act })

/-- VST (R211, R212). -/
def execVst (k : Ctl) (sz : BitVec 2) (q bt : BitVec 3) (rs : BitVec 6) (_nr : BitVec 1) (hint : BitVec 2)
    (imm : BitVec 21) (s : State) : Out :=
  let dq := 4 + q.toNat
  let n := if sz = 3 then 2 else 1
  let io : QueueUse := { pops := [(dq, n)] }
  execCourse k io (fun s =>
    let data := (List.range n).map (s.cur.popped dq)
    s.vstore sz hint bt (sigFlag k) data
      (strideLanes s.cur rs imm (szBytes sz) ((s.cur.popped dq 0).threads s.cur.live))) s

/-- VSTX (R211, R212): the index entry is popped first, then the data. -/
def execVstx (k : Ctl) (sz : BitVec 2) (q bt : BitVec 3) (rs : BitVec 6) (_nr : BitVec 1) (hint : BitVec 2)
    (imm : BitVec 21) (s : State) : Out :=
  let iq := 4 + rs.toNat / 32
  let dq := 4 + q.toNat
  let n := if sz = 3 then 2 else 1
  let io : QueueUse := { pops := [(iq, 1), (dq, n)] }
  execCourse k io (fun s =>
    let idx := s.cur.popped iq 0
    let data := (List.range n).map (s.cur.popped dq)
    s.vstore sz hint bt (sigFlag k) data (indexLanes imm (rs.toNat % 32) idx (idx.threads s.cur.live))) s

/-! Atomics (R215). -/

/-- The new value of a read-modify-write of `w` bytes from the old value and the operand (R215). -/
def amoNew (op w o a : Nat) : Nat :=
  let n := 8 * w
  let sgn (x : Nat) : Int := decodeInt n true x
  match op with
  | 0 => a
  | 1 => (o + a) % 2 ^ n
  | 2 => o &&& a
  | 3 => o ||| a
  | 4 => o ^^^ a
  | 5 => if sgn o ≤ sgn a then o else a
  | 6 => if sgn o ≤ sgn a then a else o
  | 7 => min o a
  | 8 => max o a
  | 9 => if a ≤ o then 0 else o + 1
  | 10 => (fadd32 (BitVec.ofNat 32 o) (BitVec.ofNat 32 a)).toNat
  | 12 => a
  | _ => o

/-- A read-modify-write of a kind and scope (R126). -/
def How.atomicRmw (kind : BitVec 3) (scope : BitVec 4) : How :=
  { acc := { rd := true, wr := true }, atomic := true, kind := kind.toNat, scope := scope.toNat }

/-- The old values of some places and what is written to them, in turn, each seeing what went before. -/
def State.rmwPlan (s : State) (f : Nat → Nat → Option Nat) (ps : List Place) : List (Place × Nat × Option Nat) :=
  (ps.foldl (fun (acc : List Host.Cell × List (Place × Nat × Option Nat)) p =>
    let o := State.valueAt { s with mem := acc.1 } p
    let new := f p.t o
    (match new with | some x => Memory.store acc.1 p.mem (bytesLE p.w x) | none => acc.1, acc.2 ++ [(p, o, new)]))
    (s.mem, [])).2

/-- Read-modify-writes of places take effect: the read part of each, then the write part of those that write (R131,
R216). -/
def State.rmwAll (s : State) (h : How) (es : List (Place × Nat × Option Nat)) : State :=
  let ws := es.filterMap (fun e => e.2.2.map (fun x => (e.1, x)))
  let s := s.openFrames (ws.map Prod.fst)
  let s := es.foldl (fun s e => s.syncLoad e.1.key e.1.w h.kind h.scope) s
  let s := s.syncStores h.kind h.scope true (ws.map (fun e => (e.1.key, e.1.w)))
  let s := s.cacheAtomics h (es.map Prod.fst) (ws.map Prod.fst)
  (ws.foldl (fun s e => s.storeAt e.1 e.2) s).persisted h (ws.map Prod.fst)

/-- The places that a read-modify-write plan writes. -/
def planWrites (es : List (Place × Nat × Option Nat)) : List Place :=
  es.filterMap (fun e => if e.2.2.isSome then some e.1 else none)

/-- The unit that performs an agent's atomic at a place (R388): none for a scratchpad, its bay's for memory of the device,
the home directory for a peer's. -/
def State.keyUnit (s : State) (pa : Nat) : Option Nat :=
  if s.cur.sys.isSome ∨ rgn pa = 1 then none
  else if s.isLocal pa then some (bayOf s.cur.wall) else some (4096 + pa / 2 ^ 46)

/-- Whether a unit that an atomic needs holds 4,096 keys (R388). -/
def State.keysFull (s : State) (ps : List Place) : Bool :=
  ps.any (fun p => match s.keyUnit p.pa with
    | some u => 4096 ≤ (s.keys.filter (fun e => e.1 == u)).length
    | none => false)

/-- An atomic request of a course is performed: its key is recorded with its results in every unit it used, and the
course's count of requests advances (R388). -/
def State.keyed (s : State) (olds : List (Place × Nat × Option Nat)) : State :=
  if s.cur.sys.isSome then s
  else
    let n := s.cur.atoms
    let units := (olds.filterMap (fun e => s.keyUnit e.1.pa)).dedup
    let new := units.map (fun u => (u, s.cur.ident, n,
      (olds.filter (fun e => s.keyUnit e.1.pa == some u)).map (fun e => BitVec.ofNat 64 e.2.1)))
    { s with keys := s.keys ++ new, cur := { s.cur with atoms := n + 1 } }

/-- A vector atomic (R217): the acted-on threads in ascending order, each on its word; `f` gives the value written from
the thread and the old value. -/
def State.vatomic (s0 : State) (rd : BitVec 6) (h : How) (bt : BitVec 3) (off : QEntry)
    (f : Nat → Nat → Option Nat) : Res :=
  let (s, r) := s0.vreg bt
  let ls := (off.threads s.cur.live).map (fun t => Lane.mk t (addr r.base (off.word t).toNat) 4)
  (s.reachW s.cur.ctx (some r) h ls (fun s ps => planWrites (s.rmwPlan f ps))).res s0 (fun s ps _ =>
    if s.keysFull ps then .wait s0
    else
    let es := s.rmwPlan f ps
    let olds := es.map (fun e => (e.1.t, BitVec.ofNat 32 e.2.1))
    let ws := if 4 ≤ rd.toNat then [RegWrite.push (rd.toNat % 4) (pushTag s.nextId 0) (vecEntry olds)] else []
    .done ((s.rmwAll h es).keyed es) { lat := none, writes := ws, act := s.memAct ps false none })

/-- The queues of `VAMO` and `VCAS`: the offset queue, the operand queue with its count, the destination (R217). -/
def vatomicIo (rd rb : BitVec 6) (q : BitVec 3) (n : Nat) : QueueUse :=
  { pops := [(4 + q.toNat, 1), (4 + rb.toNat, n)], pushes := if 4 ≤ rd.toNat then [(rd.toNat % 4, 1)] else [] }

/-- VAMO (R215, R217). -/
def execVamo (k : Ctl) (rd : BitVec 6) (kind : BitVec 3) (scope : BitVec 4) (op : BitVec 5) (rb : BitVec 6)
    (bt q : BitVec 3) (s : State) : Out :=
  let io := vatomicIo rd rb q 1
  execCourse k io (fun s =>
    let off := s.cur.popped (4 + q.toNat) 0
    let a := s.cur.popped (4 + rb.toNat) 0
    s.vatomic rd (How.atomicRmw kind scope) bt off
      (fun t o => some (amoNew op.toNat 4 o (a.word t).toNat))) s

/-- VCAS (R216, R217): the expected words are popped first, the new ones second. Each thread that does not write is an
atomic read of its kind. -/
def execVcas (k : Ctl) (rd : BitVec 6) (kind : BitVec 3) (scope : BitVec 4) (_op : BitVec 5) (rb : BitVec 6)
    (bt q : BitVec 3) (s : State) : Out :=
  let io := vatomicIo rd rb q 2
  execCourse k io (fun s =>
    let off := s.cur.popped (4 + q.toNat) 0
    let a := s.cur.popped (4 + rb.toNat) 0
    let b := s.cur.popped (4 + rb.toNat) 1
    s.vatomic rd (How.atomicRmw kind scope) bt off
      (fun t o => if o = (a.word t).toNat then some (b.word t).toNat else none)) s

/-- A release at persist scope by a fence orders the agent's stores before what follows it: every slice's client memory is written back (R20). -/
def State.persistAll (s : State) (kind scope : Nat) : State :=
  if (kind = 3 ∨ kind = 4) ∧ scope = 9 then s.writeBack (fun n => rgn (32 * n) == 2) else s

/-- FENCE (R133, R218): its flag falls once the agent's earlier accesses are performed. -/
def execFence (k : Ctl) (kind : BitVec 3) (scope : BitVec 4) (s : State) : Out :=
  execA k (fun s => .done ((s.fenceC kind.toNat scope.toNat).persistAll kind.toNat scope.toNat) { lat := none, act := .fence }) s

/-! Queue moves (R219). -/

/-- QPUSH (R219). -/
def execQpush (k : Ctl) (q ra : BitVec 6) (s : State) : Out :=
  execCourse k { pushes := [(q.toNat, 1)] } (fun s =>
    regs 1 [.push q.toNat (pushTag s.nextId 0) (.uni (s.cur.S ra.toNat))] s) s

/-- QPOP (R219). -/
def execQpop (k : Ctl) (rd q : BitVec 6) (s : State) : Out :=
  execCourse k { pops := [(4 + q.toNat, 1)] } (fun s =>
    regs 1 [.s rd.toNat (s.cur.popped (4 + q.toNat) 0).uniform] s) s

/-! Tag table (R100 to R102). -/

/-- The set of a key. -/
def tagSet (key : DWord) : Nat := key.toNat % 512
/-- The tag of a key: bits [55:9]. -/
def tagOf (key : DWord) : Nat := key.toNat / 2 ^ 9 % 2 ^ 47
/-- Entry `way` of a set. -/
def Plane.tag (p : Plane) (set way : Nat) : DWord := Sparse.get p.tags (4 * set + way) 0
/-- Whether an entry is valid. -/
def tagValid (e : DWord) : Bool := e.getLsbD 63
/-- Whether an entry holds a key. -/
def tagHits (e key : DWord) : Bool := tagValid e && e.toNat / 2 ^ 16 % 2 ^ 47 == tagOf key

/-- The result word of a lookup (R101): a hit's way and slot, or the victim way of a miss. -/
def Plane.lookup (p : Plane) (key : DWord) : Word :=
  let set := tagSet key
  match (List.range 4).find? (fun w => tagHits (p.tag set w) key) with
  | some w => BitVec.ofNat 32 (w * 2 ^ 16 + (p.tag set w).toNat % 2 ^ 16)
  | none =>
    let victim := ((List.range 4).find? (fun w => !tagValid (p.tag set w))).getD (Sparse.get p.rptr set 0)
    BitVec.ofNat 32 (2 ^ 31 + victim * 2 ^ 16)

/-- The plane of the focused course. -/
def State.myPlane (s : State) : Plane := s.plane s.cur.wall s.cur.plane
/-- The state with the plane of the focused course replaced. -/
def State.setMyPlane (s : State) (p : Plane) : State := s.setPlane s.cur.wall s.cur.plane p

/-- The key under which the releases of a plane's tag entries are kept: they are not memory, so their places lie above
every physical address. -/
def tagKey (wall plane set way : Nat) : Nat := 2 ^ 52 + ((wall * 4 + plane) * 512 + set) * 4 + way

/-- TAGLK (R101, R102): an acquire at wall scope of the entry it hits. -/
def execTaglk (k : Ctl) (rd ra : BitVec 6) (s : State) : Out :=
  execCourse k {} (fun s =>
    let key := s.cur.S64 ra.toNat
    let r := s.myPlane.lookup key
    let s := if r.getLsbD 31 then s
      else s.syncLoad (tagKey s.cur.wall s.cur.plane (tagSet key) (r.toNat / 2 ^ 16)) 1 2 3
    .done s { lat := none, writes := [.s rd.toNat r] }) s

/-- TAGSET (R101, R102): a release at wall scope; the replacement pointer moves on when it names the way written. -/
def execTagset (k : Ctl) (ra rb : BitVec 6) (s : State) : Out :=
  execCourse k {} (fun s =>
    let key := s.cur.S64 ra.toNat
    let y := (s.cur.S rb.toNat).toNat
    let set := tagSet key
    let way := y / 2 ^ 16 % 4
    let p := s.myPlane
    let e := BitVec.ofNat 64 (2 ^ 63 + tagOf key * 2 ^ 16 + y % 2 ^ 16)
    let ptr := Sparse.get p.rptr set 0
    let p := { p with tags := Sparse.set p.tags (4 * set + way) e 0,
                      rptr := if ptr = way then Sparse.set p.rptr set ((ptr + 1) % 4) 0 else p.rptr }
    let s := (s.setMyPlane p).syncStores 3 3 false [(tagKey s.cur.wall s.cur.plane set way, 1)]
    .done s { lat := none }) s

/-- TAGINV (R101): every matching entry of the set loses `V`. -/
def execTaginv (k : Ctl) (ra : BitVec 6) (s : State) : Out :=
  execCourse k {} (fun s =>
    let key := s.cur.S64 ra.toNat
    let set := tagSet key
    let p := s.myPlane
    let clear (t : Sparse DWord) (w : Nat) : Sparse DWord :=
      if tagHits (p.tag set w) key then Sparse.set t (4 * set + w) ((p.tag set w).setWidth 63 |>.setWidth 64) 0 else t
    .done (s.setMyPlane { p with tags := (List.range 4).foldl clear p.tags }) { lat := none }) s

/-- TAGRD (R101, R220). -/
def execTagrd (k : Ctl) (rd ra : BitVec 6) (s : State) : Out :=
  execCourse k {} (fun s =>
    let i := (s.cur.S ra.toNat).toNat % 2048
    .done s { lat := none, writes := pairWrites rd.toNat (Sparse.get s.myPlane.tags i 0) }) s

end Sys2Proof.Machine
end

