-- ==== Sys2Proof/Machine/Chutes.lean ====
section
/-! DEFINITION. Chutes (R115 to R117): their indices and room, what their advances carry, and the course-side instructions
(R264, R265). Also the plain scratchpad reads of a course that its instructions make at an offset (R107, R256). -/

namespace Sys2Proof.Machine

/-! Scratchpad reads at an offset. -/

/-- A range cut at sector boundaries. -/
def piecesFrom : Nat → Nat → Nat → List (Nat × Nat)
  | 0, _, _ => []
  | fuel + 1, a, n =>
    if n = 0 then []
    else
      let w := min n (32 - a % 32)
      (a, w) :: piecesFrom fuel (a + w) (n - w)

/-- The pieces of `n` bytes from `a`, each within one sector. -/
def pieces (a n : Nat) : List (Nat × Nat) := piecesFrom (n / 32 + 2) a n

/-- A register that covers the whole scratchpad. -/
def BReg.wholeSp : BReg := ⟨0, 0, 0, true, true, false, 0, false, true, 0x100000, 0x100000⟩

/-- A plain read by the focused course of `n` scratchpad bytes at an offset; a fault marks no thread (R356), and none of its
bytes is another device's. -/
def State.readSp (s : State) (off n : Nat) : Reach :=
  match s.reach s.cur.ctx (some BReg.wholeSp) { acc := { rd := true } } ((pieces off n).map (fun p => ⟨0, p.1, p.2⟩)) with
  | .trap s t => .trap s { t with fmask := 0 }
  | .lost s ps ab => .ok s ps ab
  | r => r

/-- The bytes at some places. -/
def State.bytesAt (s : State) (ps : List Place) : List Byte := ps.flatMap (fun p => s.load p.mem p.w)

/-- The little-endian number of `n` bytes of a block at an offset. -/
def numAt (bs : List Byte) (off n : Nat) : Nat := ofBytesLE ((bs.drop off).take n)

/-- A scratchpad offset in a register, with its alignment (R256). Log entry 48, DEDUCED. -/
def spOffset (x : Word) (align : Nat) : Option Nat :=
  if x.toNat < 2 ^ 20 ∧ x.toNat % align = 0 then some x.toNat else none

/-! Chutes. -/

/-- Published entries (R115). -/
def Chute.published (c : Chute) : Nat := (c.prod + 2 * c.cap - c.cons) % (2 * c.cap)
/-- Free entries beyond the reserved room (R118). -/
def Chute.room (c : Chute) : Nat := c.cap - c.published - c.resv
/-- The scratchpad offset of entry i (R115). -/
def Chute.entry (c : Chute) (i : Nat) : Nat := c.base + i % c.cap * c.size
/-- An index advanced by n (R115). -/
def Chute.step (c : Chute) (i n : Nat) : Nat := (i + n) % (2 * c.cap)
/-- Chute `ch` of a plane. -/
def Plane.chute (p : Plane) (ch : Nat) : Chute := Sparse.get p.chutes ch Chute.none
/-- The plane with a chute replaced. -/
def Plane.setChute (p : Plane) (ch : Nat) (c : Chute) : Plane := { p with chutes := Sparse.set p.chutes ch c Chute.none }
/-- The state with a chute of a plane changed. -/
def State.modChute (s : State) (wall plane ch : Nat) (f : Chute → Chute) : State :=
  let p := s.plane wall plane
  s.setPlane wall plane (p.setChute ch (f (p.chute ch)))

/-- Where the places of a plane's chutes begin, under which the releases of their entries are kept, as for the tag table: 2^17 for each. -/
def chuteBase (wall plane : Nat) : Nat := 2 ^ 52 + 2 ^ 51 + (wall * 4 + plane) * 2 ^ 21

/-- The places under which the releases of n entries from index i are kept. -/
def chuteKeys (wall plane ch : Nat) (c : Chute) (i n : Nat) : List Nat :=
  (List.range n).map (fun j => chuteBase wall plane + ch * 2 ^ 17 + (i + j) % c.cap)

/-- The producer advances by n entries, releasing them with a carry (R117, R131). -/
def State.publish (s : State) (wall plane ch n : Nat) (carry : Carry) : State :=
  let c := (s.plane wall plane).chute ch
  let s := (chuteKeys wall plane ch c c.prod n).foldl (fun s k => s.layRels [carry] k 1 false) s
  s.modChute wall plane ch (fun c => { c with prod := c.step c.prod n })

/-- The releases of n entries from index i. -/
def State.entryRels (s : State) (wall plane ch i n : Nat) : List Carry :=
  ((chuteKeys wall plane ch ((s.plane wall plane).chute ch) i n).flatMap (fun k => s.relsOn k 1)).dedup

/-- The focused course acquires n entries from index i at wall scope (R131). -/
def State.acquireEntries (s : State) (wall plane ch i n : Nat) : State :=
  (s.entryRels wall plane ch i n).foldl (fun s c => s.acquireIf c 3) s

/-- Whether a `CHDEF` of a chute of the plane is waiting (R264). -/
def State.redefining (s : State) (wall plane ch : Nat) : Bool :=
  s.agents.any (fun c => c.sys.isNone && c.wall == wall && c.work.any (fun k => match k.act with
    | .chdef p h _ => p == plane && h == ch
    | _ => false))

/-- The side of a chute that an operation of R265 acts on: true for the producer's. -/
def opProduces (op : Nat) : Bool := op == 0 || op == 3

/-- The work numbers of the operations that wait at one side of a chute (R265). -/
def State.waitingOps (s : State) (wall plane ch : Nat) (produces : Bool) : List Nat :=
  (s.agents.filter (fun c => c.sys.isNone && c.wall == wall)).flatMap (fun c => c.work.filterMap (fun k => match k.act with
    | .chute p h op _ _ _ => if p = plane ∧ h = ch ∧ opProduces op = produces then some k.id else none
    | _ => none))

/-- Whether an operation of R265 may act: it is the first of its side, and its condition holds: its course's earlier stores to the
chute are complete, and the entries or the room are there; a count of 0 has no condition. -/
def State.chuteReady (s : State) (c : Course) (id plane ch op n : Nat) (after : List Nat) : Bool :=
  let q := (s.plane c.wall plane).chute ch
  (s.waitingOps c.wall plane ch (opProduces op)).all (fun j => id ≤ j) &&
  (n == 0 || match op with
    | 0 => after.all (fun j => (c.workOf j).isNone) && decide (q.published + q.resv + n ≤ q.cap)
    | 3 => q.published + q.resv + n ≤ q.cap
    | _ => n ≤ q.published)

/-- An operation of R265 acts, for the focused course; the value it returns. Log entry 47, DEDUCED. -/
def State.chuteAct (s : State) (plane ch op n : Nat) : Nat × State :=
  let w := s.cur.wall
  let q := (s.plane w plane).chute ch
  match op with
  | 0 => let r := s.releaseC 3; (q.prod, r.2.publish w plane ch n r.1)
  | 1 => (q.cons, (s.acquireEntries w plane ch q.cons n).modChute w plane ch (fun q => { q with cons := q.step q.cons n }))
  | 2 => (q.cons, s.acquireEntries w plane ch q.cons n)
  | _ => (q.step q.prod q.resv, s)

/-- The work numbers of a course's stores that are not complete. -/
def Course.storesOut (c : Course) : List Nat :=
  (c.work.filter (fun k => match k.act with | .store _ _ => true | .peer _ => true | _ => false)).map (fun k => k.id)

/-- The work numbers of a course's stores to the entries of a chute that are not complete (R265). -/
def Course.storesTo (c : Course) (q : Chute) : List Nat :=
  (c.work.filter (fun k => match k.act with
    | .store _ sp => sp.any (fun e => e.1 < q.base + q.cap * q.size && q.base < e.1 + e.2)
    | _ => false)).map (fun k => k.id)

/-- A course-side chute instruction (R265): the sides and the count are checked at issue, the rest waits. -/
def execChuteOp (op : Nat) (k : Ctl) (ch : BitVec 4) (rd rs : BitVec 6) (s : State) : Out :=
  execCourse k {} (fun s =>
    let c := s.cur
    if s.redefining c.wall c.plane ch.toNat then .wait s
    else
      let q := s.myPlane.chute ch.toNat
      let n := (c.S rs.toNat).toNat
      if (if opProduces op then q.pside != 1 else q.cside != 1) || q.cap < n then .trap s { code := 0x65 }
      else .done s { lat := none, act := .chute c.plane ch.toNat op n rd.toNat (if op = 0 then c.storesTo q else []) }) s

/-- CHPUT (R265, R117). -/
def execChput (k : Ctl) (ch : BitVec 4) (rd rs : BitVec 6) (s : State) : Out := execChuteOp 0 k ch rd rs s
/-- CHGET (R265). -/
def execChget (k : Ctl) (ch : BitVec 4) (rd rs : BitVec 6) (s : State) : Out := execChuteOp 1 k ch rd rs s
/-- CHWAIT.get (R265). -/
def execChwaitGet (k : Ctl) (ch : BitVec 4) (rd rs : BitVec 6) (s : State) : Out := execChuteOp 2 k ch rd rs s
/-- CHWAIT.put (R265). -/
def execChwaitPut (k : Ctl) (ch : BitVec 4) (rd rs : BitVec 6) (s : State) : Out := execChuteOp 3 k ch rd rs s

/-- The chute a 32-byte descriptor defines (R164, R264); none when it breaks a rule. Log entry 73, DEDUCED. -/
def parseChute (bs : List Byte) : Option Chute :=
  let base := numAt bs 0 4
  let cap := numAt bs 4 4
  let size := numAt bs 8 4
  let sides := numAt bs 20 4
  let pside := sides % 16
  let cside := sides / 16 % 16
  let chan := sides / 256 % 16
  if numAt bs 12 8 ≠ 0 ∨ numAt bs 24 8 ≠ 0 then none
  else if cap = 0 then (if numAt bs 0 4 = 0 ∧ size = 0 ∧ sides = 0 then some Chute.none else none)
  else if base % 32 ≠ 0 ∨ 65536 < cap ∨ size % 32 ≠ 0 ∨ size = 0 ∨ 0x100000 < base + cap * size ∨
      pside = 0 ∨ 3 < pside ∨ cside = 0 ∨ 3 < cside ∨ 2 ^ 12 ≤ sides ∨ ((pside = 2 ∨ cside = 2) ∧ 7 < chan) then none
  else some ⟨base, cap, size, 0, 0, pside, cside, chan, 0⟩

/-- CHDEF (R264): the descriptor is read and checked at issue; `CHDEF_REPLACE` acts. -/
def execChdef (k : Ctl) (ch : BitVec 4) (ra : BitVec 6) (s : State) : Out :=
  execCourse k {} (fun s =>
    let c := s.cur
    if s.redefining c.wall c.plane ch.toNat then .wait s
    else match spOffset (c.S ra.toNat) 32 with
      | none => .trap s { code := 0x65 }
      | some off => (s.readSp off 32).res s (fun s' ps _ =>
          let bs := s'.bytesAt ps
          match parseChute bs with
          | none => .trap s { code := 0x65 }
          | some _ => .done s' { lat := none, act := .chdef c.plane ch.toNat bs })) s

/-- Whether an operation names a chute of a plane (R264): an engine operation, a copy, or a
waiting operation of R265. -/
def State.chuteNamed (s : State) (wall plane ch : Nat) : Bool :=
  (s.plane wall plane).engine.any (fun o => o.members.any (fun m => m.a == ch || m.c == ch)) ||
  (s.wall wall).chans.any (fun e => match e.2.job with
    | some j => j.plane == plane && ((j.ctl.getLsbD 8 && j.ctl.toNat / 2 ^ 9 % 16 == ch) ||
        (j.ctl.getLsbD 3 && j.ctl.toNat / 2 ^ 4 % 16 == ch)) && j.kind == .cpy
    | none => false) ||
  !(s.waitingOps wall plane ch true).isEmpty || !(s.waitingOps wall plane ch false).isEmpty

/-- CHDEF_REPLACE (R264): once no operation names the chute, the definition is replaced, and the flag falls. -/
def execChdefReplace (who : DWord) (id : Nat) (s : State) : Out :=
  .next (match s.focus who with
    | none => s
    | some f =>
      match f.cur.workOf id with
      | some ⟨_, st, due, early, late, sig, ws, .chdef plane ch desc⟩ =>
        if f.chuteNamed f.cur.wall plane ch then s
        else
          let f := match parseChute desc with
            | some q => f.modChute f.cur.wall plane ch (fun _ => q)
            | none => f
          f.modC (fun c => c.finish ⟨id, st, due, early, late, sig, ws, .none⟩)
      | _ => s)

end Sys2Proof.Machine
end

