-- ==== Sys2Proof/Machine/Copy.lean ====
section
/-! DEFINITION. Hod copies: parameter blocks (R258, R260, R261), issue (R106, R257, R259), the promise (R111), and the channel's
own steps: start, entries consumed, remote signal, completion and failure (R109, R110, R114, R373, R376). -/

namespace Sys2Proof.Machine

/-! Parameter blocks. -/

/-- A copy of a kind with nothing filled in. -/
def CopyJob.blank (kind : CopyKind) : CopyJob :=
  { kind := kind, ident := 0, asid := 0, lvl := 0, launch := 0, plane := 0, workId := 0, sig := none, src := 0, dst := 0,
    len := 0, ctl := 0, bmap := 0, idx := 0, nidx := 0, rowsz := 0, siga := 0, since := 0, dIdx := 0, issue := ⟨0, 0, 0, [], 0⟩,
    started := false, data := [], eaten := 0, sIdx := 0, nonres := [], written := false, signalled := false }

/-- Whether a bit of `CTL` is set (R258). -/
abbrev CopyJob.bit (j : CopyJob) (n : Nat) : Bool := j.ctl.getLsbD n
/-- The source is a scratchpad range (R258). -/
abbrev CopyJob.ssp (j : CopyJob) : Bool := j.bit 0
/-- The destination is a scratchpad range (R258). -/
abbrev CopyJob.dsp (j : CopyJob) : Bool := j.bit 1
/-- The destination is a chute (R258). -/
abbrev CopyJob.dcv (j : CopyJob) : Bool := j.kind == .cpy && j.bit 3
/-- The source is a chute (R258). -/
abbrev CopyJob.scv (j : CopyJob) : Bool := j.kind == .cpy && j.bit 8
/-- The destination chute (R258). -/
abbrev CopyJob.dch (j : CopyJob) : Nat := j.ctl.toNat / 2 ^ 4 % 16
/-- The source chute (R258). -/
abbrev CopyJob.sch (j : CopyJob) : Nat := j.ctl.toNat / 2 ^ 9 % 16
/-- The copy sends the remote signal (R261). -/
abbrev CopyJob.sigv (j : CopyJob) : Bool := j.kind == .cpyp && j.bit 15

/-- The limits of R258, R260 and R261 that a block alone decides. -/
def CopyJob.formOk (j : CopyJob) : Bool :=
  let top := 0x100000
  j.ctl.toNat < 2 ^ 16 && j.ctl.toNat / 2 ^ 13 % 4 != 3 && !j.bit 2 &&
  match j.kind with
  | .cpy =>
    !j.bit 15 && (!j.dcv || j.dst == 0) && !(j.scv && j.dcv && j.sch == j.dch) &&
    (!j.ssp || j.scv || j.src.toNat + j.len ≤ top) && (!j.dsp || j.dcv || j.dst.toNat + j.len ≤ top)
  | .cpyg =>
    j.ctl.toNat % 2 ^ 13 == 0 && !j.bit 15 && j.dst.toNat % 4 == 0 && j.idx % 4 == 0 && j.rowsz % 4 == 0 &&
    4 ≤ j.rowsz && j.rowsz ≤ 65536 && j.nidx ≤ 65536 && j.dst.toNat + j.nidx * j.rowsz ≤ top &&
    j.bmap + (j.nidx + 7) / 8 ≤ top && j.idx + 4 * j.nidx ≤ top
  | .cpyp =>
    j.ctl.toNat % 2 ^ 13 < 2 && j.siga.toNat % 8 == 0 && (j.bit 15 || j.siga == 0) &&
    (!j.ssp || j.src.toNat + j.len ≤ top)

/-- A copy from its block; none when the block is malformed. -/
def parseBlock (kind : CopyKind) (bs : List Byte) : Option CopyJob :=
  let w64 (o : Nat) : DWord := BitVec.ofNat 64 (numAt bs o 8)
  let w32 (o : Nat) : Nat := numAt bs o 4
  let j := CopyJob.blank kind
  let ctl := BitVec.ofNat 32 (w32 20)
  let j := match kind with
    | .cpy => { j with src := w64 0, dst := w64 8, len := w32 16, ctl := ctl, siga := w64 24 }
    | .cpyg => { j with src := w64 0, dst := BitVec.ofNat 64 (w32 8), bmap := w32 12, rowsz := w32 16, ctl := ctl,
                        idx := w32 24, nidx := w32 28, len := w32 28 * w32 16 }
    | .cpyp => { j with src := w64 0, dst := w64 8, len := w32 16, ctl := ctl, siga := w64 24 }
  if kind = .cpy ∧ j.siga ≠ 0 then none else if j.formOk then some j else none

/-! Issue (R106, R257, R259). -/

/-- The channel of a wall. -/
def State.chan (s : State) (w ch : Nat) : Chan := Sparse.get (s.wall w).chans ch Chan.zero
/-- The state with a channel of a wall replaced. -/
def State.setChan (s : State) (w ch : Nat) (x : Chan) : State :=
  let y := s.wall w
  s.setWall w { y with chans := Sparse.set y.chans ch x Chan.zero }
/-- The free channels of a wall, lowest first. -/
def State.freeChans (s : State) (w : Nat) : List Nat := (List.range 8).filter (fun ch => (s.chan w ch).job.isNone)

/-- A chute form of a block: the side is the Hod's and the length is a whole number of entries (R259). -/
def chuteFormOk (q : Chute) (side len : Nat) : Bool :=
  side == 2 && q.cap != 0 && len % q.size == 0 && 1 ≤ len / q.size && len / q.size ≤ q.cap

/-- The channel a copy takes: malformed (none), to wait for (some none), or one. -/
def State.chooseChan (s : State) (j : CopyJob) : Option (Option Nat) :=
  let p := s.myPlane
  let d := p.chute j.dch
  let q := p.chute j.sch
  let free := s.freeChans s.cur.wall
  if (j.dcv && !chuteFormOk d d.pside j.len) || (j.scv && !chuteFormOk q q.cside j.len) ||
      (j.dcv && j.scv && d.chan != q.chan) then none
  else if j.dcv && d.room < j.len / d.size then some none
  else if j.dcv then some (if free.contains d.chan then some d.chan else none)
  else if j.scv then some (if free.contains q.chan then some q.chan else none)
  else some free.head?

/-- The parameter-block cache after a `CPYR` (R108): at most 32 blocks. Log entry 93, DESIGN CHOICE. -/
def Wall.cacheBlock (w : Wall) (off : Nat) : Wall :=
  { w with pcache := (off :: w.pcache.filter (· != off)).take 32 }

/-- The promise of a copy (R111): a tick after the present one, left open beyond that, within 64 bits; the die notes the frequency it was
computed on (R112). Log entry 32, DESIGN CHOICE. -/
def State.promise (s : State) : DWord × State :=
  let (d, s) := s.draw
  let p := BitVec.ofNat 64 (min (2 ^ 64 - 1) (s.now.toNat + 1 + d))
  let y := s.die s.cur.die
  (p, s.setDie s.cur.die { y with proms := y.proms ++ [(p, y.mhz)] })

/-- A launch's outstanding counter on a wall moves (R173). -/
def State.outstanding (s : State) (launch wall : Nat) (f : Nat → Nat) : State :=
  s.modLaunch launch (fun l => { l with outst := Sparse.set l.outst wall (f (Sparse.get l.outst wall 0)) 0 })

/-- A copy takes a channel: the course releases to it at wall scope (R131), entries are reserved (R259), the promise is
on its way (R111). A channel starts, and draws its identity (R125), with its first copy. Log entry 95, DEDUCED. -/
def State.startJob (s : State) (j : CopyJob) (ch : Nat) (rd : Nat) (sig : Option Nat) : Res :=
  let c := s.cur
  let id := s.nextId
  let (p, s) := s.promise
  let (carry, s) := s.releaseC 3
  let d := (s.plane c.wall c.plane).chute j.dch
  let n := j.len / d.size
  let j := { j with ident := c.ident, asid := c.asid, launch := c.launch, plane := c.plane, workId := id, sig := sig,
                    issue := carry, since := s.now, dIdx := d.step d.prod d.resv }
  let s := if j.dcv then s.modChute c.wall c.plane j.dch (fun q => { q with resv := q.resv + n }) else s
  let x := s.chan c.wall ch
  let x := if x.ident = 0#64 then { x with ident := identity 1 s.nextStart, sync := Sync.start } else x
  let s := if (s.chan c.wall ch).ident = 0#64 then { s with nextStart := s.nextStart + 1 } else s
  let s := s.setChan c.wall ch { x with job := some j, plane := some c.plane }
  let s := s.modC (fun c => { c with promises := c.promises ++ [(id, p)] })
  let s := s.outstanding c.launch c.wall (· + (if j.sigv then 2 else 1))
  .done s { lat := none, act := .copy c.wall ch, side := pairWrites rd p, sideLat := 4, sideAct := .promise }

/-- A copy instruction (R257): it waits for a channel, reads its block at issue, and runs on the channel. -/
def execCopy (kind : CopyKind) (cached : Bool) (k : Ctl) (rd ra : BitVec 6) (s : State) : Out :=
  execCourse k {} (fun s0 =>
    match spOffset (s0.cur.S ra.toNat) 32 with
    | none => .trap s0 { code := 0x65 }
    | some off =>
      if s0.freeChans s0.cur.wall = [] then .wait s0
      else (s0.readSp off 32).res s0 (fun s ps _ =>
        match parseBlock kind (s.bytesAt ps) with
        | none => .trap s0 { code := 0x40 }
        | some j =>
          let c := s0.cur
          if (j.dcv && s0.redefining c.wall c.plane j.dch) || (j.scv && s0.redefining c.wall c.plane j.sch) then .wait s0
          else match s.chooseChan j with
            | none => .trap s0 { code := 0x40 }
            | some none => .wait s0
            | some (some ch) =>
              let s := if cached then s.setWall c.wall ((s.wall c.wall).cacheBlock off) else s
              s.startJob j ch rd.toNat (sigFlag k))) s

/-- CPY (R257 to R259). -/
def execCpy (k : Ctl) (rd ra : BitVec 6) (s : State) : Out := execCopy .cpy false k rd ra s
/-- CPYR (R108): the copy that `CPY` would produce; its block may then stand in the parameter-block cache. -/
def execCpyr (k : Ctl) (rd ra : BitVec 6) (s : State) : Out := execCopy .cpy true k rd ra s
/-- CPYG (R109, R260). -/
def execCpyg (k : Ctl) (rd ra : BitVec 6) (s : State) : Out := execCopy .cpyg false k rd ra s
/-- CPYP (R110, R261). -/
def execCpyp (k : Ctl) (rd ra : BitVec 6) (s : State) : Out := execCopy .cpyp false k rd ra s

/-- PROMISE_WRITE (R111): the promise reaches its pair 4 cycles after issue. -/
def execPromiseWrite (who : DWord) (id : Nat) (s : State) : Out :=
  .next (match s.focus who with
    | none => s
    | some f =>
      match f.cur.workOf id with
      | some k => if k.act = .promise ∧ (k.due.getD 0) ≤ f.cycle then f.modC (fun c => c.finish k) else s
      | none => s)

/-! Accesses of a channel (R136). -/

/-- Who makes an access that is not the focused agent's: its identity and synchronisation state, its die, how it
translates, the plane whose scratchpad offsets it uses (if it uses offsets), and which copy of a shadow buffer it
reaches. -/
structure Maker where
  who     : DWord
  sync    : Sync
  die     : Nat
  ctx     : Ctx
  spot    : Option (Nat × Nat) := none
  visible : Bool := true
  deriving DecidableEq, Repr

/-- Where a scratchpad offset of a maker's plane lies: in the copy of a declared buffer that its accesses go to (R138, R262). -/
def State.spotPlace (s : State) (m : Maker) (w pl off : Nat) : Nat :=
  s.scratch w pl (shadowMove (s.plane w pl).shadows m.ctx.asid off m.visible)

/-- One piece of a range, within a sector: its place, or its fault in the order of R354. -/
def State.pieceAt (s : State) (m : Maker) (h : How) (p : Nat × Nat) : LaneR × State :=
  match m.spot with
  | some (w, pl) =>
    (s.placed m.ctx h ⟨0, p.1, p.2⟩ (Lane.inScratch ⟨0, p.1, p.2⟩ p.1 (s.spotPlace m w pl p.1)), s)
  | none =>
    if 2 ^ 56 ≤ p.1 then (.fault 0 p.1 0x06 none, s)
    else
      match s.laneGlobal m.ctx h ⟨0, p.1, p.2⟩ (shadowMove s.shadows m.ctx.asid p.1 m.visible) with
      | (.place q, s) => (.place { q with chk := q.chk || (rgn q.pa == 1 && s.isLocal q.pa) }, s)
      | r => r

/-- Why a range was not accessed: the code, the address, and the other agent of a race. -/
structure RangeFault where
  code  : Code
  pa    : Nat := 0
  other : DWord := 0
  rc    : DWord := 0
  deriving DecidableEq, Repr

/-- A place checked for a race and tagged (R142). -/
def State.checkPlace (s : State) (m : Maker) (h : How) (q : Place) : Option RangeFault × State :=
  if !q.chk then (none, s)
  else match s.raceOn m.who m.sync q.sec h.acc.wr h.atomic h.scope with
    | some o => (some { code := 0x0B, pa := q.pa / 32 * 32, other := o.1, rc := o.2 }, s)
    | none => (none, s.tagged m.who m.sync q.sec h.acc.wr h.atomic h.scope)

/-- A maker that has acquired what the walk for a piece carries (R150). -/
def State.walksFor (s : State) (m : Maker) (p : Nat × Nat) : Maker :=
  match m.spot with
  | some _ => m
  | none => { m with sync := s.syncWalk m.who m.sync (s.lookRels m.ctx (shadowMove s.shadows m.ctx.asid p.1 m.visible)) }

/-- The pieces of a range in turn, up to the first that fails: the places before it are given too. -/
def State.range (s : State) (m : Maker) (h : How) : List (Nat × Nat) → Option RangeFault × List Place × State
  | [] => (none, [], s)
  | p :: r =>
    let m := s.walksFor m p
    match s.pieceAt m h p with
    | (.fault _ va c po, s) =>
      (some { code := c, pa := po.getD (match m.spot with | some (w, pl) => s.spotPlace m w pl va | none => va) }, [],
        match po with | some pa => s.poisonUsed pa m.who m.die | none => s)
    | (.absent _, s) => (some { code := 0x04 }, [], s)
    | (.place q, s) =>
      match s.checkPlace m h q with
      | (some f, s) => (some f, [], s)
      | (none, s) =>
        let (f, qs, s) := s.range m h r
        (f, q :: qs, s)

/-- Bytes stored by a unit of a wall for a launch: ordinary stores that go through the bay's slice (R105), end carried releases (R131),
write in a snapshot domain's working frames (R179), clear the poison of a whole sector (R366), and leave the parameter-block cache
(R108). -/
def State.putRange (s : State) (launch wall : Nat) (hint : Hint) (qs : List (Place × List Byte)) : State :=
  let s := qs.foldl (fun s e => (s.ownFrame launch wall e.1.va e.1.pa).2) s
  let s := (s.cacheWrites (bayOf wall) hint (s.cacheSectors (qs.map Prod.fst))).cleanse (qs.map Prod.fst)
  qs.foldl (fun s e =>
    let (a, s) := s.ownFrame launch wall e.1.va e.1.pa
    let s := (s.dropBlocks e.1.pa e.1.w).pastHost e.1.pa e.1.w
    { s.store a e.2 with rels := cutRels s.rels e.1.key e.1.w }) s

/-- Places with the bytes of a string, in turn. -/
def cutBytes : List Place → List Byte → List (Place × List Byte)
  | [], _ => []
  | q :: r, bs => (q, bs.take q.w) :: cutBytes r (bs.drop q.w)

/-! What a copy on a channel accesses. -/

/-- The channel of a copy as the maker of its accesses; `sp` when it reaches scratchpads through leaves (R146). -/
def State.chanMaker (s : State) (w ch : Nat) (j : CopyJob) (spot visible sp : Bool) : Maker :=
  let x := s.chan w ch
  { who := x.ident, sync := x.sync, die := dieOf w,
    ctx := { asid := j.asid, user := true, path := [(0, w), (1, bayOf w), (2, yardOf w)], sp := sp, launch := some j.launch, who := x.ident },
    spot := if spot then some (w, j.plane) else none, visible := visible }

/-- The pieces of n chute entries from index i. -/
def Chute.entryPieces (q : Chute) (i n : Nat) : List (Nat × Nat) :=
  (List.range n).flatMap (fun t => pieces (q.entry (i + t)) q.size)

/-- The source pieces of a copy other than `CPYG`. -/
def State.srcPieces (s : State) (w : Nat) (j : CopyJob) : List (Nat × Nat) :=
  if j.scv then
    let q := (s.plane w j.plane).chute j.sch
    q.entryPieces q.cons (j.len / q.size)
  else pieces j.src.toNat j.len

/-- The destination pieces of a copy. -/
def State.dstPieces (s : State) (w : Nat) (j : CopyJob) : List (Nat × Nat) :=
  if j.dcv then
    let q := (s.plane w j.plane).chute j.dch
    q.entryPieces j.dIdx (j.len / q.size)
  else pieces j.dst.toNat j.len

/-- The placement hint of a copy (R211, R258). -/
def CopyJob.hint (j : CopyJob) : Hint := Hint.of (j.ctl.extractLsb' 13 2)

/-- The addresses of a gather's rows (R260), by the index list as its visible copy stands. -/
def State.gatherAddrs (s : State) (w : Nat) (j : CopyJob) : List Nat :=
  (List.range j.nidx).map (fun i =>
    let at_ (n : Nat) : Nat := s.scratch w j.plane (shadowMove (s.plane w j.plane).shadows j.asid (j.idx + 4 * i + n) true)
    (j.src.toNat + ofBytesLE ((List.range 4).map (fun n => s.byte (at_ n))) * j.rowsz) % 2 ^ 64)

/-- What the publishes of the declared buffers that a copy's source reaches released (R138): of the plane's buffers for a scratchpad range
and an index list, of the shadow map's for global addresses. -/
def State.sourcePubs (s : State) (w : Nat) (j : CopyJob) : List Carry :=
  let bufs := (s.plane w j.plane).shadows
  if j.kind = .cpyg then
    pubCarries bufs j.asid j.idx (4 * j.nidx) ++ (s.gatherAddrs w j).flatMap (fun a => pubCarries s.shadows j.asid a j.rowsz)
  else if j.scv || j.ssp then (s.srcPieces w j).flatMap (fun p => pubCarries bufs j.asid p.1 p.2)
  else pubCarries s.shadows j.asid j.src.toNat j.len

/-- The synchronisation state of an agent after accesses through published mappings: ordered after the publishes, as if it had acquired
them, where the agent is in their scope (R138). -/
def State.syncPubs (s : State) (who : DWord) (y : Sync) (cs : List Carry) : Sync :=
  cs.foldl (fun y c => if s.inScope c.scope c.who who then y.acquire who c else y) y

/-- The state in which a channel has acquired what the start of its copy acquires: the course's issue, the entries of a source chute,
and what the source's mappings have published (R131, R138). -/
def State.primed (s : State) (w ch : Nat) (j : CopyJob) : State :=
  let x := s.chan w ch
  let q := (s.plane w j.plane).chute j.sch
  let cs := j.issue :: (if j.scv then s.entryRels w j.plane j.sch q.cons (j.len / q.size) else [])
  let y := cs.foldl (fun y c => if s.syncs c x.ident 3 then y.acquire x.ident c else y) x.sync
  s.setChan w ch { x with sync := s.syncPubs x.ident y (s.sourcePubs w j) }

/-- What a copy has read: its source bytes, for a gather which rows are not resident, and the places read. -/
structure ReadOut where
  data   : List Byte := []
  nonres : List Bool := []
  places : List Place := []
  deriving DecidableEq, Repr

/-- A row of a gather (R109): its bytes, or zeros and the mark when any byte of it lies on a non-resident page. -/
def State.gatherRow (s : State) (w : Nat) (hint : Hint) (m : Maker) (va n : Nat) : Option RangeFault × ReadOut × State :=
  let h : How := { acc := { rd := true }, nr := true }
  let (rs, m, s) := (pieces va n).foldl (fun (acc : List LaneR × Maker × State) p =>
    let m := acc.2.2.walksFor acc.2.1 p
    let r := acc.2.2.pieceAt m h p
    (acc.1 ++ [r.1], m, r.2)) ([], m, s)
  match rs.find? (fun r => match r with | .fault _ _ _ _ => true | _ => false) with
  | some (.fault _ va c po) => (some { code := c, pa := po.getD va }, {}, match po with | some pa => s.poisonUsed pa m.who m.die | none => s)
  | _ =>
    if (absentOf rs).isEmpty then
      let (f, s) := (placesOf rs).foldl (fun (acc : Option RangeFault × State) q =>
        match acc.1 with | some f => (some f, acc.2) | none => acc.2.checkPlace m h q) (none, s)
      (f, ⟨s.bytesAt (placesOf rs), [false], placesOf rs⟩, s.bayReads (bayOf w) hint (s.cacheSectors (placesOf rs)))
    else (none, ⟨List.replicate n 0, [true], placesOf rs⟩, s)

/-- All rows of a gather, in turn, up to the first failure. -/
def State.gatherRows (s : State) (w : Nat) (hint : Hint) (m : Maker) (n : Nat) : List Nat → Option RangeFault × ReadOut × State
  | [] => (none, {}, s)
  | va :: r =>
    match s.gatherRow w hint m va n with
    | (some f, x, s) => (some f, x, s)
    | (none, x, s) =>
      let (f, y, s) := s.gatherRows w hint m n r
      (f, ⟨x.data ++ y.data, x.nonres ++ y.nonres, x.places ++ y.places⟩, s)

/-- What a copy reads when it starts (R259), or the failure it meets. -/
def State.readSource (s : State) (w ch : Nat) (j : CopyJob) : Option RangeFault × ReadOut × State :=
  if j.kind = .cpyg then
    match s.range (s.chanMaker w ch j true true false) { acc := { rd := true } } (pieces j.idx (4 * j.nidx)) with
    | (some f, ps, s) => (some f, { places := ps }, s)
    | (none, ps, s) =>
      let (f, x, s) := s.gatherRows w j.hint (s.chanMaker w ch j false true false) j.rowsz (s.gatherAddrs w j)
      (f, { x with places := ps ++ x.places }, s)
  else
    let (f, ps, s) := s.range (s.chanMaker w ch j (j.ssp || j.scv) true false) { acc := { rd := true } } (s.srcPieces w j)
    if f.isNone && j.kind == .cpyp && ps.any (fun p => !s.isLocal p.pa) then (some { code := 0x0E }, { places := ps }, s)
    else (f, ⟨s.bytesAt ps, [], ps⟩, s.bayReads (bayOf w) j.hint (s.cacheSectors ps))

/-- Where a copy writes: its destination places, or the first fault. -/
def State.writePlaces (s : State) (w ch : Nat) (j : CopyJob) : Option RangeFault × List Place × State :=
  s.range (s.chanMaker w ch j (j.dsp || j.dcv || j.kind == .cpyg) false (j.kind == .cpyp)) { acc := { wr := true } }
    (s.dstPieces w j)

/-- The other channels of a wall that have copied for the same course, with the release counter up to which their accesses were for it: that
of its latest copy there that has ended, and any of one that is under way. -/
def State.mates (s : State) (w ch : Nat) (j : CopyJob) : List (DWord × DWord) :=
  ((s.wall w).chans.filter (fun e => e.1 != ch)).flatMap (fun e =>
    if (e.2.job.map (fun o => o.ident)) = some j.ident then [(e.2.ident, BitVec.allOnes 64)]
    else (e.2.ended.filter (fun x => x.1 == j.ident)).map (fun x => (e.2.ident, x.2)))

/-- Where a gather writes its bitmap. Gathers of one course on several channels may share bytes of it, as the copies of R320 and R321 do:
their writes are no race with one another (log entry 81, DEDUCED). -/
def State.bitmapPlaces (s : State) (w ch : Nat) (j : CopyJob) : Option RangeFault × List Place × State :=
  if j.kind = .cpyg then
    let m := s.chanMaker w ch j true false false
    s.range { m with sync := { m.sync with table := m.sync.table ++ s.mates w ch j } } { acc := { wr := true } }
      (pieces j.bmap ((j.nidx + 7) / 8))
  else (none, [], s)

/-- The bitmap bytes of a gather over the bytes that stand there: bits beyond the list stay (R109). -/
def bitmapBytes (nonres : List Bool) (old : List Byte) : List Byte :=
  old.zipIdx.map (fun e => (List.range 8).foldl (fun (b : Byte) i =>
    match nonres[8 * e.2 + i]? with
    | some true => b ||| BitVec.ofNat 8 (2 ^ i)
    | some false => b &&& ~~~(BitVec.ofNat 8 (2 ^ i))
    | none => b) e.1)

/-- Whether an access of a unit of a wall stalls at any of some places (R120). -/
def State.anyStall (s : State) (w : Nat) (ps : List Place) : Bool := ps.any (s.stallsAt (some w))

/-! Completion. -/

/-- The `SWR`s of the course to a completion-record slot that have not committed yet take effect: a completion of their cycle comes
after them (R228; log entry 82, DEDUCED). -/
def Course.settleRecord (c : Course) (f : Nat) : Course :=
  let mine (w : RegWrite) : Bool := match w with | .record k _ => k / 4 == f | _ => false
  let c' := (c.work.flatMap (fun k => k.writes.filter mine)).foldl Course.write c
  { c' with work := c'.work.map (fun k => { k with writes := k.writes.filter (fun w => !mine w) }) }

/-- A completion record is written (R114): a success leaves a failure standing. The event bit is set (R227). -/
def Course.record (c : Course) (f : Nat) (status : Code) (fcode : Code) (chan bytes bmap : Nat) : Course :=
  let c := c.settleRecord f
  if status = 0 ∧ (Sparse.get c.recs (4 * f) 0).extractLsb' 0 8 ≠ 0 then c.setEvent
  else
    let ws := [BitVec.ofNat 32 (status.toNat + chan * 2 ^ 8 + fcode.toNat * 2 ^ 16), BitVec.ofNat 32 bytes,
      BitVec.ofNat 32 bmap, BitVec.ofNat 32 (bmap / 2 ^ 32)]
    Course.setEvent { c with recs := ws.zipIdx.foldl (fun t e => Sparse.set t (4 * f + e.2) e.1 0) c.recs }

/-- A completion record is written for the flag a work item names, if it names one. -/
def Course.recordFor (c : Course) (sig : Option Nat) (status fcode : Code) (chan bytes bmap : Nat) : Course :=
  match sig with
  | some f => c.record f status fcode chan bytes bmap
  | none => c

/-- A copy ends with a status: its record is written, its promise is past, its flag falls, its channel is free, and the
channel's release stands for the wait on the flag and for the report of the launch (R114, R131, R174, R373). -/
def State.endCopy (s : State) (w ch : Nat) (j : CopyJob) (status : Code) (bytes : Nat) : State :=
  let x := s.chan w ch
  let r := x.sync.release x.ident 3
  let bmap := if j.kind = .cpyg then j.bmap else 0
  let s := s.setChan w ch { x with job := none, sync := r.2, ended := x.ended.filter (fun e => e.1 != j.ident) ++ [(j.ident, x.sync.rc)] }
  let s := s.modLaunch j.launch (fun l => { l with sync := l.sync.acquire 0 r.1 })
  let s := (s.countEvent w 8 1).outstanding j.launch w (· - (if j.sigv && !j.signalled then 2 else 1))
  s.modWhere (fun c => c.ident == j.ident) (fun c =>
    let c := c.recordFor j.sig status status ch bytes bmap
    let c := { c with promises := c.promises.filter (fun p => p.1 != j.workId),
                      copyRels := match j.sig with | some f => c.copyRels ++ [(f, r.1)] | none => c.copyRels }
    match c.workOf j.workId with
    | some k => c.finish k
    | none => c)

/-! The channel's steps. -/

/-- The copy of a channel acts if there is one. -/
def State.onChan (s : State) (w ch : Nat) (f : CopyJob → State) : State :=
  match (s.chan w ch).job with
  | some j => f j
  | none => s

/-- Whether a copy from a chute still waits for its entries (R259): it makes no access before they are published. -/
def State.unpublished (s : State) (w : Nat) (j : CopyJob) : Bool :=
  let q := (s.plane w j.plane).chute j.sch
  j.scv && q.published < j.len / q.size

/-- COPY_START (R131, R259): the channel acquires what starting acquires, and reads the source. A copy from a chute starts once its
entries are published. -/
def execCopyStart (wall ch : Nat) (s : State) : Out :=
  .next (s.onChan wall ch (fun j =>
    let q := (s.plane wall j.plane).chute j.sch
    if j.started || s.unpublished wall j then s
    else
      match (s.primed wall ch j).readSource wall ch j with
      | (some _, _, _) => s
      | (none, x, s2) =>
        if s.anyStall wall x.places then s
        else
          s2.setChan wall ch { s2.chan wall ch with
            job := some { j with started := true, data := x.data, nonres := x.nonres, sIdx := q.cons, since := s.count (dieOf wall) } }))

/-- COPY_ENTRY_CONSUMED (R259): one more entry of the source chute has been read and is free. -/
def execCopyEntryConsumed (wall ch : Nat) (s : State) : Out :=
  .next (s.onChan wall ch (fun j =>
    let q := (s.plane wall j.plane).chute j.sch
    if !j.started || !j.scv || j.len / q.size ≤ j.eaten then s
    else
      (s.modChute wall j.plane j.sch (fun q => { q with cons := q.step q.cons 1 })).setChan wall ch
        { s.chan wall ch with job := some { j with eaten := j.eaten + 1 } }))

/-- The copied bytes are written at their places. -/
def State.deliver (s : State) (w : Nat) (j : CopyJob) (ps bs : List Place) : State :=
  let s := s.putRange j.launch w j.hint (cutBytes ps j.data)
  s.putRange j.launch w j.hint (cutBytes bs (bitmapBytes j.nonres (s.bytesAt bs)))

/-- How the remote signal accesses its counter: an atomic at site scope (R110, R142). -/
def sigHow : How := { acc := { rd := true, wr := true }, atomic := true, scope := 7 }

/-- The counter of a copy's remote signal (R261). -/
def State.sigPlaces (s : State) (w ch : Nat) (j : CopyJob) (h : How) : Option RangeFault × List Place × State :=
  s.range (s.chanMaker w ch j false false true) h [(j.siga.toNat, 8)]

/-- The home directory of an address keeps the keys of the remote signals it has performed (R388). -/
def signalUnit (q : Place) : Nat := 4096 + q.pa / 2 ^ 46

/-- Whether the home directory that a signal needs holds 4,096 keys (R388). -/
def State.signalFull (s : State) (q : Place) : Bool := 4096 ≤ (s.keys.filter (fun e => e.1 == signalUnit q)).length

/-- A remote signal's key is recorded with the counter's old value, under the next number of the course's atomic requests (R388; log entry 112,
DEDUCED). -/
def State.signalKeyed (s : State) (who : DWord) (q : Place) (old : Nat) : State :=
  match s.agents.find? (fun c => c.ident == who) with
  | none => s
  | some c =>
    { s with keys := s.keys ++ [(signalUnit q, who, c.atoms, [BitVec.ofNat 64 old])] }.modWhere (fun c => c.ident == who)
      (fun c => { c with atoms := c.atoms + 1 })

/-- The remote signal takes effect at its counter: a 64-bit increment at its home, and a release at site scope by the channel (R110). -/
def State.signalAt (s : State) (w ch : Nat) (j : CopyJob) (q : Place) : State :=
  let x := s.chan w ch
  let r := x.sync.release x.ident 7
  let (a, s) := (s.setChan w ch { x with sync := r.2 }).ownFrame j.launch w q.va q.pa
  let s := if s.isLocal q.pa then s.cacheWrites (bayOf w) j.hint (s.cacheSectors [q]) else s
  let old := s.loadNat a 8
  ((((s.dropBlocks q.pa 8).pastHost q.pa 8).layRels [r.1] q.key 8 true).storeNat a 8 (old + 1)).signalKeyed j.ident q old

/-- REMOTE_SIGNAL (R110, R376): once every byte is written at its home, the counter is incremented, a release at site
scope by the channel. It waits for a home directory that is full of keys (R388). -/
def execRemoteSignal (wall ch : Nat) (s : State) : Out :=
  .next (s.onChan wall ch (fun j =>
    if !j.started || !j.sigv || j.signalled then s
    else match s.writePlaces wall ch j with
      | (some _, _, _) => s
      | (none, ps, s1) =>
        if s.anyStall wall ps then s
        else
          let s1 := s1.deliver wall j ps []
          match s1.sigPlaces wall ch j sigHow with
          | (none, q :: _, s2) =>
            if s2.anyStall wall [q] || s2.signalFull q then s
            else
              let s2 := (s2.signalAt wall ch j q).outstanding j.launch wall (· - 1)
              s2.setChan wall ch { s2.chan wall ch with job := some { j with written := true, signalled := true } }
          | _ => s))

/-- COPY_COMPLETE (R109, R114, R117): the data and the bitmap are written, the destination chute advances, and the copy
ends with success. -/
def execCopyComplete (wall ch : Nat) (s : State) : Out :=
  .next (s.onChan wall ch (fun j =>
    let q := (s.plane wall j.plane).chute j.sch
    if !j.started || (j.scv && j.eaten < j.len / q.size) || (j.sigv && !j.signalled) then s
    else if j.written then s.endCopy wall ch j 0 j.len
    else match s.writePlaces wall ch j with
      | (some _, _, _) => s
      | (none, ps, s1) =>
        match s1.bitmapPlaces wall ch j with
        | (some _, _, _) => s
        | (none, bs, s2) =>
          if s.anyStall wall (ps ++ bs) then s
          else
            let s2 := s2.deliver wall j ps bs
            let s2 := if j.dcv then
                let n := j.len / ((s2.plane wall j.plane).chute j.dch).size
                let x := s2.chan wall ch
                let r := x.sync.release x.ident 3
                let s2 := s2.setChan wall ch { x with sync := r.2 }
                (s2.publish wall j.plane j.dch n r.1).modChute wall j.plane j.dch (fun d => { d with resv := d.resv - n })
              else s2
            s2.endCopy wall ch j 0 j.len))

/-- Whether some places are of another device. -/
def State.far (s : State) (ps : List Place) : Bool := ps.any (fun p => !s.isLocal p.pa)

/-- Whether the remote signal of a copy travels over the fabric. -/
def State.farSignal (s : State) (w ch : Nat) (j : CopyJob) : Bool := j.sigv && s.far (s.sigPlaces w ch j { acc := {} }).2.1

/-- Whether a copy has accesses at its present stage that travel over the fabric: of its source, a gather's rows among them, before it starts; of
its destination and signal after, until they are made. -/
def State.usesPeer (s : State) (w ch : Nat) (j : CopyJob) : Bool :=
  if !j.started then
    !s.unpublished w j && j.kind != .cpyp && s.far ((s.primed w ch j).readSource w ch j).2.1.places
  else !j.written && (s.far (s.writePlaces w ch j).2.1 || s.farSignal w ch j)

/-- The failure of a remote signal: one of its translation is a peer-signal failure, any other keeps its code (R261, R368, R369, R376). -/
def signalFault (f : RangeFault) : RangeFault :=
  if f.code = 0x0B ∨ f.code = 0x0C ∨ f.code = 0x0D then f else { f with code := 0x0F }

/-- What a copy meets at its present stage: the failure if there is one, whether it is the signal's, and the places of its destination and
of its bitmap that it reaches. -/
structure Trial where
  fault  : Option RangeFault := none
  signal : Bool := false
  dst    : List Place := []
  bits   : List Place := []

/-- A copy tries the accesses of its present stage: of its source before it starts, of its destination, bitmap and signal after (R373, R376).
The state has what the tried accesses leave and report. -/
def State.copyTrial (s : State) (w ch : Nat) (j : CopyJob) : Trial × State :=
  if !j.started then
    if s.unpublished w j then ({}, s)
    else let r := (s.primed w ch j).readSource w ch j; ({ fault := r.1 }, r.2.2)
  else if j.written then ({}, s)
  else
    match s.writePlaces w ch j with
    | (some f, ps, s) => ({ fault := some f, dst := ps }, s)
    | (none, ps, s) =>
      match s.bitmapPlaces w ch j with
      | (some f, bs, s) => ({ fault := some f, dst := ps, bits := bs }, s)
      | (none, bs, s) =>
        if !j.sigv || j.signalled then ({ dst := ps, bits := bs }, s)
        else
          match s.sigPlaces w ch j sigHow with
          | (some f, _, s) => ({ fault := some (signalFault f), signal := true, dst := ps, bits := bs }, s)
          | (none, _, s) => ({ dst := ps, bits := bs }, s)

/-- The failure a copy meets at its present stage. -/
def State.copyFault (s : State) (w ch : Nat) (j : CopyJob) : Option RangeFault := (s.copyTrial w ch j).1.fault

/-- Whether a request of a copy over the fabric may have had no answer in 2^24 ticks (R376). -/
def State.copyTimedOut (s : State) (w ch : Nat) (j : CopyJob) : Bool :=
  s.usesPeer w ch j && Config.peerLimit ≤ (s.count (dieOf w) - j.since).toNat

/-- The bytes that a failing copy has written: of its destination, or of a gather's bitmap, those that `picked` names (R373). -/
def keptBytes (ps : List (Place × List Byte)) (picked : Nat → Bool) : List (Place × List Byte) :=
  let each := ps.flatMap (fun (e : Place × List Byte) => (List.range e.1.w).filterMap (fun i => e.2[i]?.map (fun b => (e.1, i, b))))
  (each.zipIdx.filter (fun (e : (Place × Nat × Byte) × Nat) => picked e.2)).map (fun (e : (Place × Nat × Byte) × Nat) =>
    ({ e.1.1 with pa := e.1.1.pa + e.1.2.1, va := e.1.1.va + e.1.2.1, w := 1 }, [e.1.2.2]))

/-- COPY_FAILURE (R373, R376): the copy ends at a failure it meets, or at a fabric request without an answer (0x10).
`written` says which bytes hold the value that success would have written, bit i for destination byte i, then a bit for each byte of a
gather's bitmap; a failing signal leaves all of the destination
written, and one over the fabric that timed out has been made once or not at all. The
address that a kind-5 record gives a signal without a translation is left open (log entry 3, DESIGN CHOICE). -/
def execCopyFailure (wall ch : Nat) (code : Code) (written : Nat) (s : State) : Out :=
  .next (s.onChan wall ch (fun j =>
    let (r, s1) := s.copyTrial wall ch j
    let own := (r.fault.map (fun f => f.code)) == some code
    if !own && !(code == 0x10 && s.copyTimedOut wall ch j) then s
    else
      let whole := !own && s.farSignal wall ch j && j.started && written == 2 ^ j.len - 1
      let all := (own && r.signal) || whole
      let s1 := if own || r.fault.isNone then s1 else s
      let kept := keptBytes (cutBytes r.dst j.data) (fun i => all || written.testBit i)
      let s1 := s1.putRange j.launch wall j.hint kept
      let marks := keptBytes (cutBytes r.bits (bitmapBytes j.nonres (s1.bytesAt r.bits))) (fun i => written.testBit (j.len + i))
      let s1 := s1.putRange j.launch wall j.hint marks
      let (made, s1) := if whole then s1.drawBit else (false, s1)
      let s1 := if made then
          match s1.sigPlaces wall ch j sigHow with
          | (none, q :: _, s2) => s2.signalAt wall ch j q
          | _ => s1
        else s1
      let s1 := if code = 0x10 then s1.lifeAdd 0x32 1 else s1
      let x := s1.chan wall ch
      let s1 := match r.fault with
        | some f => if code = 0x0B then (s1.countEvent wall 10 1).memEvent 4 f.pa (dieOf wall) x.ident f.other f.rc x.sync.rc 0 else s1
        | none => s1
      let s1 := if code = 0x0F then
          (let d := s1.draw; d.2.memEvent 5 (d.1 % 2 ^ 52 / 32 * 32) (dieOf wall) x.ident 0 0 0 0) else s1
      let d := (s1.plane wall j.plane).chute j.dch
      let s1 := if j.dcv then s1.modChute wall j.plane j.dch (fun q => { q with resv := q.resv - j.len / d.size }) else s1
      s1.endCopy wall ch j code kept.length))

end Sys2Proof.Machine
end

