-- ==== Sys2Proof/Machine/Sessions.lean ====
section
/-! DEFINITION. Debug sessions as the units of the device see them: replies (R340), and the step under way of a stream (R344). -/

namespace Sys2Proof.Machine

/-- A reply is sent. -/
def State.reply (s : State) (conn : Nat) (op : Byte) (seq : Word) (code : Code) (body : List Byte) : State :=
  { s with outbox := s.outbox ++ [⟨conn, op, seq, code, body⟩] }

/-- The session of a connection is put back changed. -/
def State.setSession (s : State) (x : Session) : State :=
  { s with sessions := if s.sessions.any (fun o => o.conn == x.conn) then
      s.sessions.map (fun o => if o.conn = x.conn then x else o) else s.sessions ++ [x] }

/-- Whether the step of a session is that of a stream of an agent. -/
def Session.steps (x : Session) (who : DWord) (st : Stream) : Bool :=
  match x.stepping with | some (_, w, t, _, _) => w == who && t == st | none => false

/-- Whether a step of a stream of an agent is under way. -/
def State.isStepped (s : State) (who : DWord) (st : Stream) : Bool := s.sessions.any (fun x => x.steps who st)

/-- The step under way of a stream of the focused agent is answered with the stream's program counter: the agent is halted again, and a
notice follows that names the thread of the request (R339, R341, R344). -/
def State.stepped (s : State) (st : Stream) : State :=
  let c := s.cur
  match s.sessions.find? (fun x => x.steps c.ident st) with
  | none => s
  | some x =>
    match x.stepping with
    | none => s
    | some (seq, _, _, _, thr) =>
      let pc := bytesLE 8 (c.pc st).toNat
      let name := c.joinedName / 2 ^ 32 * 2 ^ 32 + thr
      let s := (s.setSession { x with stepping := none }).modC (fun c => { c with halted := true })
      (s.reply x.conn 0x12 seq 0 pc).reply x.conn 0x40 0 0 (bytesLE 16 name ++ bytesLE 8 2 ++ pc)

/-! Breakpoints (R343). -/

/-- An agent's joined name without the thread: comparators are held against it (R165, R339). -/
def Course.nameKey (c : Course) : Nat := c.joinedName / 2 ^ 32

/-- Whether a comparator stands at the program counter of a stream of an agent, which no debug step names (R343, R344). -/
def State.breaksAt (s : State) (c : Course) (st : Stream) : Bool :=
  !s.isStepped c.ident st &&
  match s.sessionOf c.space with
  | some x => x.bps.any (fun b => b.1 == c.nameKey && b.2.1 == st && b.2.2.2 == c.pc st)
  | none => false

/-- Whether a comparator stands at the program counter of a stream of the focused agent (R343). -/
def State.bpHit (s : State) (st : Stream) : Bool :=
  match s.sessionOf s.cur.space with
  | some x => x.bps.any (fun b => b.1 == s.cur.nameKey && b.2.1 == st && b.2.2.2 == s.cur.pc st)
  | none => false

/-- An agent halts before its next instruction at a breakpoint of its session (R303, R343). -/
def State.haltHere (s : State) (st : Stream) : State :=
  (s.modC (fun c => { c with halted := true })).note s.cur 1 (s.cur.pc st)

end Sys2Proof.Machine
end

