-- ==== Sys2Proof/Machine/Engine.lean ====
section
/-! DEFINITION. The weight buffer and `WBLD` (R103, R270 to R272), gangs and the rendezvous latch (R266 to R269), and the
matrix engine: `MMA`, `MMAG`, firing, entries, completion and cancellation (R94, R118, R137, R273 to R276, R367). -/

namespace Sys2Proof.Machine

/-! The slot directory (R270). -/

/-- A directory entry. -/
structure SlotDir where
  outl  : Bool
  valid : Bool
  blk   : Nat
  scl   : Nat
  fmt   : Nat
  len   : Nat
  tiles : Nat
  off   : Nat
  deriving DecidableEq, Repr

/-- A directory entry from its 64 bits. -/
def SlotDir.of (x : Nat) : SlotDir :=
  { outl := ebit x 57, valid := ebit x 56, blk := if ebit x 55 then 16 else 32, scl := x / 2 ^ 53 % 4, fmt := x / 2 ^ 48 % 32,
    len := x / 2 ^ 32 % 2 ^ 16, tiles := x / 2 ^ 16 % 2 ^ 16, off := x % 2 ^ 16 }

/-- Bytes of a plane's weight buffer. -/
def Plane.wbytes (p : Plane) (a n : Nat) : List Byte := (List.range n).map (fun i => Sparse.get p.weight (a + i) 0)

/-- The plane with bytes written in its weight buffer. -/
def Plane.setWbytes (p : Plane) (a : Nat) (bs : List Byte) : Plane :=
  { p with weight := bs.zipIdx.foldl (fun t e => Sparse.set t (a + e.2) e.1 0) p.weight }

/-- The directory entry of slot n. -/
def Plane.slotWord (p : Plane) (n : Nat) : Nat := ofBytesLE (p.wbytes (8 * n) 8)

/-- The formats that a matrix operand may have (R271, R273). -/
def fmtOk (fmt : Nat) : Bool := (1 ≤ fmt && fmt ≤ 7) || (10 ≤ fmt && fmt ≤ 13)

/-- Whether a format takes separate scale bytes (R86, R272, R273). -/
def scaled (fmt scl : Nat) : Bool := scl != 0 && fmt != 12 && widthOf fmt ≤ 8

/-! Streams (R272). -/

/-- The two-bit header of block i. -/
def blockHeader (hdr : List Byte) (i : Nat) : Nat := (hdr.getD (i / 4) 0).toNat / 4 ^ (i % 4) % 4

/-- The places of the kept elements of a 2:4 block, from its 4 bytes of positions; none where a pair does not rise. -/
def pairPlaces (x : Nat) : Option (List Nat) :=
  ((List.range 8).mapM (fun g =>
    let a := x / 16 ^ g % 4
    let b := x / 16 ^ g / 4 % 4
    if a < b then some [4 * g + a, 4 * g + b] else none)).map List.flatten

/-- The places of an 8-of-32 block, from its mask; none where more than 8 bits are set. -/
def maskPlaces (x : Nat) : Option (List Nat) :=
  let ps := (List.range 32).filter (fun i => ebit x i)
  if ps.length ≤ 8 then some ps else none

/-- The first n bytes of a string and the rest; none where it is shorter. -/
def takeBytes (n : Nat) (bs : List Byte) : Option (List Byte × List Byte) :=
  if bs.length < n then none else some (bs.take n, bs.drop n)

/-- The 32 elements of a block, and the bytes after it. -/
def parseBlockB (d : SlotDir) (header : Nat) (bs : List Byte) : Option (List XVal × List Byte) := do
  let zeros := List.replicate 32 (XVal.zero false)
  if header = 0 then some (zeros, bs)
  else if d.fmt = 12 then
    if header ≠ 1 then none
    else
      let (x, r) ← takeBytes 18 bs
      let ns := x.map BitVec.toNat
      some (decodeI4x d.outl (ns.take 16) (scaleVal d.scl (ns.getD 16 0)) (ns.getD 17 0), r)
  else
    let w := widthOf d.fmt
    let (head, r) ← takeBytes (if header = 1 then 0 else 4) bs
    let places ← (match header with
      | 1 => some (List.range 32)
      | 2 => pairPlaces (ofBytesLE head)
      | _ => maskPlaces (ofBytesLE head))
    let n := match header with | 1 => 32 | 2 => 16 | _ => 8
    let (body, r) ← takeBytes ((n * w + 7) / 8) r
    let ns := if scaled d.fmt d.scl then 32 / d.blk else 0
    let (scales, r) ← takeBytes ns r
    let str := ofBytesLE body
    let value (j k : Nat) : XVal :=
      let x := decodeElem d.fmt (str / 2 ^ (w * j) % 2 ^ w)
      if ns = 0 then x else x.mul (scaleVal d.scl (scales.getD (k / d.blk) 0).toNat)
    some (places.zipIdx.foldl (fun t e => t.set e.1 (value e.2 e.1)) zeros, r)

/-- The blocks of a tile in order, and the bytes after them. -/
def parseBlocks (d : SlotDir) (hdr : List Byte) : Nat → Nat → List Byte → Option (List (List XVal) × List Byte)
  | 0, _, bs => some ([], bs)
  | n + 1, i, bs =>
    match parseBlockB d (blockHeader hdr i) bs with
    | none => none
    | some (x, r) => (parseBlocks d hdr n (i + 1) r).map (fun e => (x :: e.1, e.2))

/-- The tiles of a stream, each as 128 columns of 64 K values, and the 32-byte units it takes; none when it is
malformed. -/
def parseTiles (d : SlotDir) : Nat → List Byte → Option (List (List (List XVal)) × Nat)
  | 0, _ => some ([], 0)
  | n + 1, bs =>
    match takeBytes 64 bs with
    | none => none
    | some (hdr, r) =>
      match parseBlocks d hdr 256 0 r with
      | none => none
      | some (blocks, r') =>
        let units := (bs.length - r'.length + 31) / 32
        let cols := (List.range 128).map (fun c => blocks.getD (2 * c) [] ++ blocks.getD (2 * c + 1) [])
        (parseTiles d n (bs.drop (32 * units))).map (fun e => (cols :: e.1, units + e.2))

/-- The directory entry that a `WBLD` writes: that of its stream, or the old one with `V` = 0. -/
def loadedEntry (fmt : Word) (off tiles len : Nat) (src : Code × List Byte) (old : Nat) : Nat :=
  let l := Slot.of fmt 0
  let d : SlotDir := { outl := l.outl, valid := true, blk := l.blk, scl := l.scl, fmt := l.fmt, len := len, tiles := tiles, off := off / 32 }
  let good := src.1 == 0 && (match parseTiles d tiles src.2 with | some (_, u) => u == len | none => false)
  if good then
    off / 32 + tiles * 2 ^ 16 + len * 2 ^ 32 + l.fmt * 2 ^ 48 + l.scl * 2 ^ 53 + (if l.blk = 16 then 2 ^ 55 else 0) + 2 ^ 56 +
      (if l.outl then 2 ^ 57 else 0)
  else if ebit old 56 then old - 2 ^ 56 else old

/-! Loads under way. -/

/-- A `WBLD` that has not completed: its number, slot, the entry it will write, its buffer range. -/
structure Loading where
  id    : Nat
  slot  : Nat
  fmt   : Word
  off   : Nat
  tiles : Nat
  len   : Nat
  src   : Code × List Byte
  deriving DecidableEq, Repr

/-- The `WBLD`s of a plane that have not completed. -/
def State.loading (s : State) (w p : Nat) : List Loading :=
  (s.agents.filter (fun c => c.sys.isNone && c.wall == w)).flatMap (fun c => c.work.filterMap (fun k => match k.act with
    | .wbld pl slot fmt off tiles len src _ => if pl = p then some ⟨k.id, slot, fmt, off, tiles, len, src⟩ else none
    | _ => none))

/-- The directory entry of a slot as the work issued before `id` leaves it: that of the newest `WBLD` under way, or the
one that stands (log entry 11, DEDUCED). -/
def State.slotEntry (s : State) (w p slot id : Nat) : SlotDir :=
  let ls := (s.loading w p).filter (fun l => l.slot == slot && decide (l.id < id))
  match ls.foldl (fun o l => match o with | none => some l | some b => if b.id < l.id then some l else some b) none with
  | some l => SlotDir.of (loadedEntry l.fmt l.off l.tiles l.len l.src 0)
  | none => SlotDir.of ((s.plane w p).slotWord slot)

/-- The numbers of an operation's work: the least is its place in issue order. -/
def EngOp.order (o : EngOp) : Nat := (o.members.map (fun m => m.workId)).foldl min (o.members.head?.map (fun m => m.workId) |>.getD 0)

/-- The slots an operation reads. -/
def EngOp.slots (o : EngOp) : List Nat :=
  (o.members.flatMap (fun m => (m.steps.filter (fun e => 0 < e.2)).map Prod.fst)).dedup

/-- The buffer ranges an operation reads: directory entries and streams. -/
def State.engRanges (s : State) (w p : Nat) (o : EngOp) : List (Nat × Nat) :=
  o.slots.flatMap (fun n =>
    let d := s.slotEntry w p n o.order
    [(8 * n, 8), (32 * d.off, 32 * d.len)])

/-- WBLD (R271): operands are checked and the source is read at issue, as plain loads of the course; a peer that will not answer makes the read
fail with 0x10 (R376). -/
def execWbld (k : Ctl) (sl : BitVec 6) (fs : BitVec 3) (ra : BitVec 6) (bp : BitVec 5) (rb : BitVec 6) (sp : BitVec 1)
    (s : State) : Out :=
  .next (s.issue true k {} (firstCode [(s.cur.sys.isSome, 0x64), (s.cur.slotBad fs.toNat, 0x63)]) (fun s =>
    let c := s.cur
    let fmt := c.slotWord fs.toNat 0
    let off := (c.S ra.toNat).toNat
    let z := (c.S rb.toNat).toNat
    let tiles := z / 2 ^ 16
    let len := z % 2 ^ 15
    let n := 32 * len
    let src := c.S64 (2 * bp.toNat)
    let from_ := (lo32 src).toNat
    if tiles = 0 ∨ ebit z 15 ∨ len = 0 ∨ 16383 < len ∨ off % 32 ≠ 0 ∨ off < 512 ∨ 524288 < off + n ∨
        !fmtOk (Slot.of fmt 0).fmt ∨ (sp = 1 ∧ 0x100000 < from_ + n) then .trap s { code := 0x65 }
    else
      let r := if sp = 1 then s.readSp from_ n
        else s.reach c.ctx none { acc := { rd := true } } ((pieces src.toNat n).map (fun p => ⟨0, p.1, p.2⟩))
      let put (s : State) (x : Code × List Byte) : Res :=
        .done s { lat := none, act := .wbld c.plane sl.toNat fmt off tiles len x s.now }
      match r with
      | .wait => .wait s
      | .trap s' t => put s' (t.code, [])
      | .ok s' ps _ => put s' (0, s'.bytesAt ps)
      | .lost s' _ _ => put s' (0x10, [])))

/-- WBLD_COMPLETE (R271): once the plane's earlier operations have read what it overwrites and the earlier loads of its
bytes and slot are done, the bytes and the directory entry are written, then the completion record; the flag falls. A source read without an
answer fails 2^24 ticks after the issue and is counted (R376, R392). -/
def execWbldComplete (who : DWord) (id : Nat) (s : State) : Out :=
  .next (match s.focus who with
    | none => s
    | some f =>
      match f.cur.workOf id with
      | some k =>
        (match k.act with
         | .wbld p slot fmt off tiles len src since =>
           let w := f.cur.wall
           let timeout := src.1 == 0x10
           let pl := f.plane w p
           let hit (a n : Nat) : Bool := (a < off + 32 * len && off < a + n) || (a < 8 * slot + 8 && 8 * slot < a + n)
           if (timeout && decide ((f.now - since).toNat < Config.peerLimit)) || pl.engine.any (fun o => !o.fired && decide (o.order < id) && (f.engRanges w p o).any (fun r => hit r.1 r.2)) ||
               (f.loading w p).any (fun l => decide (l.id < id) && (l.slot == slot || hit l.off (32 * l.len))) then s
           else
             let old := pl.slotWord slot
             let e := loadedEntry fmt off tiles len src old
             let good := ebit e 56
             let pl := if good then pl.setWbytes off src.2 else pl
             let f := (f.setPlane w p (pl.setWbytes (8 * slot) (bytesLE 8 e))).lifeAdd 0x32 (if timeout then 1 else 0)
             let code : Code := if src.1 ≠ 0 then src.1 else if good then 0 else 0x41
             f.modC (fun c => (c.recordFor k.sig code src.1 0 (if good then 32 * len else 0) 0).finish k)
         | _ => s)
      | none => s)

/-! Gangs (R266 to R269). -/

/-- A change made to the agent of an identity, the focus staying where it was. -/
def State.within (s : State) (who : DWord) (f : State → State) : State :=
  match s.focus who with
  | none => s
  | some s1 => let s2 := f s1; (s2.focus s.cur.ident).getD s2

/-- The gang of a plane that a launch and gang number name. -/
def Plane.gang (p : Plane) (lid : Word) (gid : Nat) : Option Gang := p.gangs.find? (fun g => g.lid == lid && g.gid == gid)

/-- The plane with a gang replaced, or dropped when nobody is registered in it. -/
def Plane.setGang (p : Plane) (g : Gang) : Plane :=
  let rest := p.gangs.filter (fun o => !(o.lid == g.lid && o.gid == g.gid))
  { p with gangs := if g.ranks = 0 then rest else rest ++ [g] }

/-- The gang registration a gang register asks for: number, size, rank. -/
def gangParts (x : Word) : Nat × Nat × Nat := (x.toNat / 256 % 256, x.toNat / 16 % 16, x.toNat % 16)

/-- The rank of a course in its gang (R266). -/
def Course.rank (c : Course) : Nat := (gangParts c.gang).2.2

/-- Whether a course held at the latch of its plane is none of its gang's pending arrivals any more: a member has left since it arrived
(R268). -/
def State.latchBroken (s : State) (c : Course) : Bool :=
  match c.hold, c.gangKey with
  | .latch _, some key =>
    c.resident && (match (s.plane c.wall c.plane).gang key.1 key.2 with | some g => !g.arrived.testBit c.rank | none => true)
  | _, _ => false

/-- The focused course, held at the latch of a broken gang, raises the gang-broken trap at its instruction (R268); a course that is
trapped or halted issues nothing, and raises it once it goes on (R342, R353; log entry 84, DEDUCED). -/
def State.breakHeld (s : State) : State :=
  if s.latchBroken s.cur && s.cur.trap.isNone && !s.cur.halted then (s.modC (fun c => { c with hold := .none })).trapNext 0x6D else s

/-- The focused course leaves its gang: members held at the latch raise the gang-broken trap at their instructions
(R268). -/
def State.leaveGang (s : State) : State :=
  let c := s.cur
  let (gid, size, rank) := gangParts c.gang
  match (if size = 0 then none else (s.plane c.wall c.plane).gang c.lid gid) with
  | none => s
  | some g =>
    let held := (s.agents.filter (fun o => o.ident != c.ident && o.gangKey == c.gangKey && o.wall == c.wall && o.plane == c.plane &&
      (match o.hold with | .latch _ => true | _ => false))).map (fun o => o.ident)
    let g := { g with ranks := if g.ranks.testBit rank then g.ranks - 2 ^ rank else g.ranks, arrived := 0, first := none }
    let s := s.setPlane c.wall c.plane ((s.plane c.wall c.plane).setGang g)
    let s := s.modC (fun c => { c with gang := 0 })
    held.foldl (fun s who => s.within who State.breakHeld) s

/-- Whether a gang register value may be written (R267), the course having left its gang. -/
def State.gangBad (s : State) (x : Word) : Bool :=
  let (gid, size, rank) := gangParts x
  if 2 ^ 16 ≤ x.toNat then true
  else if size = 0 then gid != 0 || rank != 0
  else if size = 1 || 6 < size || size ≤ rank then true
  else match s.myPlane.gang s.cur.lid gid with
    | some g => g.size != size || g.ranks.testBit rank
    | none => 16 ≤ s.myPlane.gangs.length

/-- GANG (R267). Writing the value that stands changes nothing. Log entry 72, DEDUCED. -/
def execGang (k : Ctl) (ra : BitVec 6) (s : State) : Out :=
  execCourse k {} (fun s =>
    let x := s.cur.S ra.toNat
    if x = s.cur.gang then .done s { lat := none }
    else
      let t := s.leaveGang
      if t.gangBad x then .trap s { code := 0x65 }
      else
        let (gid, size, rank) := gangParts x
        let p := t.myPlane
        let g := (p.gang t.cur.lid gid).getD
          { lid := t.cur.lid, gid := gid, size := size, ranks := 0, arrived := 0, first := none }
        let t := if size = 0 then t else t.setMyPlane (p.setGang { g with ranks := g.ranks + 2 ^ rank })
        .done (t.modC (fun c => { c with gang := x })) { lat := none }) s

/-! Operands of a matrix operation. -/

/-- Bytes of an A tile (R273). -/
def tileBytes (l : Slot) : Nat :=
  if l.fmt = 12 then 128 * 36 else 128 * 8 * widthOf l.fmt + (if scaled l.fmt l.scl then 128 * (64 / l.blk) else 0)

/-- Steps of a group of n rows (R275). -/
def stepsOf (n : Nat) : Nat := (n + 127) / 128
/-- A entries that a member takes (R276). -/
def EngMember.need (m : EngMember) (kt : Nat) : Nat := kt * ((m.steps.map (fun e => stepsOf e.2)).sum)
/-- C entries that a member writes (R276). -/
def EngMember.out (m : EngMember) : Nat := (m.steps.map (fun e => e.2)).sum

/-- The slot conditions of R274. -/
def slotFits (d : SlotDir) (kt : Nat) (fb : Slot) : Bool :=
  d.valid && kt ≤ d.tiles && d.fmt == fb.fmt && d.scl == fb.scl && d.blk == fb.blk && d.outl == fb.outl

/-- The rows of the operation: slot `wb` with 128 rows, or the table's groups (R275). -/
inductive RowSpec where
  | slot (wb : Nat)
  | table (off : Word)
  deriving DecidableEq, Repr

/-- What a member's own operands come to (R273 to R276). -/
inductive Prep where
  | wait
  | trap (s : State) (t : Trp)
  | ok (s : State) (steps : List (Nat × Nat))
  deriving DecidableEq, Repr

/-- The groups of a row-count table, read as a plain load of the course: the count of groups first (R275). -/
def State.readTable (s : State) (x : Word) : Prep :=
  match spOffset x 4 with
  | none => .trap s { code := 0x65 }
  | some off =>
    match s.readSp off 2 with
    | .trap s' t => .trap s' t
    | .wait => .wait
    | .lost _ _ _ => .wait
    | .ok s' ps _ =>
      let g := numAt (s'.bytesAt ps) 0 2
      if g = 0 ∨ 64 < g ∨ 0x100000 < off + 2 + 2 * g then .trap s { code := 0x65 }
      else match s.readSp off (2 + 2 * g) with
        | .trap s' t => .trap s' t
        | .wait => .wait
        | .lost _ _ _ => .wait
        | .ok s' ps _ =>
          let bs := s'.bytesAt ps
          .ok s' ((List.range g).map (fun i => (i, numAt bs (2 + 2 * i) 2)))

/-- Whether the chutes a member names cannot serve it as they are defined: sides, entry sizes, and for its rows their capacities (R273,
R276). -/
def Plane.chutesBad (p : Plane) (m : EngMember) (kt : Nat) (la : Slot) : Bool :=
  let qa := p.chute m.a
  let qc := p.chute m.c
  qa.cside != 3 || qc.pside != 3 || decide (qa.size < tileBytes la) || decide (qc.size < 512) ||
  decide (qa.cap < m.need kt) || decide (qc.cap < m.out)

/-- A member's own operands are checked (R268, R273 to R276). -/
def State.prepare (s : State) (a c : Nat) (rows : RowSpec) (kt fa fb : Nat) : Prep :=
  let me := s.cur
  let la := Slot.of (me.slotWord fa 0) 0
  let lb := Slot.of (me.slotWord fb 0) 0
  let p := s.myPlane
  let part (steps : List (Nat × Nat)) : EngMember := ⟨0, 0, none, a, c, steps, 0, 0, 0, 0⟩
  if s.redefining me.wall me.plane a || s.redefining me.wall me.plane c then .wait
  else if kt = 0 || !fmtOk la.fmt || !fmtOk lb.fmt || a == c || p.chutesBad (part []) kt la then .trap s { code := 0x65 }
  else
    let r := match rows with
      | .slot wb => Prep.ok s [(wb, 128)]
      | .table x => s.readTable x
    match r with
    | .ok s' steps =>
      if steps.any (fun e => e.2 != 0 && !slotFits (s.slotEntry me.wall me.plane e.1 s.nextId) kt lb) ||
          p.chutesBad (part steps) kt la then .trap s { code := 0x65 }
      else .ok s' steps
    | r => r

/-- Places of an engine queue (R276). -/
abbrev engineQueue : Nat := 16

/-- The state with an operation behind the others of its plane (R276). -/
def State.enqueue (s : State) (w p : Nat) (o : EngOp) : State :=
  let pl := s.plane w p
  s.setPlane w p { pl with engine := pl.engine ++ [o] }

/-- A course arrives at the latch (R268): its own operands have been checked; the address stream is held. The group count
stands with the first arrival. -/
def State.arriveLatch (s0 s : State) (i : Instr) (same : Instr → Bool) (m : EngMember) (count : Nat) : Res :=
  let c := s0.cur
  let (gid, size, rank) := gangParts c.gang
  match (if size = 0 then none else s0.myPlane.gang c.lid gid) with
  | none => .trap s0 { code := 0x65 }
  | some g =>
    let ok := match g.first with
      | none => true
      | some (j, n) => same j && n == count
    if !ok then .trap s0 { code := 0x6C }
    else
      let g := { g with arrived := g.arrived ||| 2 ^ rank, first := some (g.first.getD (i, count)) }
      .wait ((s.setMyPlane (s.myPlane.setGang g)).modC (fun c => { c with hold := .latch m }))

/-- A matrix instruction (R268, R273 to R276): not ganged, it takes a place in the engine's queue; ganged, it arrives at
the latch, and its flag is neither checked nor counted until the operation issues. -/
def execMatrix (i : Instr) (same : Instr → Bool) (k : Ctl) (a c : BitVec 4) (rows : Course → RowSpec) (kt : BitVec 8)
    (fa fb : BitVec 3) (g : BitVec 1) (s : State) : Out :=
  let k' := if g = 1 then { k with sig := 15 } else k
  .next (s.issue true k' {} (firstCode
      [(s.cur.sys.isSome, 0x64), (s.cur.slotBad fa.toNat || s.cur.slotBad fb.toNat, 0x63)]) (fun s =>
    if g = 0 ∧ engineQueue ≤ s.myPlane.engine.length then .wait s
    else if g = 1 ∧ (s.cur.gangKey).isNone then .trap s { code := 0x65 }
    else match s.prepare a.toNat c.toNat (rows s.cur) kt.toNat fa.toNat fb.toNat with
      | .wait => .wait s
      | .trap s' t => .trap s' t
      | .ok s' steps =>
        let me := s.cur
        let m : EngMember := ⟨me.ident, s.nextId, sigFlag k, a.toNat, c.toNat, steps, 0, 0, 0, me.sync.rc⟩
        if g = 1 then s.arriveLatch s' i same m steps.length
        else
          .done (s'.enqueue me.wall me.plane
            { members := [m], kt := kt.toNat, fa := me.slotWord fa.toNat 0, fb := me.slotWord fb.toNat 0, fired := false, rows := [] })
            { lat := none, act := .engine }))

/-- MMA (R274). -/
def execMma (k : Ctl) (a c : BitVec 4) (wb : BitVec 6) (kt : BitVec 8) (fa fb : BitVec 3) (g : BitVec 1) (s : State) : Out :=
  let same (j : Instr) : Bool := match j with
    | .mma _ _ _ wb' kt' fa' fb' _ => wb' == wb && kt' == kt && fa' == fa && fb' == fb
    | _ => false
  execMatrix (.mma k a c wb kt fa fb g) same k a c (fun _ => .slot wb.toNat) kt fa fb g s

/-- MMAG (R275). -/
def execMmag (k : Ctl) (a c : BitVec 4) (ra : BitVec 6) (kt : BitVec 8) (fa fb : BitVec 3) (g : BitVec 1) (s : State) : Out :=
  let same (j : Instr) : Bool := match j with
    | .mmag _ _ _ _ kt' fa' fb' _ => kt' == kt && fa' == fa && fb' == fb
    | _ => false
  execMatrix (.mmag k a c ra kt fa fb g) same k a c (fun c => .table (c.S ra.toNat)) kt fa fb g s

/-- The matrix part of a word (R256): `kt`, `fa`, `fb`. -/
def matrixFields (i : Instr) : Nat × Nat × Nat :=
  match i with
  | .mma _ _ _ _ kt fa fb _ => (kt.toNat, fa.toNat, fb.toNat)
  | .mmag _ _ _ _ kt fa fb _ => (kt.toNat, fa.toNat, fb.toNat)
  | _ => (1, 0, 0)

/-- The courses of a plane held at the latch for a gang, in rank order, each with its part. -/
def State.heldAt (s : State) (w p : Nat) (lid : Word) (gid : Nat) : List (Course × EngMember) :=
  let cs := s.agents.filterMap (fun c => match c.hold with
    | .latch m => if c.wall = w ∧ c.plane = p ∧ c.gangKey = some (lid, gid) then some (c, m) else none
    | _ => none)
  (List.range 6).filterMap (fun r => cs.find? (fun e => (gangParts e.1.gang).2.2 == r))

/-- A held course's own arrival is refused: it traps at its instruction, and the other arrivals stay (R268). -/
def State.refuseHeld (s : State) (w p : Nat) (g : Gang) (c : Course) (code : Code) : State :=
  let left := g.arrived - 2 ^ c.rank
  let s := s.setPlane w p ((s.plane w p).setGang { g with arrived := left, first := if left = 0 then none else g.first })
  s.within c.ident (fun s => (s.modC (fun c => { c with hold := .none })).trapNext code)

/-- A held course's instruction issues (R268). -/
def Course.issueHeld (c : Course) (m : EngMember) (id cycle : Nat) : Course :=
  let st := c.streamOf true
  let c := match m.sig with | some f => c.setFlag f (c.flag f + 1) | none => c
  let c := (c.setPc st (c.nextPc st))
  let k : Work := { id := id, stream := st, due := none, early := cycle, late := none, sig := m.sig, writes := [], act := .engine }
  let c := { c with hold := .none, work := c.work ++ [k] }
  match st with
  | .addr => { c with lastA := some cycle, ageA := 0 }
  | .comp => { c with lastC := some cycle, ageC := 0 }

/-- The issue of a held member's instruction is noted as every issue is (R348, R350). -/
def State.accountHeld (s : State) (who : DWord) : State :=
  s.within who (fun s =>
    let t := ({ s with word := 0 }).account (s.cur.streamOf true) { lat := none }
    { t with word := s.word })

/-- GANG_ISSUE (R268): every rank has arrived, every member's flag has room, and the engine's queue has a place: the
operation issues in all members in one step. The format-slot words are those of the gang's launch. A member that is trapped or halted
issues nothing (R342, R353), unless a debug step names its stream, which it ends (R344), nor does any while a chute that one names is being redefined; a member whose chute has been redefined is
checked against the new definition (R264; log entry 85, DEDUCED). One at whose program counter a comparator stands halts before the
operation issues (R343). -/
def execGangIssue (w p : Nat) (lid : Word) (gid : Nat) (s : State) : Out :=
  .next (
    let pl := s.plane w p
    match pl.gang lid gid with
    | none => s
    | some g =>
      let hs := (s.heldAt w p lid gid).filter (fun e => g.arrived.testBit e.1.rank)
      match g.first, hs with
      | some (i, _), (lead, _) :: _ =>
        let f := matrixFields i
        if hs.length < g.size || pl.st != .active || (s.wall w).service != .inService ||
            hs.any (fun e => e.1.trap.isSome || (e.1.halted && !s.isStepped e.1.ident (e.1.streamOf true)) ||
              s.redefining w p e.2.a || s.redefining w p e.2.c) then s
        else match hs.find? (fun e => s.breaksAt e.1 (e.1.streamOf true)) with
        | some e => s.within e.1.ident (fun s => s.haltHere (s.cur.streamOf true))
        | none =>
        match hs.find? (fun e => pl.chutesBad e.2 f.1 (Slot.of (lead.slotWord f.2.1 0) 0)) with
        | some e => s.refuseHeld w p g e.1 0x65
        | none =>
          if hs.any (fun e => e.1.flagFull e.2.sig) || engineQueue ≤ pl.engine.length then s
          else
            let ms := hs.zipIdx.map (fun e => { e.1.2 with workId := s.nextId + e.2 })
            let o : EngOp := { members := ms, kt := f.1, fa := lead.slotWord f.2.1 0, fb := lead.slotWord f.2.2 0,
                               fired := false, rows := [] }
            let s1 := s.enqueue w p o
            let s1 := s1.setPlane w p ((s1.plane w p).setGang { g with arrived := 0, first := none })
            let s1 := ms.foldl (fun s m =>
              s.modWhere (fun c => c.ident == m.ident) (fun c => c.issueHeld m m.workId (s.cycleOf (dieOf w)))) s1
            let s1 := ms.foldl (fun s m => s.accountHeld m.ident) { s1 with nextId := s.nextId + ms.length }
            ms.foldl (fun (s : State) (m : EngMember) => s.within m.ident (fun s => s.stepped (s.cur.streamOf true))) s1
      | _, _ => s)

/-! Sums (R94). -/

/-- The rows of an A tile, decoded, scaled and flushed (R273, R94). -/
def tileRows (l : Slot) (bs : List Byte) : List (List XVal) :=
  let w := widthOf l.fmt
  (List.range 128).map (fun r =>
    let row := if l.fmt = 12 then
        (List.range 2).flatMap (fun h =>
          let b := ((bs.drop (36 * r + 18 * h)).take 18).map BitVec.toNat
          decodeI4x l.outl (b.take 16) (scaleVal l.scl (b.getD 16 0)) (b.getD 17 0))
      else
        let str := numAt bs (8 * w * r) (8 * w)
        (List.range 64).map (fun k =>
          let x := decodeElem l.fmt (str / 2 ^ (w * k) % 2 ^ w)
          if scaled l.fmt l.scl then
            x.mul (scaleVal l.scl (bs.getD (128 * 8 * w + r * (64 / l.blk) + k / l.blk) 0).toNat)
          else x)
    row.map (fun x => x.flush l.sub))

/-- The exact sum of a run's products. -/
def runSum (xs ys : List XVal) : XVal :=
  match List.zipWith XVal.mul xs ys with
  | [] => XVal.zero false
  | p :: r => r.foldl (XVal.add 0) p

/-- A value rounded to FP32 by RNE, subnormals kept. Log entry 92, DEDUCED. -/
def toFp32 (x : XVal) : XVal := fp32.decode (fp32.round { rne with sub := true } x)

/-- The runs of a string of K values. -/
def runsOf (n : Nat) : Nat → List XVal → List (List XVal)
  | 0, _ => []
  | fuel + 1, xs => if xs = [] then [] else xs.take n :: runsOf n fuel (xs.drop n)

/-- One output word from a row of A and a column of B (R94). -/
def dotWord (ints : Bool) (run : Nat) (xs ys : List XVal) : Word :=
  let fuel := xs.length / run + 1
  let sums := List.zipWith runSum (runsOf run fuel xs) (runsOf run fuel ys)
  if ints then
    BitVec.ofInt 32 ((sums.map (fun x => match x with
      | .fin neg m e _ => (if neg then -(m : Int) else m) * 2 ^ e.toNat
      | _ => 0)).sum)
  else
    match sums.map toFp32 with
    | [] => 0
    | a :: r => BitVec.ofNat 32 (fp32.round { rne with sub := true } (r.foldl (fun acc x => toFp32 (acc.add 0 x)) a))

/-- Integer accumulation: both operands I8 or I4 without a scale (R94). -/
def intSums (a b : Slot) : Bool := (a.fmt == 10 || a.fmt == 11) && (b.fmt == 10 || b.fmt == 11) && a.scl == 0 && b.scl == 0

/-- The columns of a slot's first `kt` tiles: 64 kt values each, flushed by the B operand's slot. -/
def Plane.columns (p : Plane) (slot kt : Nat) (sub : Bool) : List (List XVal) :=
  let d := SlotDir.of (p.slotWord slot)
  let tiles := match parseTiles d d.tiles (p.wbytes (32 * d.off) (32 * d.len)) with | some (ts, _) => ts | none => []
  (List.range 128).map (fun n => ((tiles.take kt).flatMap (fun t => t.getD n [])).map (fun x => x.flush sub))

/-- The output rows of one member (R274, R275), from its A tiles in order. -/
def Plane.product (p : Plane) (kt : Nat) (a b : Slot) (steps : List (Nat × Nat)) (tiles : List (List Byte)) : List (List Word) :=
  let run := if a.fmt = 1 ∨ a.fmt = 2 ∨ b.fmt = 1 ∨ b.fmt = 2 then 16 else 32
  (steps.foldl (fun (acc : List (List Word) × List (List Byte)) g =>
    let cols := if g.2 = 0 then [] else p.columns g.1 kt b.sub
    (List.range (stepsOf g.2)).foldl (fun (acc : List (List Word) × List (List Byte)) st =>
      let ts := (acc.2.take kt).map (tileRows a)
      let rows := (List.range (min 128 (g.2 - 128 * st))).map (fun r =>
        let row := ts.flatMap (fun t => t.getD r [])
        cols.map (dotWord (intSums a b) run row))
      (acc.1 ++ rows, acc.2.drop kt)) acc) ([], tiles)).1

/-! Firing, running, completing (R118, R137, R276). -/

/-- The plane that is Active on a wall (R17). -/
def State.activePlane (s : State) (w : Nat) : Option Nat := (List.range 3).find? (fun p => (s.plane w p).st == .active)

/-- The plane whose operation a wall's engine is running. -/
def State.runningPlane (s : State) (w : Nat) : Option Nat :=
  (List.range 3).find? (fun p => (s.plane w p).engine.any (fun o => o.fired))

/-- The members of an operation with the entries they take: members that name one chute take its entries in turn (R118). The indices are
those captured at firing (R276). -/
def Plane.seatMembers (p : Plane) (kt : Nat) : List EngMember → List EngMember → List EngMember
  | done, [] => done
  | done, m :: r =>
    let qa := p.chute m.a
    let qc := p.chute m.c
    let taken := ((done.filter (fun o => o.a == m.a)).map (fun o => o.need kt)).sum
    let given := ((done.filter (fun o => o.c == m.c)).map (fun o => o.out)).sum
    p.seatMembers kt (done ++ [{ m with aIdx := qa.step qa.cons taken, cIdx := qc.step qc.prod (qc.resv + given) }]) r

/-- Whether every A entry that an operation reads is published and its C chutes have room for every row, over all its members (R118). -/
def Plane.opReady (p : Plane) (o : EngOp) : Bool :=
  o.members.all (fun m =>
    decide (((o.members.filter (fun x => x.a == m.a)).map (fun x => x.need o.kt)).sum ≤ (p.chute m.a).published) &&
    decide (((o.members.filter (fun x => x.c == m.c)).map (fun x => x.out)).sum ≤ (p.chute m.c).room))

/-- The operation that may fire on a wall (R118, R271, R276). -/
def State.fireable (s : State) (w : Nat) : Option (Nat × EngOp) :=
  if (s.runningPlane w).isSome || (s.wall w).service != .inService then none
  else match s.activePlane w with
    | none => none
    | some p =>
      match (s.plane w p).engine with
      | [] => none
      | o :: _ =>
        if (s.plane w p).opReady o &&
            !(s.loading w p).any (fun l => decide (l.id < o.order) && o.slots.contains l.slot) then some (p, o)
        else none

/-- The synchronisation state and ASID of a member, if it has not retired. -/
def State.memberOf (s : State) (who : DWord) : Sync × Nat :=
  match s.agents.find? (fun c => c.ident == who) with
  | some c => (c.sync, c.asid)
  | none => (Sync.start, 0)

/-- A member as the maker of its accesses (R137): A entries at the visible copy, C entries at the invisible one. -/
def State.memberMaker (s : State) (w p : Nat) (who : DWord) (y : Sync) (visible : Bool) : Maker :=
  { who := who, sync := y, die := dieOf w, ctx := { asid := (s.memberOf who).2, user := true, path := [] }, spot := some (w, p),
    visible := visible }

/-- The pieces of the A tiles and of the C rows of a member, from its captured indices. -/
def Plane.tilePieces (p : Plane) (m : EngMember) (i tb kt : Nat) : List (List (Nat × Nat)) :=
  (List.range (m.need kt)).map (fun j => pieces ((p.chute m.a).entry (i + j)) tb)
/-- The pieces of the C rows of a member. -/
def Plane.rowPieces (p : Plane) (m : EngMember) (i : Nat) : List (List (Nat × Nat)) :=
  (List.range m.out).map (fun j => pieces ((p.chute m.c).entry (i + j)) 512)

/-- A member's part of a firing: its acquire of the entries and of what their mapping has published (R118, R138), and the checks of all
its accesses, of which no entry read or written may be poisoned (R367). The fault it meets, its
synchronisation state after the acquire, its A tiles' bytes, and whether an access stalls at a waking bank. -/
def State.fireMember (s : State) (w p kt : Nat) (fa : Word) (m : EngMember) :
    Option RangeFault × Sync × List (List Byte) × Bool × State :=
  let pl := s.plane w p
  let y0 := (s.memberOf m.ident).1
  let y := (s.entryRels w p m.a m.aIdx (m.need kt)).foldl (fun y c => if s.syncs c m.ident 3 then y.acquire m.ident c else y) y0
  let tiles := pl.tilePieces m m.aIdx (tileBytes (Slot.of fa 0)) kt
  let y := s.syncPubs m.ident y (tiles.flatten.flatMap (fun x => pubCarries pl.shadows (s.memberOf m.ident).2 x.1 x.2))
  let outs := pl.rowPieces m m.cIdx
  let (f, ps, s1) := s.range (s.memberMaker w p m.ident y true) { acc := { rd := true } } tiles.flatten
  match f with
  | some f => (some f, y, [], false, s1)
  | none =>
    let (f, qs, s2) := s1.range (s.memberMaker w p m.ident y false) { acc := { wr := true } } outs.flatten
    let spoilt := if f.isSome then none else qs.find? (fun q => s.poisoned q.pa)
    let f := match spoilt with | some q => some { code := 0x0C, pa := q.pa } | none => f
    let s2 := match spoilt with | some q => s2.poisonUsed q.pa m.ident (dieOf w) | none => s2
    let bytes := tiles.map (fun t => t.flatMap (fun x =>
      s.load (s.scratch w p (shadowMove pl.shadows (s.memberOf m.ident).2 x.1 true)) x.2))
    (f, y, bytes, s.anyStall w (ps ++ qs), s2)

/-- All members' parts of a firing, up to the first fault. -/
def State.fireAll (s : State) (w p kt : Nat) (fa : Word) :
    List EngMember → Option (RangeFault × DWord) × List (Sync × List (List Byte)) × Bool × State
  | [] => (none, [], false, s)
  | m :: r =>
    match s.fireMember w p kt fa m with
    | (some f, _, _, st, s1) => (some (f, m.ident), [], st, s1)
    | (none, y, bs, st, s1) =>
      let (f, xs, st', s2) := s1.fireAll w p kt fa r
      (f, (y, bs) :: xs, st || st', s2)

/-- The state with the operation at the head of a plane's queue replaced, or gone. -/
def State.setHead (s : State) (w p : Nat) (o : Option EngOp) : State :=
  let pl := s.plane w p
  s.setPlane w p { pl with engine := o.toList ++ pl.engine.tail }

/-- ENGINE_FIRE (R118, R137, R276): the entries are acquired, every access is checked, the indices are captured and the C
room is reserved; the rows are those that the engine will have computed. -/
def execEngineFire (w : Nat) (s : State) : Out :=
  .next (match s.fireable w with
    | none => s
    | some (p, o) =>
      let pl := s.plane w p
      let ms := pl.seatMembers o.kt [] o.members
      match s.fireAll w p o.kt o.fa ms with
      | (some _, _, _, _) => s
      | (none, xs, stall, s1) =>
        if stall then s
        else
          let a := Slot.of o.fa 0
          let b := Slot.of o.fb 0
          let rows := List.zipWith (fun (m : EngMember) (x : Sync × List (List Byte)) => pl.product o.kt a b m.steps x.2) ms xs
          let s1 := s1.setHead w p (some { o with members := ms, fired := true, rows := rows })
          let s1 := (List.zip ms xs).foldl (fun s e =>
            s.modWhere (fun c => c.ident == e.1.ident) (fun c => { c with sync := e.2.1 })) s1
          ms.foldl (fun s m => s.modChute w p m.c (fun q => { q with resv := q.resv + m.out })) s1)

/-- A member's work item completes: its flag falls (R276). -/
def State.endMember (s : State) (m : EngMember) : State :=
  s.modWhere (fun c => c.ident == m.ident) (fun c => match c.workOf m.workId with
    | some k => c.finish k
    | none => c)

/-- ENGINE_ENTRY_CONSUMED (R118): one more A entry of a member is read and free; of members that name one chute, the earlier ones' entries
come first. -/
def execEngineEntryConsumed (w member : Nat) (s : State) : Out :=
  .next (match s.runningPlane w with
    | none => s
    | some p =>
      match (s.plane w p).engine with
      | o :: _ =>
        (match o.members[member]? with
         | some m =>
           if !o.fired || m.need o.kt ≤ m.eaten || (o.members.take member).any (fun x => x.a == m.a && decide (x.eaten < x.need o.kt)) then s
           else
             (s.setHead w p (some { o with members := o.members.set member { m with eaten := m.eaten + 1 } })).modChute w p m.a
               (fun q => { q with cons := q.step q.cons 1 })
         | none => s)
      | [] => s)

/-- Where the rows of a fired operation's members land, each access checked when it is made (R137, R142): the first fault, with the member
that meets it. -/
def State.landAll (s : State) (w p : Nat) : List EngMember → Option (RangeFault × DWord) × List (List Place) × State
  | [] => (none, [], s)
  | m :: r =>
    match s.range (s.memberMaker w p m.ident (s.memberOf m.ident).1 false) { acc := { wr := true } }
        ((s.plane w p).rowPieces m m.cIdx).flatten with
    | (some f, _, s1) => (some (f, m.ident), [], s1)
    | (none, ps, s1) => let (f, xs, s2) := s1.landAll w p r; (f, ps :: xs, s2)

/-- A member's C rows are written at their places and published (R117, R137): a release action of its course. -/
def State.putRows (s : State) (w p : Nat) (m : EngMember) (ps : List Place) (rows : List (List Word)) : State :=
  let launch := ((s.agents.find? (fun c => c.ident == m.ident)).map (fun c => c.launch)).getD s.launches.length
  let s := s.putRange launch w {} (cutBytes ps (rows.flatten.flatMap (fun x => bytesLE 4 x.toNat)))
  let r := (s.memberOf m.ident).1.release m.ident 3
  let s := s.modWhere (fun c => c.ident == m.ident) (fun c => { c with sync := r.2 })
  (s.publish w p m.c m.out r.1).modChute w p m.c (fun q => { q with resv := q.resv - m.out })

/-- ENGINE_OPERATION_COMPLETE (R276): every member's rows are written and its C chute advances; then the flags fall. -/
def execEngineOperationComplete (w : Nat) (s : State) : Out :=
  .next (match s.runningPlane w with
    | none => s
    | some p =>
      match (s.plane w p).engine with
      | o :: _ =>
        if !o.fired || o.members.any (fun m => decide (m.eaten < m.need o.kt)) then s
        else match s.landAll w p o.members with
          | (some _, _, _) => s
          | (none, xs, s1) =>
            if s.anyStall w xs.flatten then s
            else
              let s1 := (List.zip o.members (List.zip xs o.rows)).foldl (fun s e => s.putRows w p e.1 e.2.1 e.2.2) s1
              o.members.foldl State.endMember (s1.setHead w p none)
      | [] => s)

/-- An operation of a plane is cancelled at a fault that a member meets (R363, R367): no entry is written, its flags fall, and each member
traps at the first instruction that waits on its flag; without a flag, the launch reports 0x43. -/
def State.cancelOp (s : State) (w p : Nat) (o : EngOp) (f : RangeFault) (who : DWord) : State :=
  let s1 := s.memEvent 6 (f.pa / 32 * 32) (dieOf w) who 0 0 0 0
  let s1 := o.members.foldl (fun s m =>
    match m.sig, s.agents.find? (fun c => c.ident == m.ident) with
    | some fl, _ => s.modWhere (fun c => c.ident == m.ident) (fun c => { c with cancelled := c.cancelled ++ [fl] })
    | none, some c => s.modLaunch c.launch (fun l => if l.status = 0 then { l with status := 0x43 } else l)
    | none, none => s) (s1.setHead w p none)
  o.members.foldl State.endMember s1

/-- ENGINE_OPERATION_CANCEL (R363, R367): the operation that would fire meets a failing access: it reads and writes no entry, and every
index stands. An operation that has fired and whose rows meet a failing access when they land is cancelled then: no row is written and the
room it had reserved is free (log entry 86, DEDUCED). -/
def execEngineOperationCancel (w : Nat) (s : State) : Out :=
  .next (match s.fireable w with
    | some (p, o) =>
      (match s.fireAll w p o.kt o.fa ((s.plane w p).seatMembers o.kt [] o.members) with
       | (none, _, _, _) => s
       | (some (f, who), _, _, s1) => { s1 with tags := s.tags }.cancelOp w p o f who)
    | none =>
      match s.runningPlane w with
      | none => s
      | some p =>
        match (s.plane w p).engine with
        | o :: _ =>
          if !o.fired || o.members.any (fun m => decide (m.eaten < m.need o.kt)) then s
          else
            (match s.landAll w p o.members with
             | (none, _, _) => s
             | (some (f, who), _, s1) =>
               o.members.foldl (fun s m => s.modChute w p m.c (fun q => { q with resv := q.resv - m.out }))
                 ({ s1 with tags := s.tags }.cancelOp w p o f who))
        | [] => s)

end Sys2Proof.Machine
end

