-- ==== Sys2Proof/Machine/Records.lean ====
section
/-! DEFINITION. Stage-graph records (R176, R277 to R280, R378), snapshots (R179, R180, R281, R282, R384) and page requests
(R283, R314). -/

namespace Sys2Proof.Machine

/-! Nodes and room. -/

/-- Node n of a launch. -/
def Launch.node (l : Launch) (n : Nat) : Node := Sparse.get l.nodes n Node.none
/-- The launch with a node replaced. -/
def Launch.setNode (l : Launch) (n : Nat) (x : Node) : Launch := { l with nodes := Sparse.set l.nodes n x Node.none }

/-- An agent's reservation at a node: the pool offsets set aside. -/
def Node.resvAt (x : Node) (who : DWord) : List Nat := ((x.resv.find? (fun e => e.1 == who)).map Prod.snd).getD []
/-- Records reserved at a node. -/
def Node.reserved (x : Node) : Nat := (x.resv.map (fun e => e.2.length)).sum
/-- How many records an agent has reserved at a node. -/
def Node.resvOf (x : Node) (who : DWord) : Nat := (x.resvAt who).length
/-- The node with an agent's reservation changed. -/
def Node.setResv (x : Node) (who : DWord) (offs : List Nat) : Node :=
  { x with resv := x.resv.filter (fun e => e.1 != who) ++ (if offs = [] then [] else [(who, offs)]) }

/-- Pool bytes of a record (R176). -/
def Node.bytes (x : Node) : Nat := 16 + x.size

/-- The lowest offset from `at_` on where `need` bytes are free in a pool of `len` bytes, whose parts in use are listed in rising order.
Which free place a record takes, the manual leaves open (log entry 12, DESIGN CHOICE). -/
def poolFit (len need : Nat) : Nat → List (Nat × Nat) → Option Nat
  | at_, [] => if at_ + need ≤ len then some at_ else none
  | at_, (o, n) :: r => if at_ + need ≤ o then some at_ else poolFit len need (o + n) r

/-- A part in use put in its place. -/
def poolAdd (o n : Nat) : List (Nat × Nat) → List (Nat × Nat)
  | [] => [(o, n)]
  | e :: r => if o < e.1 then (o, n) :: e :: r else e :: poolAdd o n r

/-- Room for n records in the pool, as their offsets; none when it has no room for all. -/
def Launch.alloc (l : Launch) (bytes : Nat) : Nat → Option (List Nat × Launch)
  | 0 => some ([], l)
  | n + 1 =>
    match poolFit l.hdr.poolLen bytes 0 l.pool with
    | none => none
    | some o => ({ l with pool := poolAdd o bytes l.pool }.alloc bytes n).map (fun (e : List Nat × Launch) => (o :: e.1, e.2))

/-- Whether a node and the pool have room for n more records beside what is reserved (R176, R278). -/
def Launch.hasRoom (l : Launch) (node n : Nat) : Bool :=
  let x := l.node node
  x.pending.length + x.reserved + n ≤ x.cap && (l.alloc x.bytes n).isSome

/-- The state in which a launch has taken room for n records of a node, and their offsets. -/
def State.allocRecords (s : State) (launch node n : Nat) : List Nat × State :=
  match s.launches[launch]? with
  | none => ([], s)
  | some l =>
    match l.alloc (l.node node).bytes n with
    | none => ([], s)
    | some (offs, l') => (offs, s.modLaunch launch (fun _ => l'))

/-- Records are freed: their parts of the pool are free (R178). -/
def State.freeRecords (s : State) (launch : Nat) (offs : List Nat) : State :=
  s.modLaunch launch (fun l => { l with pool := l.pool.filter (fun e => !offs.contains e.1) })

/-- The launch of the focused course, if it is one of a stage graph. -/
def State.myLaunch (s : State) : Launch := (s.launches[s.cur.launch]?).getD Launch.blank

/-- A record instruction: illegal outside a node course (R277). -/
def execRecord (k : Ctl) (io : QueueUse) (body : State → Res) (s : State) : Out :=
  .next (s.issue true k io (firstCode [(s.cur.sys.isSome, 0x64), (s.cur.nid == 0xFFFFFFFF#32, 0x64)]) body)

/-- The node a register names, if it exists (R175, R277). Log entry 71, DEDUCED. -/
def Launch.nodeAt (l : Launch) (x : Word) : Option (Nat × Node) :=
  if 63 < x.toNat ∨ (l.node x.toNat).cap = 0 then none else some (x.toNat, l.node x.toNat)

/-- RALLOC (R278, R378). -/
def execRalloc (k : Ctl) (rd ra rb : BitVec 6) (s : State) : Out :=
  execRecord k {} (fun s =>
    let c := s.cur
    let l := s.myLaunch
    let n := (c.S rb.toNat).toNat
    match l.nodeAt (c.S ra.toNat) with
    | none => .trap s { code := 0x25 }
    | some (i, x) =>
      let have_ := x.resvOf c.ident
      let others := (l.nodes.filter (fun e => e.1 != i && e.2.resvOf c.ident != 0)).length
      if x.cap < have_ + n || (have_ == 0 && n != 0 && 8 ≤ others) then .trap s { code := 0x65 }
      else if n ≠ 0 ∧ !l.hasRoom i n then .wait s
      else
        let (offs, s) := s.allocRecords c.launch i n
        .done (s.modLaunch c.launch (fun l => l.setNode i ((l.node i).setResv c.ident (x.resvAt c.ident ++ offs))))
          { lat := none, writes := [.s rd.toNat (BitVec.ofNat 32 (have_ + n))] }) s

/-- The die whose Kiln serves a node: that of the yard which homes its queue memory (R175). -/
def Node.die (x : Node) : Nat := homeYard x.qmem.toNat / 4

/-- One record joins a node's queue (R176, R279): its header and payload are written in the pool, its pool offset in the queue memory. What
the Kiln keeps apart of a header, the emitter's identity and RC, stands in no byte of it: the header holds the depth and zeros. The queue
memory is a ring of its capacity, filled from place 0 on (log entry 12, DESIGN CHOICE). -/
def State.enqueueRec (s : State) (launch node off : Nat) (depth : Nat) (carry : Carry) (payload : List Byte) : State :=
  match s.launches[launch]? with
  | none => s
  | some l =>
    let x := l.node node
    let s := s.unitStore (l.hdr.pool.toNat + off) (bytesLE 16 depth ++ payload)
    let s := s.storeNat (x.qmem.toNat + 8 * ((x.qhead + x.pending.length) % x.cap)) 8 off
    let r : GRec := { off := off, size := x.size, depth := depth, carry := carry, tick := s.count x.die }
    s.modLaunch launch (fun l => l.setNode node { x with pending := x.pending ++ [r] })

/-- The oldest n records of a node leave its queue. -/
def Node.dequeue (x : Node) (n : Nat) : Node := { x with pending := x.pending.drop n, qhead := (x.qhead + n) % x.cap }

/-- The 32-byte pieces of a payload, as lanes of its thread. -/
def payloadLanes (t off size : Nat) : List Lane := (List.range (size / 32)).map (fun i => ⟨t, off + 32 * i, 32⟩)

/-- The Kiln that serves a node, as a unit that keeps keys (R388): that of its yard. -/
def Node.kiln (x : Node) : Nat := 8192 + homeYard x.qmem.toNat

/-- Whether the Kiln of a node holds 4,096 keys (R388). -/
def State.kilnFull (s : State) (x : Node) : Bool := 4096 ≤ (s.keys.filter (fun e => e.1 == x.kiln)).length

/-- An emission of the focused course is performed: its key is recorded at the node's Kiln, under the next number of the course's atomic
requests (R388; log entry 112, DEDUCED). -/
def State.emitted (s : State) (x : Node) : State :=
  { s with keys := s.keys ++ [(x.kiln, s.cur.ident, s.cur.atoms, [])], cur := { s.cur with atoms := s.cur.atoms + 1 } }

/-- REMIT (R279, R378, R388): the depth of every record, the count, then the room are settled before the payloads are read. -/
def execRemit (k : Ctl) (ra : BitVec 6) (q res : BitVec 1) (s : State) : Out :=
  let qi := 4 + q.toNat
  execRecord k { pops := [(qi, 1)] } (fun s =>
    let c := s.cur
    let l := s.myLaunch
    let e := c.popped qi 0
    let ts := e.threads c.live
    let n := ts.length
    match l.nodeAt (c.S ra.toNat) with
    | none => .trap s { code := 0x25 }
    | some (i, x) =>
      let depth (t : Nat) : Nat := Sparse.get c.depths t 0 + 1
      if ts.any (fun t => x.maxDepth < depth t) then .trap s { code := 0x26 }
      else if x.cap < n || (res == 1 && x.resvOf c.ident < n) ||
          ts.any (fun t => (spOffset (e.word t) 32).isNone) then .trap s { code := 0x65 }
      else if (res = 0 ∧ !l.hasRoom i n) ∨ s.kilnFull x then .wait s
      else
        (s.reach c.ctx (some BReg.wholeSp) { acc := { rd := true } }
          (ts.flatMap (fun t => payloadLanes t (e.word t).toNat x.size))).res s (fun s' ps _ =>
            let (offs, s') := if res = 1 then
                (x.resvAt c.ident, s'.modLaunch c.launch (fun l => l.setNode i (x.setResv c.ident ((x.resvAt c.ident).drop n))))
              else s'.allocRecords c.launch i n
            let payload (t : Nat) : List Byte := s'.bytesAt (ps.filter (fun p => p.t == t))
            let s' := (List.zip ts offs).foldl (fun s e =>
              let r := s.releaseC 6
              r.2.enqueueRec c.launch i e.2 (depth e.1) r.1 (payload e.1)) s'
            .done (s'.emitted x) { lat := none })) s

/-- Word j of a record's payload, from the pool (R176, R280). -/
def State.recWord (s : State) (l : Launch) (r : GRec) (j : Nat) : Word :=
  BitVec.ofNat 32 (s.loadNat (l.hdr.pool.toNat + r.off + 16 + 4 * j) 4)

/-- RTAKE (R280): each record read is an acquire of its emission. -/
def execRtake (k : Ctl) (q : BitVec 2) (wi : BitVec 5) (n : BitVec 3) (s : State) : Out :=
  let count := n.toNat + 1
  execRecord k { pushes := [(q.toNat, count)] } (fun s =>
    let c := s.cur
    let l := s.myLaunch
    let x := l.node c.nid.toNat
    if x.size / 4 < wi.toNat + count then .trap s { code := 0x65 }
    else
      let entry (j : Nat) : QEntry := vecEntry (c.held.map (fun e => (e.1, s.recWord l e.2 (wi.toNat + j))))
      let ws := (List.range count).map (fun j => RegWrite.push q.toNat (pushTag s.nextId j) (entry j))
      let s := c.held.foldl (fun s e => s.acquireIf e.2.carry 6) s
      .done s { lat := none, writes := ws }) s


/-- RDONE (R280). -/
def execRdone (k : Ctl) (q : BitVec 1) (s : State) : Out :=
  let qi := 4 + q.toNat
  execRecord k { pops := [(qi, 1)] } (fun s =>
    let c := s.cur
    let e := c.popped qi 0
    let ts := (e.threads c.live).filter (fun t => e.word t != 0 && c.held.any (fun h => h.1 == t))
    let s := s.freeRecords c.launch ((c.held.filter (fun h => ts.contains h.1)).map (fun h => h.2.off))
    .done (s.modC (fun c => { c with held := c.held.filter (fun h => !ts.contains h.1) })) { lat := none }) s

/-! Snapshots. -/

/-- Whether a launch names a snapshot domain (R179). -/
def Launch.hasDomain (l : Launch) : Bool := l.hdr.snapTab != 0 && l.hdr.snapCount != 0

/-- SNAP (R281). -/
def execSnap (k : Ctl) (s : State) : Out :=
  execCourse k {} (fun s =>
    .done (s.modLaunch s.cur.launch (fun l =>
      if l.hasDomain && !l.snapOpen then { l with snapOpen := true, snapPages := [], snapWalls := [] } else l)) { lat := none }) s

/-- SNAPC (R282): it waits for the scans of R180. -/
def execSnapc (k : Ctl) (rd : BitVec 6) (cl : BitVec 1) (s : State) : Out :=
  execCourse k {} (fun s => .done s { lat := none, act := .snapc s.cur.launch rd.toNat (cl == 1) }) s

/-- The numbers of the commits of a launch that wait. -/
def State.commits (s : State) (launch : Nat) : List Nat :=
  s.agents.flatMap (fun c => c.work.filterMap (fun k => match k.act with
    | .snapc l _ _ => if l = launch then some k.id else none
    | _ => none))

/-- A commit is answered: its status is written and its flag falls. -/
def Course.answer (c : Course) (k : Work) (rd status : Nat) : Course :=
  c.finish { k with writes := [.s rd (BitVec.ofNat 32 status)] }

/-- The working frame of a page becomes the committed one: its bytes, what they carry, their tags and their poison (R179, R180, R366). -/
def State.commitFrame (s : State) (n page : Nat) : State :=
  let shift := workAt n 0
  let work := page + shift / 2 ^ 14
  let old (k unit : Nat) : Bool := k / unit == page
  let new (k unit : Nat) : Bool := k / unit == work
  { s with
    mem := (s.mem.filter (fun c => new c.1 (2 ^ 14))).foldl (fun m c => Sparse.set m (c.1 - shift) c.2 0)
      (s.mem.filter (fun c => !old c.1 (2 ^ 14) && !new c.1 (2 ^ 14)))
    rels := (s.rels.filter (fun e => !old e.1 (2 ^ 14) && !new e.1 (2 ^ 14))) ++
      (s.rels.filter (fun e => new e.1 (2 ^ 14))).map (fun e => (e.1 - shift, e.2))
    tags := (s.tags.filter (fun e => new e.1 512)).foldl (fun m e => Sparse.put m (e.1 - shift / 32) e.2)
      (s.tags.filter (fun e => !old e.1 512 && !new e.1 512))
    poison := (s.poison.filter (fun e => new e.1 512)).foldl (fun m e => Sparse.put m (e.1 - shift / 32) e.2)
      (s.poison.filter (fun e => !old e.1 512 && !new e.1 512)) }

/-- The working frame of a page is given up: the committed one stands (R384). -/
def State.dropFrame (s : State) (n page : Nat) : State :=
  let work := page + workAt n 0 / 2 ^ 14
  { s with mem := s.mem.filter (fun c => c.1 / 2 ^ 14 != work), rels := s.rels.filter (fun e => e.1 / 2 ^ 14 != work),
           tags := s.tags.filter (fun e => e.1 / 512 != work), poison := s.poison.filter (fun e => e.1 / 512 != work) }

/-- Where the root pointer of launch n's domain stands in local HBM: the manual names no address (log entry 41, DESIGN CHOICE). -/
def State.rootAt (s : State) (n : Nat) : Nat := s.did * 2 ^ 46 + 8 * (Config.rootAt n % 2 ^ 37)

/-- The root pointer flips, in one write that is a release of the focused course at persist scope (R180): every working frame becomes the
committed one. What the pointer then holds, the manual leaves open (log entry 41, DESIGN CHOICE). -/
def State.flipRoot (s : State) (n : Nat) (pages : List Nat) : State :=
  let s := pages.foldl (fun s p => s.commitFrame n p) s
  let (x, s) := s.draw
  s.releaseStore s.cur.ident 9 (s.rootAt n) (bytesLE 8 x)

/-- SNAPC_COMMIT (R180, R282): the oldest commit of its launch is served once every wall that wrote into the domain has
passed a scan that began after its last write. -/
def execSnapcCommit (who : DWord) (id : Nat) (s : State) : Out :=
  .next (match s.focus who with
    | none => s
    | some f =>
      match f.cur.workOf id with
      | some k =>
        (match k.act with
         | .snapc n rd close =>
           let l := (f.launches[n]?).getD Launch.blank
           if (f.commits n).any (fun j => decide (j < id)) then s
           else if !l.hasDomain then f.modC (fun c => c.answer k rd 2)
           else if !l.snapOpen then f.modC (fun c => c.answer k rd 1)
           else if l.snapWalls.any (fun e => (f.wall e.1).lastScan.toNat ≤ e.2.toNat) then s
           else
             let f := if l.snapPages = [] then f else f.flipRoot n l.snapPages
             let f := f.modLaunch n (fun l => { l with snapPages := [], snapWalls := [], snapOpen := !close })
             f.modC (fun c => c.answer k rd 0)
         | _ => s)
      | none => s)

/-- Every working frame since the last commit is given up (R384). -/
def State.rollback (s : State) (n : Nat) : State :=
  match s.launches[n]? with
  | none => s
  | some l => (l.snapPages.foldl (fun s p => s.dropFrame n p) s).modLaunch n (fun l => { l with snapPages := [], snapWalls := [] })

/-- Commits that wait on a wall whose scan fails, one that it has not passed since its last write, roll the domain back with status 3 (R384). -/
def State.failCommits (s : State) (wall : Nat) : State :=
  (List.range s.launches.length).foldl (fun s n =>
    match s.launches[n]? with
    | none => s
    | some l =>
      if !l.snapOpen || !l.snapWalls.any (fun e => e.1 == wall && decide ((s.wall wall).lastScan.toNat ≤ e.2.toNat)) ||
          (s.commits n).isEmpty then s
      else
        (s.rollback n).modAll (fun c => c.work.foldl (fun c k => match k.act with
          | .snapc m rd _ => if m = n then c.answer k rd 3 else c
          | _ => c) c)) s

/-! Page requests. -/

/-- The answer an entry has by itself: its leaf is resident (R283). -/
def State.residentAt (s : State) (asid va : Nat) : Bool :=
  match s.walk asid va with
  | .ok l => l.res
  | _ => false

/-- The `MIG` bit of a leaf, zero where there is none (R149). -/
def State.migAt (s : State) (asid va : Nat) : Bool :=
  match s.walk asid va with
  | .ok l => ebit l.e 58
  | _ => false

/-- The pager's ring receives a request (R314), and event 0 is raised on core 0; a ring of size 0 keeps nothing (log entry
13, DEDUCED). -/
def State.pageRequest (s : State) (va entry : Nat) (who : DWord) (asid : Nat) : State :=
  let size := (s.dreg 0x852).toNat
  let head := s.dreg 0x854
  let bs := bytesLE 8 va ++ bytesLE 8 entry ++ bytesLE 8 who.toNat ++ bytesLE 2 asid ++
    bytesLE 1 (if s.migAt asid va then 1 else 0) ++ bytesLE 5 0
  let s := if size = 0 then s else s.unitStore (s.dreg64 0x850 + 32 * (head.toNat % size)) bs
  (s.setDreg 0x854 (head + 1)).raiseEvent 0 0

/-- The answer code stands in bits [1:0] of entry i of a list, whose entries stand at some places. -/
def State.answerEntry (s : State) (list : List Nat) (i code : Nat) : State :=
  let a := list.getD i 0
  (s.dropBlocks a 8).storeNat a 8 (s.loadNat a 8 / 4 * 4 + code)

/-- PGREQ (R283): the whole list is read at issue; resident entries are answered at once, the others go to the pager. -/
def execPgreq (k : Ctl) (ra rb : BitVec 6) (s : State) : Out :=
  execCourse k {} (fun s =>
    let c := s.cur
    let n := (c.S rb.toNat).toNat
    match spOffset (c.S ra.toNat) 8 with
    | none => .trap s { code := 0x65 }
    | some off =>
      if n = 0 ∨ 256 < n ∨ 0x100000 < off + 8 * n then .trap s { code := 0x65 }
      else (s.readSp off (8 * n)).res s (fun s' ps _ =>
        let bs := s'.bytesAt ps
        let vas := (List.range n).map (fun i => numAt bs (8 * i) 8)
        if vas.any (fun v => v % 2 ^ 14 != 0 || 2 ^ 56 ≤ v) then .trap s { code := 0x65 }
        else
          let list := (List.range n).map (fun i => s'.scratch c.wall c.plane (shadowMove s'.myPlane.shadows c.asid (off + 8 * i) true))
          let (s', wait) := vas.zipIdx.foldl (fun (acc : State × List (Nat × Nat)) e =>
            if acc.1.residentAt c.asid e.1 then (acc.1.answerEntry list e.2 1, acc.2)
            else ((acc.1.pageRequest e.1 (list.getD e.2 0) c.ident c.asid),
                  acc.2 ++ [((acc.1.dreg 0x854).toNat, e.2)])) (s', [])
          .done s' { lat := none, act := .pgreq list n wait })) s

/-- PGANS_WRITE (R314): the answer of a request that waits is written into its list entry; what the answering core has
done is acquired by a wait on the flag (R283). The code 00 answers nothing (log entry 13, DEDUCED). -/
def execPgansWrite (v : Word) (s : State) : Out :=
  .next (
    let idx := v.toNat / 4
    let code := v.toNat % 4
    let hit (k : Work) : Option (List Nat × Nat × Nat) := match k.act with
      | .pgreq list _ wait => (wait.find? (fun e => e.1 % 2 ^ 30 == idx)).map (fun e => (list, e))
      | _ => none
    match (if code = 0 then none else s.agents.findSome? (fun c => c.work.findSome? (fun k => (hit k).map (fun e => (c.ident, k, e))))) with
    | none => s
    | some (who, k, list, e) =>
      let s1 := s.answerEntry list e.2 code
      let (carry, s1) := if s1.cur.sys.isSome then s1.releaseC 6 else (⟨0, 6, 0, [], 0⟩, s1)
      s1.modWhere (fun c => c.ident == who) (fun c =>
        { c with
          work := c.work.map (fun o => if o.id = k.id then
            (match o.act with
             | .pgreq list n wait => { o with act := .pgreq list n (wait.filter (fun x => x != e)) }
             | _ => o) else o),
          copyRels := match k.sig with | some f => c.copyRels ++ [(f, carry)] | none => c.copyRels }))

/-- A page request whose every answer is written completes: its record, then its flag (R283). -/
def State.endPgreq (s : State) (k : Work) : State :=
  match k.act with
  | .pgreq list n wait =>
    if wait ≠ [] then s
    else
      let yes := ((List.range n).filter (fun i => s.loadNat (list.getD i 0) 8 % 4 == 1)).length
      s.modC (fun c => (c.recordFor k.sig 0 0 0 yes 0).finish k)
  | _ => s

end Sys2Proof.Machine
end

