-- ==== Sys2Proof/Machine/Image.lean ====
section
/-! DEFINITION. Context images: the header and its checks (R162, R163), plane records (R164) and course records (R165) written to
and read from memory. -/

namespace Sys2Proof.Machine

/-! Raw writes by the device itself. -/

/-- The device writes `n` bytes at an address: they are zero until fields are put there. Releases that stood there end, and
poison of the sectors is gone (R366). -/
def State.blank (s : State) (a n : Nat) : State :=
  { s.pastHost a n with
    mem := s.mem.filter (fun c => !(a ≤ c.1 && c.1 < a + n)), rels := cutRels s.rels a n,
    poison := s.poison.filter (fun e => !(a ≤ 32 * e.1 && 32 * e.1 + 32 ≤ a + n)) }

/-- Fields (offset, bytes, value) put at an address. -/
def State.putFields (s : State) (a : Nat) (fs : List (Nat × Nat × Nat)) : State :=
  fs.foldl (fun s f => s.storeNat (a + f.1) f.2.1 f.2.2) s

/-- The device writes an area of `n` bytes whole: fields, zero elsewhere. -/
def State.writeArea (s : State) (a n : Nat) (fs : List (Nat × Nat × Nat)) : State := (s.blank a n).putFields a fs

/-- The bytes of one area of memory, moved to another. -/
def State.moveBytes (s : State) (src n dst : Nat) : State :=
  let cs := (s.mem.filter (fun c => src ≤ c.1 && c.1 < src + n)).map (fun c => (dst + (c.1 - src), c.2))
  let s := s.blank dst n
  { s with mem := cs.foldl (fun m c => Sparse.set m c.1 c.2 0) s.mem }

/-- The table of the first n keys of a function. -/
def tableOf {β : Type} [DecidableEq β] (n : Nat) (f : Nat → β) (d : β) : Sparse β :=
  (List.range n).filterMap (fun k => let x := f k; if x = d then none else some (k, x))

/-! The header. -/

/-- The magic numbers of an image header and of a plane record. -/
abbrev magicImage : Nat := 0x4D493943
/-- The magic number of a plane record. -/
abbrev magicPlane : Nat := 0x4C503943

/-- Number `n` bytes at an offset of an area. -/
def State.num (s : State) (a off n : Nat) : Nat := s.loadNat (a + off) n
/-- A double word at an offset of an area. -/
def State.dw (s : State) (a off : Nat) : DWord := BitVec.ofNat 64 (s.num a off 8)
/-- A word at an offset of an area. -/
def State.wd (s : State) (a off : Nat) : Word := BitVec.ofNat 32 (s.num a off 4)

/-- A chute as R164 lays it out, at an address, with its indices. -/
def State.chuteAt (s : State) (a : Nat) : Chute :=
  let sides := s.num a 20 4
  ⟨s.num a 0 4, s.num a 4 4, s.num a 8 4, s.num a 12 4, s.num a 16 4, sides % 16, sides / 16 % 16, sides / 256 % 16, s.num a 24 4⟩

/-- The fields of a chute as R164 lays it out, from an offset. -/
def Chute.fields (c : Chute) (off : Nat) : List (Nat × Nat × Nat) :=
  [(off, 4, c.base), (off + 4, 4, c.cap), (off + 8, 4, c.size), (off + 12, 4, c.prod), (off + 16, 4, c.cons),
   (off + 20, 4, c.pside + 16 * c.cside + 256 * c.chan), (off + 24, 4, c.resv)]

/-- The check of an initial chute (R162): that of `CHDEF`, but a side may be undefined. -/
def freshChuteBad (bs : List Byte) : Bool :=
  let base := numAt bs 0 4
  let cap := numAt bs 4 4
  let size := numAt bs 8 4
  let sides := numAt bs 20 4
  let pside := sides % 16
  let cside := sides / 16 % 16
  numAt bs 12 8 != 0 || numAt bs 24 8 != 0 ||
  (if cap = 0 then base != 0 || size != 0 || sides != 0
   else base % 32 != 0 || 65536 < cap || size % 32 != 0 || size == 0 || 0x100000 < base + cap * size || 3 < pside ||
     3 < cside || 2 ^ 12 ≤ sides || ((pside == 2 || cside == 2) && 7 < sides / 256 % 16))

/-- The header at an address (R162). -/
def State.header (s : State) (a : Nat) : ImgHdr :=
  let fl := s.num a 6 2
  { unified := ebit fl 0, graph := ebit fl 1, fresh := ebit fl 2, asid := s.num a 8 2, nthr := s.num a 10 1,
    vcnt := s.num a 11 1, qcnt := s.num a 12 1, cluster := s.num a 13 1, gcnt := s.num a 16 4, lid := s.wd a 20,
    stack := s.num a 24 4, entryA := s.dw a 32, entryC := s.dw a 40, stackBase := s.dw a 48, courseTab := s.dw a 56,
    planeTab := s.dw a 64, scratch := s.dw a 72, scratchLen := s.num a 80 4, planes := s.num a 84 4, nodeTab := s.dw a 88,
    pool := s.dw a 96, poolLen := s.num a 104 8, seedNode := s.num a 112 1, seedCount := s.num a 116 4, seeds := s.dw a 120,
    fslots := (List.range 32).map (fun k => s.wd a (128 + 4 * k)),
    chutes := (List.range 16).map (fun n => s.chuteAt (a + 256 + 32 * n)), snapTab := s.dw a 768, snapCount := s.num a 776 4 }

/-- Register-file bytes of an allocation (R28). -/
def ImgHdr.alloc (h : ImgHdr) : Nat := h.vcnt * 384 + h.qcnt * 13824

/-- Bytes of a course record of an image (R165). -/
def ImgHdr.recordBytes (h : ImgHdr) : Nat := 43008 + h.alloc

/-- The address of record idx of an image's plane table. -/
def State.planeRec (s : State) (h : ImgHdr) (idx : Nat) : Nat := s.loadNat (h.planeTab.toNat + 8 * idx) 8
/-- The address of record i of an image's course table. -/
def State.courseRec (s : State) (h : ImgHdr) (i : Nat) : Nat := s.loadNat (h.courseTab.toNat + 8 * i) 8
/-- The courses that the plane records before idx hold: where those of idx begin in the course table (log entry 18, DESIGN CHOICE). -/
def State.coursesBefore (s : State) (h : ImgHdr) (idx : Nat) : Nat :=
  ((List.range idx).map (fun j => s.num (s.planeRec h j) 4 2)).sum

/-- Whether `n` bytes from `a` on lie in local HBM. -/
def State.inHbm (s : State) (a n : Nat) : Bool := s.isHbm a && rgnOff a + n ≤ 2 ^ 40

/-- Whether the tables of an image and the records they name for its planes and `n` courses lie in local HBM, each record 64-byte aligned
(R162; log entry 98, DEDUCED). -/
def State.recordsPlaced (s : State) (h : ImgHdr) (n : Nat) : Bool :=
  s.inHbm h.planeTab.toNat (8 * h.planes) && s.inHbm h.courseTab.toNat (8 * n) &&
  (List.range h.planes).all (fun i => s.planeRec h i % 64 == 0 && s.inHbm (s.planeRec h i) 1593344) &&
  (List.range n).all (fun i => s.courseRec h i % 64 == 0 && s.inHbm (s.courseRec h i) h.recordBytes)

/-- Whether every plane record of an image names courses that fit in one plane (R28, R164). -/
def State.planesFit (s : State) (h : ImgHdr) : Bool :=
  (List.range h.planes).all (fun i => let n := s.num (s.planeRec h i) 4 2; n ≤ 32 && n * h.alloc ≤ 524288)

/-- Whether the `n` bytes at an offset of an area are zero. -/
def State.zeros (s : State) (a off n : Nat) : Bool := s.mem.all (fun c => c.1 < a + off || a + off + n ≤ c.1 || c.2 == 0)

/-- Whether a chute of a plane record has a reserved side code, a channel that no wall has, or a zero field that is not zero (R164). -/
def State.chuteBad (s : State) (a : Nat) : Bool :=
  let sides := s.num a 20 4
  3 < sides % 16 || 3 < sides / 16 % 16 || 2 ^ 12 ≤ sides || !s.zeros a 28 4 ||
  ((sides % 16 == 2 || sides / 16 % 16 == 2) && 7 < sides / 256)

/-- Whether a plane record has a wrong magic number, a zero field that is not zero, or a field outside its range (R164, R269). -/
def State.planeBad (s : State) (a : Nat) : Bool :=
  s.num a 0 4 != magicPlane || 32 < s.num a 4 2 || (191 < s.num a 6 2 && s.num a 6 2 != 0xFFFF) || !s.zeros a 16 48 ||
  !s.zeros a 1728 2368 || (List.range 16).any (fun n => s.chuteBad (a + 64 + 32 * n)) ||
  (List.range 16).any (fun i => !s.zeros a (832 + 16 * i + 14) 2)

/-- Whether a translation register's bits have a zero field that is not zero (R154). -/
def bregBad (x : Nat) : Bool := x / 2 ^ 116 % 8 != 0 || (ebit x 127 && x / 2 ^ 84 % 2 ^ 32 != 0)

/-- Whether the state word of a course record has a zero bit set or a stack depth outside its range (R165). -/
def stateWordBad (x : Nat) : Bool := x / 2 ^ 7 % 32 != 0 || ebit x 20 || 2 ^ 29 ≤ x || 4 < x / 2 ^ 21 % 8 || 16 < x / 2 ^ 24 % 32

/-- Whether a course record of an image with so many planes has a zero field that is not zero, or a field outside its range (R73, R154,
R165, R267). -/
def State.courseBad (s : State) (planes a : Nat) : Bool :=
  let st := s.num a 32 4
  stateWordBad st || planes ≤ s.num a 36 4 || !s.zeros a 60 4 || !s.zeros a 760 8 || !s.zeros a 1440 96 || !s.zeros a 4550 58 ||
  !s.zeros a 750 2 || (List.range 12).any (fun f => 63 < s.num a (736 + f) 1) ||
  (List.range 8).any (fun n => bregBad (s.num a (448 + 24 * n) 24)) ||
  (List.range (st / 2 ^ 24 % 32)).any (fun i => 4 < s.num a (1536 + 32 * i + 31) 1) ||
  (List.range (st / 2 ^ 21 % 8)).any (fun i =>
    let o := 2048 + 432 * i
    3 < s.num a o 1 || 7 < s.num a (o + 1) 1 || 1 < s.num a (o + 2) 1 || !s.zeros a (o + 3) 5) ||
  (List.range 768).any (fun k => 63 < s.num a (3776 + k) 1) || (List.range 6).any (fun n => 16 < s.num a (4544 + n) 1) ||
  (List.range 6).any (fun n => (List.range (s.num a (4544 + n) 1)).any (fun i => 2 < s.num a (4608 + 400 * (16 * n + i)) 4))

/-- Whether an image's records may not be resumed: a table or a record is not where R162 has it, or a field of a record is wrong by R164 or R165
(R162). A fresh image has none. -/
def State.recordsBad (s : State) (h : ImgHdr) : Bool :=
  let n := s.coursesBefore h h.planes
  !h.fresh && (!s.inHbm h.planeTab.toNat (8 * h.planes) || !s.planesFit h || !s.recordsPlaced h n ||
    (List.range h.planes).any (fun i => s.planeBad (s.planeRec h i)) ||
    (List.range n).any (fun i => s.courseBad h.planes (s.courseRec h i)))

/-- Whether a header is rejected (R162). -/
def State.headerBad (s : State) (a : Nat) : Bool :=
  let h := s.header a
  let fl := s.num a 6 2
  s.num a 0 4 != magicImage || s.num a 4 2 != 1 || 8 ≤ fl || 2048 ≤ h.asid || h.nthr == 0 || 96 < h.nthr || h.vcnt % 8 != 0 ||
  h.vcnt < 8 || 120 < h.vcnt || !(h.qcnt == 0 || h.qcnt == 4 || h.qcnt == 8) || h.cluster == 1 || 16 < h.cluster ||
  s.num a 14 2 != 0 || (!h.graph && (h.gcnt == 0 || 65536 < h.gcnt)) || h.stack % 32 != 0 || s.num a 28 4 != 0 ||
  (h.unified && h.entryC != h.entryA) || (h.fresh && (h.courseTab != 0 || h.planeTab != 0)) || 0x100000 < h.scratchLen ||
  (!h.graph && (h.nodeTab != 0 || h.pool != 0 || h.poolLen != 0)) || 63 < h.seedNode || s.num a 113 3 != 0 || 256 < h.snapCount ||
  s.num a 780 244 != 0 || !s.inHbm a 1024 ||
  (h.fresh && (List.range 16).any (fun n => freshChuteBad (s.load (a + 256 + 32 * n) 32)))

/-- Whether a fresh launch carries plane data (R163). -/
def ImgHdr.carries (h : ImgHdr) : Bool := h.fresh && (h.scratchLen != 0 || h.chutes.any (fun c => c.cap != 0))

/-- Whether an image's code is W6 words: bit 0 of a unified entry (R198). -/
def ImgHdr.w6 (h : ImgHdr) : Bool := h.unified && h.entryC.getLsbD 0

/-- The die whose counter and sequencer serve a queue (R168). -/
def queueDie (q : Nat) : Nat := q / 16

/-! Fresh courses (R42, R163). -/

/-- A fresh course of a launch: its number, node and place are given. An entry that is no multiple of the stream's word size starts the
stream there (log entry 132, DESIGN CHOICE). -/
def freshCourse (h : ImgHdr) (launch : Nat) (ident : DWord) (cid nid gcnt : Word) (nthr : Nat) : Course :=
  let entry (e : DWord) : DWord := if h.unified then e &&& ~~~1#64 else e
  let sp := h.stackBase + BitVec.ofNat 64 ((cid.toNat + 1) * h.stack)
  let c := { Course.blank with
    ident := ident, lid := h.lid, cid := cid, nid := nid, gcnt := gcnt, nthr := nthr, vcnt := h.vcnt, qcnt := h.qcnt,
    asid := h.asid, launch := launch, unified := h.unified, w6 := h.w6, pcA := entry h.entryA, pcC := entry h.entryC,
    live := firstThreads nthr, fslots := tableOf 32 (fun k => h.fslots.getD k 0) 0 }
  let c := (pairWrites 58 sp).foldl Course.write c
  (maskWrites (firstThreads nthr)).foldl Course.write c

/-! Course records (R165). -/

/-- Bytes of a course record. -/
def Course.recordBytes (c : Course) : Nat := 43008 + 384 * c.vcnt + 13824 * c.qcnt

/-- A translation register as R154 lays it out. -/
def BReg.bits (r : BReg) : Nat :=
  r.base.toNat + r.frame.toNat * 2 ^ 64 + r.attr * 2 ^ 119 + r.lim.toNat * 2 ^ 128 + r.ext.toNat * 2 ^ 160

/-- A translation register from its bits: in scratchpad mode the frame is the offset in [83:64] (R154). -/
def BReg.ofBits (x : Nat) : BReg :=
  { base := BitVec.ofNat 64 x, frame := BitVec.ofNat 52 (x / 2 ^ 64 % (if ebit x 127 then 2 ^ 20 else 2 ^ 52)), ca := BitVec.ofNat 2 (x / 2 ^ 119), rd := ebit x 121,
    w := ebit x 122, chk := ebit x 123, gr := BitVec.ofNat 2 (x / 2 ^ 124), stale := ebit x 126, mode := ebit x 127,
    lim := BitVec.ofNat 32 (x / 2 ^ 128), ext := BitVec.ofNat 32 (x / 2 ^ 160) }

/-- The `DIST` of the next word of a stream of the focused agent; 0 where it has none. Log entry 89, DEDUCED. -/
def State.nextDist (s : State) (st : Stream) : Nat :=
  if s.cur.ended st then 0
  else match (s.nextWord st).1 with
    | .instr i => (((Instr.ctl i).map Ctl.dist).getD 0).toNat
    | .bad k _ => k.dist.toNat
    | .lost => 0

/-- What is left of the `DIST` of a stream's next word, `dist`: the cycles that must pass before it may issue (R42, R165). -/
def Course.distLeft (c : Course) (st : Stream) (dist cycle : Nat) : Nat :=
  match c.lastIssue st with
  | some n => dist - (cycle - n)
  | none => c.rest st - cycle

/-- The remaining `DIST` of both streams of a course, as its record holds them; a unified course has one stream. -/
def State.distsLeft (s : State) (c : Course) : Nat × Nat :=
  match s.focus c.ident with
  | some f =>
    let left (st : Stream) : Nat := c.distLeft st (f.nextDist st) (s.cycleOf c.die)
    (if c.unified then 0 else left .addr, left .comp)
  | none => (0, 0)

/-- The state word of a course record; `dists` are the remaining `DIST` counts. -/
def Course.stateWord (c : Course) (cycle : Nat) (dists : Nat × Nat) : Nat :=
  let b (x : Bool) (n : Nat) : Nat := if x then 2 ^ n else 0
  b c.endA 0 + b c.endC 1 + b c.trap.isSome 2 + b (match c.hold with | .latch _ => true | _ => false) 3 +
  b (decide (cycle < c.holdC)) 4 + b c.halted 5 + b ((c.trap.map (fun t => t.stream == .comp)).getD false) 6 +
  dists.1 * 2 ^ 12 + dists.2 * 2 ^ 16 + c.meld.length * 2 ^ 21 + c.recon.length * 2 ^ 24

/-- The fields of an entry of the reconvergence stack. -/
def RecEntry.fields (e : RecEntry) (off : Nat) : List (Nat × Nat × Nat) :=
  [(off, 12, e.saved.toNat), (off + 12, 12, e.pending.toNat),
   (off + 24, 8, e.pc.toNat % 2 ^ 56 + e.depth * 2 ^ 56)]

/-- The barrier epoch of a scope as a course record holds it (R165, R225): of a course held at a barrier of the scope, the instance and the
epoch at which it departs. -/
def Course.epochField (c : Course) (scope : Nat) : DWord × DWord :=
  match c.hold with
  | .bar sc u i e _ _ => if sc = scope then (instanceOf c.lid u i, e) else c.epochAt scope
  | _ => c.epochAt scope

/-- The fields of an entry of the meld stack. The face byte marks an enclosing face A set, or face B running (log entry 18, DESIGN CHOICE). -/
def MeldEntry.fields (e : MeldEntry) (off : Nat) : List (Nat × Nat × Nat) :=
  (off, 1, e.kind) :: (match e with
  | .meld saved fa p encl =>
    [(off + 1, 1, p), (off + 2, 1, if encl then 1 else 0), (off + 8, 12, saved.toNat), (off + 20, 12, fa.toNat)]
  | .loop saved fa start cnt =>
    [(off + 2, 1, if fa.isSome then 1 else 0), (off + 8, 12, saved.toNat), (off + 20, 12, (fa.getD 0).toNat), (off + 32, 8, start.toNat)] ++
    cnt.map (fun x => (off + 48 + 4 * x.1, 4, x.2.toNat))
  | .suspend ret => [(off + 32, 8, ret.toNat)]
  | .pair saved fa tb ret rb =>
    [(off + 2, 1, if rb then 1 else 0), (off + 8, 12, saved.toNat), (off + 20, 12, fa.toNat), (off + 32, 8, ret.toNat), (off + 40, 8, tb.toNat)])

/-- An entry of the meld stack read at an address. -/
def State.meldAt (s : State) (a : Nat) : MeldEntry :=
  let mask (off : Nat) : Mask := BitVec.ofNat 96 (s.num a off 12)
  match s.num a 0 1 with
  | 0 => .meld (mask 8) (mask 20) (s.num a 1 1) (s.num a 2 1 == 1)
  | 1 => .loop (mask 8) (if s.num a 2 1 = 1 then some (mask 20) else none) (s.dw a 32) (tableOf 96 (fun t => s.wd a (48 + 4 * t)) 0)
  | 2 => .suspend (s.dw a 32)
  | _ => .pair (mask 8) (mask 20) (s.dw a 40) (s.dw a 32) (s.num a 2 1 == 1)

/-- The fields of a queue entry: kind, valid mask, words; kind 0 for a place that is reserved and not yet filled. -/
def QSlot.fields (q : QSlot) (off : Nat) : List (Nat × Nat × Nat) :=
  match q.data with
  | none => []
  | some (.vec valid words) => [(off, 4, 1), (off + 4, 12, valid.toNat)] ++ words.map (fun x => (off + 16 + 4 * x.1, 4, x.2.toNat))
  | some (.uni w) => [(off, 4, 2), (off + 16, 4, w.toNat)]

/-- A queue entry read at an address; `id` is the work that fills a reserved one. -/
def State.queueAt (s : State) (a id : Nat) : QSlot :=
  match s.num a 0 4 with
  | 1 => ⟨id, some (.vec (BitVec.ofNat 96 (s.num a 4 12)) (tableOf 96 (fun t => s.wd a (16 + 4 * t)) 0))⟩
  | 2 => ⟨id, some (.uni (s.wd a 16))⟩
  | _ => ⟨id, none⟩

/-- The offset of queue n's entries in a course record, entry i. -/
def queueOff (n i : Nat) : Nat := 4608 + 400 * (16 * n + i)

/-- The fields of a course record (R165): an address-stream PC is kept for a unified course too, and of both stacks the bottom entry
stands first (log entry 90, DEDUCED). -/
def Course.fields (c : Course) (planeIdx cycle : Nat) (dists : Nat × Nat) : List (Nat × Nat × Nat) :=
  [(0, 8, c.ident.toNat), (8, 4, c.cid.toNat), (12, 4, c.nid.toNat), (16, 8, (if c.unified then c.pcC else c.pcA).toNat),
   (24, 8, c.pcC.toNat), (32, 4, c.stateWord cycle dists), (36, 4, planeIdx), (40, 8, c.sync.rc.toNat), (48, 12, c.live.toNat),
   (748, 4, c.gang.toNat), (752, 8, c.sync.filter.toNat), (640, 12, 2 ^ 96 - 1)] ++
  c.s.map (fun e => (64 + 4 * e.1, 4, e.2.toNat)) ++ c.w.map (fun e => (320 + 4 * e.1, 4, e.2.toNat)) ++
  c.b.map (fun e => (448 + 24 * e.1, 24, e.2.bits)) ++ c.p.map (fun e => (640 + 12 * e.1, 12, e.2.toNat)) ++
  c.flags.map (fun e => (736 + e.1, 1, e.2)) ++
  c.sync.table.zipIdx.flatMap (fun e => [(768 + 16 * e.2, 8, e.1.1.toNat), (776 + 16 * e.2, 8, e.1.2.toNat)]) ++
  (List.range 10).flatMap (fun k => [(1280 + 16 * k, 8, (c.epochField k).1.toNat), (1288 + 16 * k, 8, (c.epochField k).2.toNat)]) ++
  c.recon.reverse.zipIdx.flatMap (fun e => e.1.fields (1536 + 32 * e.2)) ++
  c.meld.reverse.zipIdx.flatMap (fun e => e.1.fields (2048 + 432 * e.2)) ++
  c.qs.map (fun e => (3776 + e.1, 1, e.2)) ++
  (List.range 6).flatMap (fun n => (4544 + n, 1, (c.queue n).length) ::
    (c.queue n).zipIdx.flatMap (fun e => e.1.fields (queueOff n e.2))) ++
  c.v.map (fun e => (43008 + 4 * e.1, 4, e.2.toNat)) ++
  c.qe.map (fun e => (43008 + 384 * c.vcnt + 4 * e.1, 4, e.2.toNat))

/-- A course record is written at an address. -/
def State.writeCourse (s : State) (a : Nat) (c : Course) (planeIdx : Nat) (dists : Nat × Nat) : State :=
  s.writeArea a c.recordBytes (c.fields planeIdx (s.cycleOf c.die) dists)

/-- The codes that a course's trap record may hold (R352, R355). -/
def courseCodes : List Nat :=
  (List.range 14).drop 1 ++ [0x25, 0x26, 0x40, 0x42, 0x43] ++ (List.range 17).map (0x60 + ·) ++ [0x82, 0x83]

/-- The detail that a trap of a code may have (R356), from an open value: of a race a sector's address. -/
def openDetail (code : Nat) (x : DWord) : DWord :=
  if code = 0x0B then x &&& ~~~31#64 else if code ≤ 0x0D then x else if code = 0x67 then BitVec.ofNat 64 (x.toNat % 6) else if 0x6E ≤ code ∧ code ≤ 0x70 then x &&& 0xFFFF#64 else 0

/-- The trap of a resumed course that the device does not know as trapped (R165): the record gives the stream, its program counter, masks and
stacks; code, word, detail and fault mask are open, within what R352 and R356 allow, and its trap record is written again (log entry 18,
DESIGN CHOICE). The program counter of `TRAP` and `SVC` is that of the next instruction already (R303). -/
def openTrap (a : Nat) (c : Course) (st : Stream) (now : DWord) : TrapInfo :=
  let x := Config.heldTrap a
  let code := courseCodes.getD ((x.extractLsb' 0 8).toNat % courseCodes.length) 0x60
  let bits := if c.w6 ∨ st = .addr then 64 else 128
  let race := code == 0x0B
  c.trapInfo st (BitVec.ofNat 128 ((x.extractLsb' 8 128).toNat % 2 ^ bits)) now
    { code := BitVec.ofNat 8 code, detail := openDetail code (x.extractLsb' 136 64), fmask := x.extractLsb' 200 96,
      other := if race then x.extractLsb' 296 64 else 0, otherRc := if race then x.extractLsb' 360 64 else 0,
      rc := if race then c.sync.rc else 0 }

/-- The hold of a course that resumes (R167, R227): `SLEEPT` and `WFE` are complete; the latch holds it as the record says. -/
def Hold.resumed (h : Hold) (latched : Bool) : Hold :=
  match h with
  | .sleep _ => .none
  | .wfe => .none
  | .latch m => if latched then .latch m else .none
  | x => x

/-- The translation registers of a course that comes back: every one in global mode is stale (R157). -/
def staleRegs (f : Nat → BReg) : Sparse BReg :=
  tableOf 8 (fun n => let r := f n; if r.mode then r else { r with stale := true }) BReg.zero

/-- The barrier epochs of a course read from its record: that of a scope the course is held at stands there as the one it departs at. -/
def State.epochsAt (s : State) (a : Nat) (old : Course) : List (Nat × DWord × DWord) :=
  ((List.range 10).foldl (fun (c : Course) (k : Nat) =>
    let inst := s.dw a (1280 + 16 * k)
    let n := s.dw a (1288 + 16 * k)
    match c.hold with
    | .bar sc _ _ _ _ _ => if sc = k then c else if inst = 0 ∧ n = 0 then c else c.pass k inst n
    | _ => if inst = 0 ∧ n = 0 then c else c.pass k inst n) old).epochs

/-- A course as it is read back from its record for a die (R42, R157, R165, R167, R227): what the record holds comes from it, what it does
not hold from the course that was streamed out (log entry 18, DESIGN CHOICE). Every register in global mode is stale (R157). -/
def State.readCourse (s : State) (die a : Nat) (h : ImgHdr) (old : Course) : Course :=
  let st := s.num a 32 4
  let now := s.cycleOf die
  let tst := if ebit st 6 then Stream.comp else .addr
  let c : Course := { old with
    ident := s.dw a 0, cid := s.wd a 8, nid := s.wd a 12, pcA := s.dw a 16, pcC := s.dw a 24, lid := h.lid, asid := h.asid,
    nthr := h.nthr, vcnt := h.vcnt, qcnt := h.qcnt, gcnt := if h.graph then 0xFFFFFFFF#32 else BitVec.ofNat 32 h.gcnt,
    unified := h.unified, w6 := h.w6, endA := ebit st 0, endC := ebit st 1,
    hold := old.hold.resumed (ebit st 3), holdC := if ebit st 4 then now + 2 else 0,
    halted := ebit st 5, lastA := none, lastC := none, restA := now + st / 2 ^ 12 % 16, restC := now + st / 2 ^ 16 % 16, ageA := 0, ageC := 0, live := BitVec.ofNat 96 (s.num a 48 12),
    s := tableOf 64 (fun n => s.wd a (64 + 4 * n)) 0, w := tableOf 32 (fun n => s.wd a (320 + 4 * n)) 0,
    b := staleRegs (fun n => BReg.ofBits (s.num a (448 + 24 * n) 24)),
    p := (tableOf 8 (fun n => (BitVec.ofNat 96 (s.num a (640 + 12 * n) 12) : Mask)) 0).filter (fun e => e.1 != 0),
    flags := tableOf 12 (fun n => s.num a (736 + n) 1 % 64) 0, gang := s.wd a 748 &&& 0xFFFF#32,
    sync := ⟨s.dw a 40, ((List.range 32).map (fun i => (s.dw a (768 + 16 * i), s.dw a (776 + 16 * i)))).filter (fun e => e.1 != 0),
      s.dw a 752⟩,
    epochs := s.epochsAt a old,
    recon := ((List.range (st / 2 ^ 24 % 32)).map (fun i =>
      let o := 1536 + 32 * i
      let pc := s.num a (o + 24) 8
      (⟨BitVec.ofNat 96 (s.num a o 12), BitVec.ofNat 96 (s.num a (o + 12) 12), BitVec.ofNat 64 (pc % 2 ^ 56), pc / 2 ^ 56 % 8⟩ : RecEntry))).reverse,
    meld := ((List.range (st / 2 ^ 21 % 8)).map (fun i => s.meldAt (a + 2048 + 432 * i))).reverse,
    qs := tableOf 768 (fun k => s.num a (3776 + k) 1 % 64) 0,
    queues := tableOf 6 (fun n => (List.range (s.num a (4544 + n) 1)).map (fun i =>
      s.queueAt (a + queueOff n i) (((old.queue n)[i]?).map (fun q => q.id) |>.getD 0))) [],
    fslots := tableOf 32 (fun k => h.fslots.getD k 0) 0,
    v := tableOf (96 * h.vcnt) (fun k => s.wd a (43008 + 4 * k)) 0,
    qe := tableOf (3456 * h.qcnt) (fun k =>
      if inShape (s.num a (3776 + k / 36) 1 % 64) (k % 36) then s.wd a (43008 + 384 * h.vcnt + 4 * k) else 0) 0,
    latch := none, event := false, atoms := 0, resident := true, savedAt := none }
  { c with trap := if !ebit st 2 then none else some (match old.trap with
      | some t => { t with stream := tst }
      | none => openTrap a c tst (s.count die)) }

/-- The state word of a streamed-out course's record, with its halt bit set or cleared by a debug session (R338, R341, R342). -/
def State.haltRecord (s : State) (c : Course) (on : Bool) : State :=
  match c.savedAt with
  | some a =>
    let x := s.num a 32 4
    s.storeNat (a + 32) 4 (if on == ebit x 5 then x else if on then x + 32 else x - 32)
  | none => s

/-- The record of the focused course, if it is streamed out, as the settlement of its trap leaves it: its program counters, and which streams
have ended, whether it is trapped, and held at the latch (R165, R357; log entry 108, DEDUCED). -/
def State.resaved (s : State) : State :=
  match s.cur.savedAt with
  | none => s
  | some a =>
    let c := s.cur
    let x := s.num a 32 4
    let keeps (n : Nat) : Nat := if ebit x n then 2 ^ n else 0
    let low := c.stateWord 0 (0, 0) % 16 + keeps 4 + (if c.halted then 32 else 0) + keeps 6
    ((s.storeNat (a + 16) 8 c.pcA.toNat).storeNat (a + 24) 8 c.pcC.toNat).storeNat (a + 32) 4 (x / 128 * 128 + low)

/-! Plane records (R164). -/

/-- The body bits and group count of a gang's first arrival, as R269 lays them out. -/
def gangBody (f : Option (Instr × Nat)) : Nat × Nat :=
  let body (a c w kt fa fb : Nat) : Nat := a * 2 ^ 32 + c * 2 ^ 28 + w * 2 ^ 22 + kt * 2 ^ 14 + fa * 2 ^ 11 + fb * 2 ^ 8 + 2 ^ 7
  match f with
  | some (.mma _ a c wb kt fa fb _, _) => (body a.toNat c.toNat wb.toNat kt.toNat fa.toNat fb.toNat, 0)
  | some (.mmag _ a c ra kt fa fb _, n) => (body a.toNat c.toNat ra.toNat kt.toNat fa.toNat fb.toNat, n)
  | _ => (0, 0)

/-- The first arrival of a gang from its body bits and group count: a count of 0 names `MMA` (R269). -/
def gangFirst (body count : Nat) : Option (Instr × Nat) :=
  let k : Ctl := ⟨0, 0, 15⟩
  let a := BitVec.ofNat 4 (body / 2 ^ 32)
  let c := BitVec.ofNat 4 (body / 2 ^ 28)
  let w := BitVec.ofNat 6 (body / 2 ^ 22)
  let kt := BitVec.ofNat 8 (body / 2 ^ 14)
  let fa := BitVec.ofNat 3 (body / 2 ^ 11)
  let fb := BitVec.ofNat 3 (body / 2 ^ 8)
  if body = 0 then none
  else if count = 0 then some (.mma k a c w kt fa fb 1, 1)
  else some (.mmag k a c w kt fa fb 1, count)

/-- The fields of the plane record's small areas. An unfired operation's 32 bytes have no stated layout (log entry 18, DESIGN CHOICE): they
are open values. Nor has R269's layout of the latch area room for the gang barriers that R225 keeps there: their participants, counts and epochs
stand in no byte of the record, and come back from the shelf (log entry 18, DESIGN CHOICE). -/
def State.planeFields (s : State) (wall : Nat) (p : Plane) (courses : Nat) : List (Nat × Nat × Nat) :=
  [(0, 4, magicPlane), (4, 2, courses), (6, 2, wall), (8, 8, (~~~p.off).toNat)] ++
  p.chutes.flatMap (fun e => e.2.fields (64 + 32 * e.1)) ++
  p.bars.flatMap (fun e => [(576 + 16 * e.1, 2, e.2.n), (578 + 16 * e.1, 2, e.2.count), (580 + 16 * e.1, 4, e.2.lid.toNat),
    (584 + 16 * e.1, 8, e.2.epoch.toNat)]) ++
  p.gangs.zipIdx.flatMap (fun e =>
    let o := 832 + 16 * e.2
    let f := gangBody e.1.first
    [(o, 4, e.1.lid.toNat), (o + 4, 1, e.1.gid), (o + 5, 1, e.1.size), (o + 6, 1, e.1.ranks), (o + 7, 1, e.1.arrived),
     (o + 8, 5, f.1), (o + 13, 1, f.2)]) ++
  [(1088, 128, (p.rptr.map (fun e => e.2 * 4 ^ e.1)).sum)] ++
  (List.range (32 * p.engine.length)).map (fun i => (1216 + i, 1, (Config.freeByte (s.free + i)).toNat)) ++
  p.tags.map (fun e => (4096 + 8 * e.1, 8, e.2.toNat)) ++ p.weight.map (fun e => (1069056 + e.1, 1, e.2.toNat))

/-- A plane record is written at an address: a gated bank as zeros. What the record does not show is shelved. -/
def State.writePlane (s : State) (a wall plane courses : Nat) : State :=
  let p := s.plane wall plane
  let s := s.writeArea a 1593344 (s.planeFields wall p courses)
  let s := { s with free := s.free + 32 * p.engine.length, shelf := Sparse.put s.shelf a p }
  s.moveBytes (s.scratch wall plane 0) 0x100000 (a + 20480)

/-- The plane that a record at an address gives; `old` is what was shelved with it. -/
def State.readPlane (s : State) (a : Nat) (old : Plane) : Plane :=
  { old with
    off := ~~~(s.dw a 8), waking := 0,
    chutes := tableOf 16 (fun n => s.chuteAt (a + 64 + 32 * n)) Chute.none,
    bars := tableOf 16 (fun k =>
      let o := 576 + 16 * k
      let b := Sparse.get old.bars k Barrier.zero
      { b with n := s.num a o 2, count := s.num a (o + 2) 2, lid := s.wd a (o + 4), epoch := s.dw a (o + 8) }) Barrier.zero,
    gangs := (List.range 16).filterMap (fun i =>
      let o := 832 + 16 * i
      if s.num a (o + 6) 1 = 0 then none
      else some { lid := s.wd a o, gid := s.num a (o + 4) 1, size := s.num a (o + 5) 1, ranks := s.num a (o + 6) 1,
                  arrived := s.num a (o + 7) 1, first := gangFirst (s.num a (o + 8) 5) (s.num a (o + 13) 1) }),
    rptr := tableOf 512 (fun k => s.num a 1088 128 / 4 ^ k % 4) 0,
    tags := tableOf 2048 (fun k => s.dw a (4096 + 8 * k)) 0,
    weight := tableOf 524288 (fun k => s.byte (a + 1069056 + k)) 0 }

end Sys2Proof.Machine
end

