-- ==== Sys2Proof/Machine/Special.lean ====
section
/-! DEFINITION. Special registers: those of a course (R29, R76), of a system core and of the device (R300, R301, R347, R355,
R364, R383, R386, R390, R392), and `SRD` and `SWR` (R228). -/

namespace Sys2Proof.Machine

/-! The registers of R29. -/

/-- The level field of a meld entry (R76). -/
def MeldEntry.level (e : MeldEntry) : Nat :=
  16 * e.kind + match e with
    | .meld _ _ p encl => 2 * p + (if encl then 1 else 0)
    | .pair _ _ _ _ runB => if runB then 1 else 0
    | _ => 0

/-- The meld state register (R76): level 1 is the bottom of the stack, which is kept top first. -/
def Course.meldState (c : Course) : Word :=
  BitVec.ofNat 32 ((c.meld.reverse.zipIdx.map (fun e => e.1.level * 2 ^ (8 + 6 * e.2))).sum + c.meld.length)

/-- Word j of a format slot as it reads: its zero fields read zero whatever the image holds there (R5, R88). -/
def slotWord (j : Nat) (x : Word) : Word := if j = 0 then x &&& 0x3FFF#32 else if j = 1 then x else 0

/-- A register of R29; every index of it that is not listed reads zero. Log entry 35, DEDUCED. -/
def State.readLow (s : State) (c : Course) (i : Nat) : Word :=
  let n := i % 256 / 16
  let j := i % 16
  match i with
  | 0x001 => c.cid
  | 0x002 => BitVec.ofNat 32 c.wall
  | 0x003 => BitVec.ofNat 32 (bayOf c.wall)
  | 0x004 => BitVec.ofNat 32 (yardOf c.wall)
  | 0x005 => BitVec.ofNat 32 s.did
  | 0x006 => c.nid
  | 0x007 => c.lid
  | 0x008 => BitVec.ofNat 32 c.nthr
  | 0x009 => c.gcnt
  | 0x010 => lo32 (s.count c.die)
  | 0x011 => c.latch.getD (hi32 (s.count c.die))
  | 0x020 => c.gang
  | 0x030 => c.meldState
  | _ =>
    if 0x40 ≤ i ∧ i ≤ 0x4B then BitVec.ofNat 32 (c.flag (i - 0x40))
    else if 0x100 ≤ i ∧ i ≤ 0x17F ∧ j < 4 then slotWord j (Sparse.get c.fslots (4 * n + j) 0)
    else if 0x200 ≤ i ∧ i ≤ 0x2BF ∧ j < 4 then Sparse.get c.recs (4 * n + j) 0
    else 0

/-- The latch of 0x010 after a read of a register (R29). -/
def Course.latched (c : Course) (i : Nat) (hi : Word) : Course :=
  if i = 0x010 then { c with latch := some hi } else if i = 0x011 then { c with latch := none } else c

/-! The registers from 0x800 upward. -/

/-- Register j of a trap set (R300). -/
def TrapSet.reg (t : TrapSet) (j : Nat) : Word :=
  match j with
  | 0 => lo32 t.vbase
  | 1 => hi32 t.vbase
  | 2 => lo32 t.epc
  | 3 => hi32 t.epc
  | 4 => t.ecause
  | 5 => t.einfo
  | 6 => t.esave
  | _ => 0

/-- A trap set with register j written: `VBASE` keeps its alignment, and bits marked zero stay zero (R300, R301). Log entry 34, DEDUCED. -/
def TrapSet.setReg (t : TrapSet) (j : Nat) (x : Word) : TrapSet :=
  match j with
  | 0 => { t with vbase := pair64 (x &&& ~~~63#32) (hi32 t.vbase) }
  | 1 => { t with vbase := pair64 (lo32 t.vbase) x }
  | 2 => { t with epc := pair64 x (hi32 t.epc) }
  | 3 => { t with epc := pair64 (lo32 t.epc) x }
  | 4 => { t with ecause := x }
  | 5 => { t with einfo := x }
  | 6 => { t with esave := x &&& 7 }
  | _ => t

/-- The queue resets that are not done (R390). -/
def State.resetsLeft (s : State) : Nat :=
  (s.agenda.filter (fun i => match i with | .lqrstWrite _ => true | _ => false)).length

/-- A register from 0x800 upward, as a core reads it. -/
def State.readHigh (s : State) (y : SysRegs) (i : Nat) : Word :=
  if i = 0x800 then statusWord y.lvl y.ie
  else if i = 0x801 then y.asidr
  else if i = 0x802 then BitVec.ofNat 32 y.core
  else if 0x810 ≤ i ∧ i ≤ 0x817 then y.sup.reg (i - 0x810)
  else if 0x818 ≤ i ∧ i ≤ 0x81F then y.hyp.reg (i - 0x818)
  else if i = 0x842 ∨ i = 0x853 ∨ i = 0x884 then 0
  else if i = 0x843 then BitVec.ofNat 32 s.resetsLeft
  else if i = 0x860 then lo32 y.evpend
  else if i = 0x861 then hi32 y.evpend
  else if i = 0x862 then lo32 y.even
  else if i = 0x863 then hi32 y.even
  else if i = 0x8B1 ∨ i = 0x8B2 then
    BitVec.ofNat 32 (Sparse.get s.monitor.life (s.dreg 0x8B0).toNat 0 / 2 ^ (32 * (i - 0x8B1)))
  else if (srAccess i).isSome then s.dreg i
  else 0

/-- The state with the registers of system core n changed. -/
def State.modCore (s : State) (n : Nat) (f : SysRegs → SysRegs) : State :=
  s.modAll (fun c => match c.sys with
    | some y => if y.core = n then Course.wakeHalt { c with sys := some (f y) } else c
    | none => c)

/-- The action that a `TRACK` write asks for (R357). -/
def trackEvent (x : Word) : Option Instr :=
  let idx := x.toNat / 2 ^ 17
  let desc := x.toNat / 2 ^ 10 % 2 ^ 7
  match x.toNat % 4 with
  | 1 => some (.trackRetry desc idx)
  | 2 => some (.trackSkip desc idx)
  | 3 => some (.trackTerminate desc idx)
  | _ => none

/-- An event is put at the end of the agenda (log entry 1, DESIGN CHOICE). -/
def State.later (s : State) (es : List Instr) : State := { s with agenda := s.agenda ++ es }

/-- A register from 0x800 upward of core n is written: a doorbell makes the device act next (R313, R314, R348, R357,
R390, R392); the zero bits of an event word stay zero (R5). Log entry 64, DEDUCED. -/
def State.writeHigh (s : State) (n i : Nat) (x : Word) : State :=
  if i = 0x800 then s.modCore n (fun y => { y with ie := x.getLsbD 2 })
  else if i = 0x801 then s.modCore n (fun y => { y with asidr := x })
  else if 0x810 ≤ i ∧ i ≤ 0x817 then s.modCore n (fun y => { y with sup := y.sup.setReg (i - 0x810) x })
  else if 0x818 ≤ i ∧ i ≤ 0x81F then s.modCore n (fun y => { y with hyp := y.hyp.setReg (i - 0x818) x })
  else if i = 0x842 then s.later [.lqbellWrite x]
  else if i = 0x843 then s.later [.lqrstWrite x]
  else if i = 0x853 then s.later [.pgansWrite x]
  else if i = 0x860 then s.modCore n (fun y => { y with evpend := y.evpend &&& ~~~(pair64 x 0) })
  else if i = 0x861 then s.modCore n (fun y => { y with evpend := y.evpend &&& ~~~(pair64 0 x) })
  else if i = 0x862 then s.modCore n (fun y => { y with even := pair64 x (hi32 y.even) })
  else if i = 0x863 then s.modCore n (fun y => { y with even := pair64 (lo32 y.even) x })
  else if i = 0x872 ∨ i = 0x873 then s.later [.swpbaseWrite (i == 0x873) x]
  else if i = 0x87E ∨ i = 0x895 ∨ i = 0x8A5 then s.setDreg i 0
  else if i = 0x884 then s.later (trackEvent x).toList
  else if i = 0x896 ∨ i = 0x8A6 then s.setDreg i (x &&& 0x3FF#32)
  else if i = 0x8B0 then s.later [.lifeselWrite x]
  else s.setDreg i x

/-- A `TRACK` write that R357 forbids at a level: zero bits set, a descriptor that does not exist, or one that is not
the caller's. -/
def State.trackBad (s : State) (y : SysRegs) (x : Word) : Bool :=
  let desc := x.toNat / 2 ^ 10 % 2 ^ 7
  x.toNat / 4 % 2 ^ 8 != 0 || 64 < desc || (y.lvl != 2 && desc != s.partOf (y.asidr.toNat % 2048))

/-! Access from an instruction. -/

/-- Whether the focused agent may not read a register (R29, R300). -/
def Course.readBad (c : Course) (i : Nat) : Bool :=
  0x800 ≤ i && (match srAccess i with | some (r, _) => decide (c.level < r) | none => false)

/-- Whether the focused agent may not write a register with a value (R29, R300, R357). -/
def State.writeBad (s : State) (i : Nat) (x : Word) : Bool :=
  if i < 0x800 then !lowWritable i
  else match s.cur.sys, srAccess i with
    | some y, some (_, some w) => decide (y.lvl.toNat < w) || (i == 0x884 && s.trackBad y x)
    | _, _ => true

/-- What the focused agent reads from a register (R29, R300). -/
def State.readSpecial (s : State) (i : Nat) : Word :=
  if i < 0x800 then s.readLow s.cur i
  else match s.cur.sys with
    | some y => s.readHigh y i
    | none => 0

/-- SRD (R228). -/
def execSrd (k : Ctl) (rd : BitVec 6) (idx : BitVec 12) (s : State) : Out :=
  .next (s.issue true k {} (firstCode [(s.cur.readBad idx.toNat, 0x64)]) (fun s =>
    let x := s.readSpecial idx.toNat
    regs 1 [.s rd.toNat x] (s.modC (fun c => c.latched idx.toNat (hi32 s.now)))))

/-- SWR (R228): the register is written at latency 1. -/
def execSwr (k : Ctl) (ra : BitVec 6) (idx : BitVec 12) (s : State) : Out :=
  .next (s.issue true k {} (firstCode [(s.writeBad idx.toNat (s.cur.S ra.toNat), 0x64)]) (fun s =>
    let i := idx.toNat
    let x := s.cur.S ra.toNat
    if i < 0x800 then regs 1 [.record (4 * (i % 256 / 16) + i % 16) x] s
    else .done s { lat := some 1, act := .swr i x }))

end Sys2Proof.Machine
end

