-- ==== Sys2Proof/Machine/Firmware.lean ====
section
/-! DEFINITION. Firmware images (R331, R332), the active-slot marker (R334), measurement (R336), and the life-long counters'
store (R392). -/

namespace Sys2Proof.Machine

/-! Images. -/

/-- The number of `n` bytes of an image at an offset. -/
def imgNum (b : Image) (off n : Nat) : Nat := ofBytesLE ((b.drop off).take n)

/-- The kind of an image (R331). -/
def imgKind (b : Image) : Nat := imgNum b 6 2
/-- The `SVN` of an image (R331). -/
def imgSvn (b : Image) : Nat := imgNum b 8 4
/-- The payload of an image (R331). -/
def imgPayload (b : Image) : List Byte := (b.drop 7488).take (imgNum b 16 8)
/-- The payload digest of an image (R331). -/
def imgDigest (b : Image) : List Byte := (b.drop 32).take 64

/-- The form of R331: magic, version, kind, `SVN` range, zero fields, and a whole payload. -/
def imgForm (b : Image) : Bool :=
  imgNum b 0 4 == 0x57463943 && imgNum b 4 2 == 1 && 1 ≤ imgKind b && imgKind b ≤ 5 && imgSvn b ≤ 127 &&
  imgNum b 12 4 == 0 && imgNum b 96 160 == 0 && imgNum b 7475 13 == 0 && 7488 + imgNum b 16 8 ≤ b.length

/-- Whether a patch set fits no patch RAM (R333): two valid entries share an address, an address is none of the control store, or there are
more than 256 entries. -/
def patchClash (b : Image) : Bool :=
  let es := Config.patchSet (imgPayload b)
  imgKind b == 2 && (!(es.map Prod.fst).Nodup || es.any (fun e => 4096 ≤ e.1) || 256 < es.length)

/-- The word that a die's sequencer fetches at an address of its control store (R333): the patch entry's of that address, or the mask
ROM's. What the sequencer does is modelled from the manual and not from its words. -/
def Die.microword (d : Die) (a : Nat) : BitVec 128 := ((d.patch.find? (fun e => e.1 == a)).map Prod.snd).getD (Config.rom a)

/-- The verdict on an image (R332, R337): 0 accepted, 0xA2 for its signature, digest, key or form, 0xA3 for its `SVN`. -/
def Monitor.verdict (m : Monitor) (b : Image) : Code :=
  let key := (b.drop 256).take 2592
  let sig := (b.drop 2848).take 4627
  if !imgForm b || patchClash b || !Config.mldsaVerify key (Config.sha3 (b.take 2848)) sig ||
      Config.sha3 (imgPayload b) != imgDigest b || !m.keys.any (fun k => k.1 == Config.sha3 key && !k.2) then 0xA2
  else if imgSvn b < Sparse.get m.svn (imgKind b) 0 then 0xA3
  else 0

/-- A measurement register, 64 zero bytes at reset (R336). -/
def Monitor.reg (m : Monitor) (n : Nat) : List Byte := Sparse.get m.meas n (List.replicate 64 0)

/-- A measurement register is extended (R336). -/
def Monitor.extend (m : Monitor) (n : Nat) (digest : List Byte) : Monitor :=
  { m with meas := Sparse.put m.meas n (Config.sha3 (m.reg n ++ digest)) }

/-- An accepted image extends the register of its kind (R336). -/
def Monitor.measure (m : Monitor) (b : Image) : Monitor := m.extend (imgKind b - 1) (imgDigest b)

/-! Markers (R334). -/

/-- The 64 bytes of a marker copy. -/
def markerBytes (k : Marker) : List Byte :=
  let body := bytesLE 8 k.seq ++ bytesLE 1 (if k.slotB then 1 else 0) ++ bytesLE 1 (if k.trial then 2 else 1) ++ bytesLE 1 k.tries ++
    bytesLE 45 0
  body ++ (Config.sha3 body).take 8

/-- The marker in force: the valid copy with the higher sequence number (R335). -/
def Monitor.marker (m : Monitor) : Option Marker :=
  match m.mark0, m.mark1 with
  | some a, some b => if a.seq < b.seq then some b else some a
  | some a, none => some a
  | none, o => o

/-- Whether the next marker goes into copy 0: the one with the lower sequence number or no valid record (R334). -/
def Monitor.intoFirst (m : Monitor) : Bool :=
  match m.mark0, m.mark1 with
  | some a, some b => a.seq < b.seq
  | some _, none => false
  | none, _ => true

/-- A new marker is written, with a sequence number one above the higher valid one (R334). Log entry 38, DEDUCED. -/
def Monitor.writeMarker (m : Monitor) (slotB trial : Bool) (tries : Nat) : Monitor :=
  let k : Marker := { seq := ((m.marker).map (fun k => k.seq)).getD 0 + 1, slotB := slotB, trial := trial, tries := tries }
  if m.intoFirst then { m with mark0 := some k } else { m with mark1 := some k }

/-- A life-long counter. -/
def Monitor.lifeAdd (m : Monitor) (sel n : Nat) : Monitor :=
  { m with lifeNow := Sparse.set m.lifeNow sel (Sparse.get m.lifeNow sel 0 + n) 0 }

end Sys2Proof.Machine
end

