-- ==== Sys2Proof/Machine/System.lean ====
section
/-! DEFINITION. System instructions: entries and returns (R302, R303, R305), translation and cache maintenance (R306, R307,
R310), gates and granules (R308, R309), context requests (R311) and monitor services (R304, R337). -/

namespace Sys2Proof.Machine

/-! Entries and returns. -/

/-- A `TRAP`, `SVC` or `HVC` of a system core: the entry takes place, the saved pc being that of the next instruction
(R302). -/
def State.enterBy (s : State) (l : BitVec 2) (cls : Nat) (imm : BitVec 16) : Res :=
  let s := s.modC (fun c => c.enter l cls 0 imm.toNat (c.nextPc (c.streamOf true)) none)
  .done s { lat := some 1, target := some s.cur.pcA }

/-- `TRAP` and `SVC`: a course trap in a course (R303); on a system core an entry at level 1 (R302), from every level, as R298 allows them
from level 0 up (log entry 15, DEDUCED). -/
def execCallUp (cls : Nat) (code : Code) (k : Ctl) (imm : BitVec 16) (s : State) : Out :=
  execA k (fun s =>
    if s.cur.sys.isSome then s.enterBy 1 cls imm
    else .trap s { code := code, detail := imm.setWidth 64, after := true }) s

/-- TRAP (R302, R303). -/
def execTrap (k : Ctl) (imm : BitVec 16) (s : State) : Out := execCallUp 1 0x6F k imm s
/-- SVC (R302, R303). -/
def execSvc (k : Ctl) (imm : BitVec 16) (s : State) : Out := execCallUp 2 0x70 k imm s
/-- HVC (R302). -/
def execHvc (k : Ctl) (imm : BitVec 16) (s : State) : Out := execPriv k 1 (fun s => s.enterBy 2 3 imm) s

/-- BKPT (R302, R303, R343): an open session of the agent's ASID claims it. A claimed one issues in no step: the agent stands at it, halted
already, and the step comes to be blocked (R344; log entry 106, DEDUCED). -/
def execBkpt (k : Ctl) (imm : BitVec 16) (s : State) : Out :=
  let claimed := (s.sessionOf s.cur.space).isSome
  execA k (fun s =>
    if claimed then .wait (if s.isStepped s.cur.ident (s.cur.streamOf true) then s else s.haltHere (s.cur.streamOf true))
    else if s.cur.sys.isSome then
      let s := s.modC (fun c => c.enter 1 5 0 imm.toNat c.pcA none)
      .done s { lat := some 1, target := some s.cur.pcA }
    else .trap s { code := 0x6E, detail := imm.setWidth 64 }) s

/-- Whether an `ERET` is illegal at the levels it would leave and enter (R302). -/
def SysRegs.eretBad (y : SysRegs) : Bool :=
  let p := (y.trapSet y.lvl).esave.extractLsb' 0 2
  y.lvl.toNat ≤ p.toNat || p == 3

/-- ERET (R302); a return address that is no word address traps at it (R181). Log entry 62, DEDUCED. -/
def execEret (k : Ctl) (s : State) : Out :=
  .next (s.issue true k {} (firstCode [(s.cur.sys.isNone || s.cur.level < 1, 0x64),
      ((s.cur.sys.map SysRegs.eretBad).getD true, 0x64)]) (fun s =>
    let t := s.modC Course.eret
    if t.cur.pcA.toNat % 8 ≠ 0 then .trap s { code := 0x66 }
    else .done t { lat := some 1, target := some t.cur.pcA }))

/-- HALT (R305): the core is held until a pending event is enabled. -/
def execHalt (k : Ctl) (s : State) : Out :=
  execPriv k 1 (fun s => regs 1 [] (s.modC (fun c => Course.wakeHalt { c with hold := .halt }))) s

/-- EVENT_ENTRY (R302, R305): an enabled pending event enters at level 1 at an instruction boundary of a core that is not
held (log entry 16, DEDUCED). -/
def execEventEntry (core : Nat) (s : State) : Out :=
  .next (match s.focusCore core with
    | none => s
    | some f =>
      match f.cur.sys with
      | some y =>
        if y.ie && y.lvl.toNat ≤ 1 && y.evpend &&& y.even != 0 && f.cur.awake && !f.cur.halted then
          f.modC (fun c => c.enter 1 7 0 0 c.pcA none)
        else s
      | none => s)

/-! TLB invalidation. -/

/-- The partition of the focused core's ASID (R312). -/
def State.myPart (s : State) : Nat := s.partOf s.cur.space

/-- Whether a level-1 caller names an ASID outside its partition (R306, R311). -/
def State.foreign (s : State) (asid : Nat) : Bool :=
  s.cur.level == 1 && !(s.asidBound asid && s.partOf asid == s.myPart)

/-- A `TLBINV` that waits for its yards (R158, R306). -/
def State.invalidate (s : State) (asid : Option Nat) (range : Option (Nat × Nat)) : Res :=
  .done s { lat := none, act := .tlbinv asid range }

/-- TLBINV.range (R306). -/
def execTlbinvRange (k : Ctl) (ra : BitVec 6) (bp : BitVec 5) (rb : BitVec 6) (s : State) : Out :=
  execPriv k 1 (fun s =>
    let asid := (s.cur.S ra.toNat).toNat
    let base := (s.cur.S64 (2 * bp.toNat)).toNat
    let n := (s.cur.S rb.toNat).toNat
    if 2 ^ 11 ≤ asid ∨ base % 2 ^ 14 ≠ 0 ∨ n = 0 ∨ s.foreign asid then .trap s { code := 0x65 }
    else s.invalidate (some asid) (some (base, n * 2 ^ 14))) s

/-- TLBINV.asid (R306). -/
def execTlbinvAsid (k : Ctl) (ra : BitVec 6) (s : State) : Out :=
  execPriv k 1 (fun s =>
    let asid := (s.cur.S ra.toNat).toNat
    if 2 ^ 11 ≤ asid ∨ s.foreign asid then .trap s { code := 0x65 } else s.invalidate (some asid) none) s

/-- TLBINV.all (R306). -/
def execTlbinvAll (k : Ctl) (s : State) : Out := execPriv k 2 (fun s => s.invalidate none none) s

/-- Whether two ranges meet. -/
def meets (a n b m : Nat) : Bool := a < b + m && b < a + n

/-- Whether an ASID and range fall under an invalidation. -/
def hitBy (asid : Option Nat) (range : Option (Nat × Nat)) (a lo len : Nat) : Bool :=
  (match asid with | some x => x == a | none => true) && (match range with | some r => meets r.1 r.2 lo len | none => true)

/-- The global-mode registers of a course that overlap an invalidation are stale (R158), and so is what a `BIND` on its way to its commit
will leave in one: it was translated before the marking (R159). -/
def Course.markStale (c : Course) (asid : Option Nat) (range : Option (Nat × Nat)) : Course :=
  let hit (r : BReg) : Bool := !r.mode && hitBy asid range c.space r.base.toNat r.lim.toNat && decide (0 < r.lim.toNat)
  let b := c.b.foldl (fun t e => if hit e.2 then Sparse.set t e.1 { e.2 with stale := true } BReg.zero else t) c.b
  let mark (w : RegWrite) : RegWrite := match w with | .b n r => if hit r then .b n { r with stale := true } else w | _ => w
  { c with b := b, work := c.work.map (fun k => { k with writes := k.writes.map mark }) }

/-- The walks of an invalidation see the leaves of its pages anew: the tags of a page whose `CHECKED` attribute has changed since a walk saw
it last are empty (R140; log entry 87, DEDUCED). -/
def State.recheck (s : State) (asid : Option Nat) (range : Option (Nat × Nat)) : State :=
  (s.attrs.filter (fun e => hitBy asid range e.1.1 (e.1.2.2 * 2 ^ e.1.2.1) (2 ^ e.1.2.1))).foldl (fun (s : State) (e : (Nat × Nat × Nat) × Bool) =>
    let va := e.1.2.2 * 2 ^ e.1.2.1
    match s.walk e.1.1 va with
    | .ok l => if l.res && l.size == e.1.2.1 then s.seeLeaf e.1.1 va l else s
    | _ => s) s

/-- The entries that match are dropped and the global-mode registers that overlap are stale (R158). -/
def State.dropEntries (s : State) (asid : Option Nat) (range : Option (Nat × Nat)) : State :=
  let s := s.recheck asid range
  let s := { s with tlb := s.tlb.filter (fun e => !hitBy asid range e.asid (e.page * 2 ^ e.size) (2 ^ e.size)) }
  s.modAll (fun c => c.markStale asid range)

/-- TLBINV_COMPLETE (R158, R389): every yard drops its entries and marks the registers; the flag falls once no access to a
peer that may have used one is outstanding. -/
def execTlbinvComplete (who : DWord) (id : Nat) (s : State) : Out :=
  .next (match s.focus who with
    | none => s
    | some f =>
      match f.cur.workOf id with
      | some k =>
        (match k.act with
         | .tlbinv asid range =>
           if f.agents.any (fun c => (match asid with | some a => a == c.space | none => true) &&
               c.work.any (fun o => match o.act with | .peer _ => true | .lost _ _ _ _ _ => true | _ => false)) then s
           else (f.dropEntries asid range).modC (fun c => c.finish k)
         | _ => s)
      | none => s)

/-! Cache maintenance. -/

/-- The physical pieces of a virtual range of the focused core, page by page, or the first fault (R307). -/
def State.rangePieces (s : State) (va n : Nat) : List Nat → Except (Xl × Nat) (List (Nat × Nat)) × State
  | [] => (.ok [], s)
  | i :: r =>
    let lo := max va ((va / 2 ^ 14 + i) * 2 ^ 14)
    let hi := min (va + n) ((va / 2 ^ 14 + i + 1) * 2 ^ 14)
    if hi ≤ lo then (.ok [], s)
    else match s.translate s.cur.ctx lo {} with
      | (.ok l, s) =>
        (match s.rangePieces va n r with
         | (.ok ps, s) => (.ok ((l.place lo, hi - lo) :: ps), s)
         | e => e)
      | (x, s) => (.error (x, lo), s)

/-- `CWB` and `CINV` (R307): the dirty sectors that overlap the range are written back in every slice; `CINV` also
invalidates them in every wall and bay cache. -/
def execMaintain (drop : Bool) (k : Ctl) (bp : BitVec 5) (rb : BitVec 6) (s : State) : Out :=
  execPriv k 1 (fun s =>
    let va := (s.cur.S64 (2 * bp.toNat)).toNat
    let n := (s.cur.S rb.toNat).toNat
    match s.rangePieces va n (List.range (n / 2 ^ 14 + 2)) with
    | (.error (.fail c, at_), s') => .trap s' { code := c, detail := BitVec.ofNat 64 at_ }
    | (.error (.poison pa, at_), s') =>
      .trap (s'.poisonUsed pa s'.cur.ident s'.cur.die) { code := 0x0C, detail := BitVec.ofNat 64 at_ }
    | (.error (.ok _, _), s') => .done s' { lat := none }
    | (.ok ps, s') =>
      let hit (sector : Nat) : Bool := ps.any (fun p => meets p.1 p.2 (32 * sector) 32)
      .done (if drop then s'.invalidateCaches hit else s'.writeBack hit) { lat := none }) s

/-- CINV (R307). -/
def execCinv (k : Ctl) (bp : BitVec 5) (rb : BitVec 6) (s : State) : Out := execMaintain true k bp rb s
/-- CWB (R307). -/
def execCwb (k : Ctl) (bp : BitVec 5) (rb : BitVec 6) (s : State) : Out := execMaintain false k bp rb s

/-- FENCEI (R310): the fetched words are discarded at its completion. -/
def execFencei (k : Ctl) (s : State) : Out := execA k (fun s => .done s { lat := none, act := .fencei }) s

/-! Gates and granules. -/

/-- The way-pair gates of a bay are set (R119, R120, R308): the lines of a pair that goes off are written back and given up, and a pair
that goes on wakes. -/
def State.setWays (s : State) (bay : Nat) (on : Byte) : State :=
  let old := Sparse.get s.waysOff bay 0
  let off := ~~~on
  let goes := off &&& ~~~old
  let wakes := old &&& on
  let going := s.lines.filter (fun e => e.1 / 16 / baySets == bay && goes.getLsbD (e.1 % 16 / 2))
  let s := going.foldl (fun s e => s.dropLine bay e.2.line (e.1 % 16)) s
  { s with waysOff := Sparse.set s.waysOff bay off 0,
           waysWake := Sparse.set s.waysWake bay ((Sparse.get s.waysWake bay 0 &&& on) ||| wakes) 0 }

/-- Whether a physical address lies in a bank of a set of a plane's banks. -/
def State.inBanks (s : State) (wall plane : Nat) (banks : DWord) (pa : Nat) : Bool :=
  s.isLocal pa && rgn pa == 1 && (let p := spPlace pa; p.1 == wall && p.2.1 == plane && banks.getLsbD (bankOf p.2.2))

/-- Banks of a plane hold nothing: they read as zero, with valid check bits (R119, R120). -/
def State.dropGated (s : State) (wall plane : Nat) (banks : DWord) : State :=
  if banks = 0 then s
  else { s with mem := s.mem.filter (fun c => !s.inBanks wall plane banks c.1),
                poison := s.poison.filter (fun e => !s.inBanks wall plane banks (32 * e.1)) }

/-- The bank gates of a plane are set (R119, R120, R308): a bank that goes off loses its contents, and one that goes on starts from zero. -/
def State.setBanks (s : State) (wall plane : Nat) (on : DWord) : State :=
  let p := s.plane wall plane
  let goes := ~~~on &&& ~~~p.off
  let wakes := on &&& p.off
  (s.setPlane wall plane { p with off := ~~~on, waking := (p.waking &&& on) ||| wakes }).dropGated wall plane (goes ||| wakes)

/-- WAYGT.ways (R308). -/
def execWaygtWays (k : Ctl) (ra rb : BitVec 6) (s : State) : Out :=
  execPriv k 2 (fun s =>
    let bay := (s.cur.S ra.toNat).toNat
    let m := s.cur.S rb.toNat
    if 47 < bay ∨ 2 ^ 8 ≤ m.toNat then .trap s { code := 0x65 }
    else .done (s.setWays bay (m.setWidth 8)) { lat := none }) s

/-- WAYGT.banks (R308): a mask for a plane that is Streaming waits for the stream. -/
def execWaygtBanks (k : Ctl) (ra rb : BitVec 6) (pl : BitVec 2) (s : State) : Out :=
  execPriv k 2 (fun s =>
    let wall := (s.cur.S ra.toNat).toNat
    let m := s.cur.S64 rb.toNat
    if 191 < wall ∨ pl = 3 then .trap s { code := 0x65 }
    else if (s.plane wall pl.toNat).st = .streaming then .done s { lat := none, act := .gates (3 * wall + pl.toNat) m }
    else .done (s.setBanks wall pl.toNat m) { lat := none }) s

/-- GRANSET (R309): each frame keeps its data and its poison, and its race tags are emptied. -/
def execGranset (k : Ctl) (bp : BitVec 5) (rb : BitVec 6) (gr : BitVec 2) (s : State) : Out :=
  execPriv k 1 (fun s =>
    let pa := (s.cur.S64 (2 * bp.toNat)).toNat
    let n := (s.cur.S rb.toNat).toNat
    let frames := (List.range n).map (fun i => pa + i * 2 ^ 14)
    if pa % 2 ^ 14 ≠ 0 ∨ n = 0 then .trap s { code := 0x65 }
    else match frames.find? (fun f => (s.cur.level == 1 && !s.inPartition s.myPart f (2 ^ 14)) || !s.isHbm f) with
      | some f =>
        let code : Code := if s.cur.level = 1 ∧ !s.inPartition s.myPart f (2 ^ 14) then 0x05 else 0x07
        .trap s { code := code, detail := BitVec.ofNat 64 f }
      | none =>
        let s := s.clearTags pa (n * 2 ^ 14)
        .done { s with granule := frames.foldl (fun t f => Sparse.set t (f / 2 ^ 14) gr 0) s.granule } { lat := none }) s

/-! Context requests. -/

/-- A context request is handed to the sequencer (R311): its block is read at a physical address. A request of level 1 for an
ASID outside the caller's partition is kept as its operation plus 256. The bytes R311 marks zero, 6 to 7 and 24 to 31, are not read.
Log entry 63, DEDUCED. -/
def execCtxreq (op : Option Nat) (k : Ctl) (bp : BitVec 5) (s : State) : Out :=
  execPriv k 1 (fun s =>
    let pa := (s.cur.S64 (2 * bp.toNat)).toNat
    let bad (a : Nat) : Bool := 2 ^ 52 ≤ a || s.rangeBad { asid := 0, user := false, path := [], phys := true } a
    if bad pa || bad (pa + 31) then .trap s { code := if 2 ^ 52 ≤ pa then 0x06 else 0x07, detail := BitVec.ofNat 64 pa }
    else match [pa, pa + 31].find? s.poisoned with
      | some a => .trap (s.poisonUsed a s.cur.ident s.cur.die) { code := 0x0C, detail := BitVec.ofNat 64 pa }
      | none =>
        let n (off len : Nat) : Nat := s.loadNat (pa + off) len
        let op := op.getD (n 0 1)
        .done s { lat := none, act := .ctx (if s.foreign (n 2 2) then 256 + op else op) (n 1 1) (n 2 2) (n 4 2) (BitVec.ofNat 64 (n 8 8)) (BitVec.ofNat 64 (n 16 8)) }) s

/-- CTXREQ, operation 1 (R311). -/
def execCtxreqBind (k : Ctl) (bp : BitVec 5) (s : State) : Out := execCtxreq (some 1) k bp s
/-- CTXREQ, operation 2 (R311). -/
def execCtxreqUnbind (k : Ctl) (bp : BitVec 5) (s : State) : Out := execCtxreq (some 2) k bp s
/-- CTXREQ, operation 3 (R311). -/
def execCtxreqSwitch (k : Ctl) (bp : BitVec 5) (s : State) : Out := execCtxreq (some 3) k bp s
/-- CTXREQ, operation 4 (R311). -/
def execCtxreqStreamOut (k : Ctl) (bp : BitVec 5) (s : State) : Out := execCtxreq (some 4) k bp s
/-- CTXREQ, operation 5 (R311). -/
def execCtxreqStreamIn (k : Ctl) (bp : BitVec 5) (s : State) : Out := execCtxreq (some 5) k bp s
/-- CTXREQ, a reserved operation (R311): the block's own operation byte stands. -/
def execCtxreqReservedOp (k : Ctl) (bp : BitVec 5) (s : State) : Out := execCtxreq none k bp s

/-! Monitor services (R304, R337). -/

/-- A monitor service at level 2: what the monitor's own state becomes, what it writes, and the code it puts in `s2`. -/
def execMonc (k : Ctl) (f : State → State × Code) (s : State) : Out :=
  execPriv k 2 (fun s => let r := f s; regs 1 [.s 2 (r.2.setWidth 32)] r.1) s

/-- MONC 1, verify image (R332, R337): an accepted image extends its register (R336). A partition image is the one that then runs; an
image of another kind runs only once a boot loads it (log entry 88, DEDUCED). -/
def execMoncVerifyImage (k : Ctl) (s : State) : Out :=
  execMonc k (fun s =>
    let a := (s.cur.S64 4).toNat
    let b := s.load a (7488 + s.loadNat (a + 16) 8)
    let m := s.monitor
    let v := m.verdict b
    if v = 0 then
      let m' := m.measure b
      ({ s with monitor := if imgKind b = 5 then { m' with runSvn := Sparse.set m.runSvn 5 (imgSvn b) 0 } else m' }, 0)
    else (s, v)) s

/-- MONC 2, extend measurement (R337). -/
def execMoncExtendMeasurement (k : Ctl) (s : State) : Out :=
  execMonc k (fun s =>
    let n := (s.cur.S 4).toNat
    if n = 6 ∨ n = 7 then ({ s with monitor := s.monitor.extend n (s.load (s.cur.S64 6).toNat 64) }, 0) else (s, 0xA6)) s

/-- MONC 3, attestation report (R337): the registers in order, the nonce, then the signature over them (log entry 17, DESIGN CHOICE). -/
def execMoncAttestationReport (k : Ctl) (s : State) : Out :=
  execMonc k (fun s =>
    let body := (List.range 8).flatMap s.monitor.reg ++ s.load (s.cur.S64 6).toNat 64
    (s.unitStore (s.cur.S64 4).toNat (body ++ Config.mldsaSign body), 0)) s

/-- MONC 4, confirm slot (R335, R337): a confirmed marker naming the slot that runs. -/
def execMoncConfirmSlot (k : Ctl) (s : State) : Out :=
  execMonc k (fun s => ({ s with monitor := s.monitor.writeMarker s.monitor.runB false 0 }, 0)) s

/-- MONC 5, commit `SVN` (R332, R337): the fuse counter of a kind advances to the running image's `SVN`; it never falls. -/
def execMoncCommitSvn (k : Ctl) (s : State) : Out :=
  execMonc k (fun s =>
    let kind := (s.cur.S 4).toNat
    let m := s.monitor
    let n := max (Sparse.get m.svn kind 0) (Sparse.get m.runSvn kind 0)
    let old := Sparse.get m.svn kind 0
    ({ s with monitor := { m with svn := Sparse.set m.svn kind n 0, burning := some (kind, old, s.nextId + 2) } }, 0)) s

/-- MONC, any other service (R337). -/
def execMoncUnknownService (k : Ctl) (_imm : BitVec 16) (s : State) : Out := execMonc k (fun s => (s, 0xA4)) s

end Sys2Proof.Machine
end

