-- ==== Sys2Proof/Machine/Trace.lean ====
section
/-! DEFINITION. The instruction trace of a course (R345, R346, R362): its packets, its buffer, and which packets an issue
writes. -/

namespace Sys2Proof.Machine

/-- The trace of an agent, with the session that runs it. -/
def State.traceOf (s : State) (who : DWord) : Option (Session × Trace) :=
  s.sessions.findSome? (fun x => (x.traces.find? (fun t => t.who == who)).map (fun t => (x, t)))

/-- The sessions with the trace of an agent replaced. -/
def State.setTrace (s : State) (t : Trace) : State :=
  { s with sessions := s.sessions.map (fun x => { x with traces := x.traces.map (fun o => if o.who = t.who then t else o) }) }

/-- Bytes of a trace page. -/
abbrev tracePage : Nat := 4096

/-- A `SYNC` packet of an agent (R345). -/
def State.syncPacket (s : State) (c : Course) : List Byte :=
  [0x10, BitVec.ofNat 8 (c.recon.length * 8 + c.meld.length), 0, 0] ++ bytesLE 4 (lo32 (s.count c.die)).toNat ++ bytesLE 8 c.pcA.toNat ++
    bytesLE 8 c.pcC.toNat ++ bytesLE 12 c.mask.toNat ++ bytesLE 4 0

/-- Bytes stored in a trace buffer from an offset that counts on from its start. -/
def State.traceStore (s : State) (t : Trace) (off : Nat) (bs : List Byte) : State :=
  let off := off % (tracePage * t.pages)
  s.unitStore (t.frames.getD (off / tracePage) 0 + off % tracePage) bs

/-- Pad bytes before a packet of `n` bytes at a place of a buffer: a packet is not split by the end of a page (R346). -/
def tracePad (wr n : Nat) : Nat := let room := tracePage - wr % tracePage; if room < n then room else 0

/-- Whether a packet of `n` bytes at a place of a buffer stands at the start of a page. -/
def traceOpens (wr n : Nat) : Bool := (wr + tracePad wr n) % tracePage == 0

/-- Where a buffer is written next after a packet of `n` bytes: a page starts with `SYNC`, of 40 bytes (R346). -/
def traceEnd (wr : Nat) (sync : Bool) (n : Nat) : Nat := wr + tracePad wr n + (if traceOpens wr n && !sync then 40 else 0) + n

/-- Whether a buffer has room up to a place. -/
def Trace.holds (t : Trace) (wr : Nat) : Bool := decide (wr ≤ t.rd + tracePage * t.pages)

/-- A packet is written (R346): the rest of a page is padded rather than split, a page starts with `SYNC`, and a packet that
finds no room is counted as lost, as is every packet until room is freed. -/
def State.packet (s : State) (c : Course) (t : Trace) (sync : Bool) (bs : List Byte) : State :=
  let pad := tracePad t.wr bs.length
  let fresh := traceOpens t.wr bs.length
  if t.lost ≠ 0 then s.setTrace { t with lost := t.lost + 1 }
  else
    let s := s.traceStore t t.wr (List.replicate pad 0)
    if !t.holds (traceEnd t.wr sync bs.length) then (s.note c 5 c.pcA).setTrace { t with wr := t.wr + pad, lost := 1 }
    else
      let s := s.traceStore t (t.wr + pad) ((if fresh && !sync then s.syncPacket c else []) ++ bs)
      s.setTrace { t with wr := traceEnd t.wr sync bs.length, lastTs := if sync || fresh then s.count c.die else t.lastTs }

/-- A packet of the focused agent, if it is traced. -/
def State.traced (s : State) (sync : Bool) (bs : State → Course → Trace → List Byte) : State :=
  match s.traceOf s.cur.ident with
  | some (_, t) => s.packet s.cur t sync (bs s s.cur t)
  | none => s

/-- A `SYNC` packet of the focused agent (R346, R362). -/
def State.sync_ (s : State) : State := s.traced true (fun s c _ => s.syncPacket c)

/-- The `TS` packet that a terminated course writes last (R390): the ticks since the last `SYNC`, which may be that of the page it opens. -/
def State.lastTs (s : State) : State :=
  s.traced false (fun s c t => 0x50#8 :: bytesLE 4 (if traceOpens t.wr 5 then 0 else (s.count c.die).toNat - t.lastTs.toNat))

/-- After room has been freed, what was lost is said and a `SYNC` follows (R346). -/
def State.overflowed (s : State) (c : Course) (t : Trace) : State :=
  if t.lost = 0 ∨ !t.holds (traceEnd (traceEnd t.wr false 5) true 40) then s
  else
    let s := s.packet c { t with lost := 0 } false (0x60#8 :: bytesLE 4 t.lost)
    match s.traceOf t.who with
    | some (_, t) => s.packet c t true (s.syncPacket c)
    | none => s

/-- The stream bit of a packet. -/
def streamBit (st : Stream) : Nat := match st with | .addr => 0 | .comp => 1

/-- The outcome of a conditional branch (R345), from the course as it was before the issue. -/
def Course.branchTaken (c : Course) : Instr → Option Bool
  | .bcnd _ cc ra _ => some (cond cc.toNat (c.S ra.toNat) 0)
  | .loop _ cc ra _ => some (cond cc.toNat (c.S ra.toNat - 1) 0)
  | .cloop _ a _ => some (c.W a.s1.toNat - 1 != 0)
  | _ => none

/-- Whether an instruction's target is packed as `TGT` (R345). -/
def Course.packsTarget (c : Course) : Instr → Bool
  | .ret _ => true
  | .jmpr _ _ _ => true
  | .cret _ _ _ => (match c.meld with | .pair _ _ _ _ _ :: _ => false | _ => true)
  | _ => false

/-- Whether an instruction is one after which `MASK` is packed whatever it writes (R345). -/
def packsMask : Instr → Bool
  | .cbr _ _ _ => true
  | .cjoin _ _ _ => true
  | .cexit _ _ _ => true
  | .meld _ _ _ => true
  | .mend _ _ _ => true
  | .mloop _ _ _ => true
  | .mbrk _ _ _ => true
  | .ccall _ _ _ => true
  | .ccallPair _ _ _ => true
  | .cret _ _ _ => true
  | _ => false

/-- The writes of the work a course's issue added. -/
def newWrites (old new : Course) : List RegWrite :=
  (new.work.filter (fun k => !old.work.any (fun o => o.id == k.id))).flatMap (fun k => k.writes)

/-- Whether a write is one of the mask. -/
def RegWrite.isMask : RegWrite → Bool
  | .w n _ => 29 ≤ n
  | .exit _ => true
  | _ => false

/-- The mask as it will stand once the compute stream's pending writes have committed. -/
def Course.maskAhead (c : Course) : Mask := ((c.work.flatMap (fun k => k.writes)).foldl Course.write c).mask

/-- What an issue writes to the trace of the focused agent: `old` is the agent before it (R345). An instruction that traps or
waits has not issued. Log entry 50, DESIGN CHOICE. -/
def State.tracePackets (s : State) (old : Course) (st : Stream) (i : Instr) : State :=
  let c := s.cur
  if (s.traceOf c.ident).isNone || c.lastIssue st == old.lastIssue st then s
  else
    let s := match old.branchTaken i with
      | some b => s.traced false (fun _ _ _ => [BitVec.ofNat 8 (0x20 + 8 * streamBit st), if b then 1 else 0])
      | none => s
    let s := if old.packsTarget i then
        s.traced false (fun _ c _ => BitVec.ofNat 8 (0x30 + streamBit st) :: bytesLE 8 (c.pc st).toNat) else s
    if packsMask i || (newWrites old c).any RegWrite.isMask then
      s.traced false (fun _ c _ => 0x40#8 :: bytesLE 12 c.maskAhead.toNat)
    else s

end Sys2Proof.Machine
end

