-- ==== Sys2Proof/Machine/Planes.lean ====
section
/-! DEFINITION. Context planes: residence (R15, R28), activation and switching (R17, R166), streaming (R167), the sequencer's
answers to context requests (R311), and storage that wakes (R120). -/

namespace Sys2Proof.Machine

/-! Residence. -/

/-- The courses resident in a plane. -/
def State.residents (s : State) (w p : Nat) : List Course :=
  s.agents.filter (fun c => c.sys.isNone && c.resident && c.wall == w && c.plane == p)

/-- The courses that take room in a plane: its residents and the second members of pairs (R386). -/
def State.tenants (s : State) (w p : Nat) : List Course :=
  s.agents.filter (fun c => c.sys.isNone && c.resident && ((c.wall == w && c.plane == p) || c.second == some (w, p)))

/-- The courses resident in a plane, by front-end slot. -/
def State.bySlot (s : State) (w p : Nat) : List Course :=
  let cs := s.residents w p
  (List.range 32).filterMap (fun k => cs.find? (fun c => c.slot == k))

/-- The places taken in a plane, each a front-end slot and a lane set: of its residents and of the second members of pairs (R15, R386). -/
def State.seats (s : State) (w p : Nat) : List (Nat × Nat) :=
  (s.agents.filter (fun c => c.sys.isNone && c.resident)).flatMap (fun c =>
    (if c.wall == w && c.plane == p then [(c.slot, c.lset)] else []) ++
    (if c.second == some (w, p) then [(c.twinSlot, c.twinSet)] else []))

/-- The lane set that holds the fewest of some places, the lowest-numbered on a tie (R15). -/
def leastSet (seats : List (Nat × Nat)) : Nat :=
  let n (k : Nat) : Nat := (seats.filter (fun e => e.2 == k)).length
  [1, 2, 3].foldl (fun b k => if n k < n b then k else b) 0

/-- The lowest free front-end slot beside some places: R15, R27 and R41 number the slots and do not say which a course takes (log entry 123, DESIGN CHOICE). -/
def freeSlot (seats : List (Nat × Nat)) : Nat := ((List.range 32).find? (fun k => seats.all (fun e => e.1 != k))).getD 0

/-- A course as it takes a place beside others of a plane: a front-end slot, and its lane set (R15). -/
def Course.seat (c : Course) (seats : List (Nat × Nat)) (w p : Nat) : Course :=
  { c with resident := true, wall := w, plane := p, moving := false, savedAt := none, lset := leastSet seats, slot := freeSlot seats }

/-- The second member of a pair takes a place beside others of a plane (R15, R386). -/
def Course.seatTwin (c : Course) (seats : List (Nat × Nat)) (w p : Nat) : Course :=
  { c with twin := some (w, p), twinOut := false, twinSet := leastSet seats, twinSlot := freeSlot seats }

/-- The context of a plane leaves it: the second members of pairs there, and those of the pairs that leave, have no place until the
sequencer gives them one (R386; log entry 20, DESIGN CHOICE). -/
def State.unseatTwins (s : State) (w p : Nat) : State :=
  s.modWhere (fun c => c.sys.isNone && (c.twin == some (w, p) || (c.wall == w && c.plane == p))) (fun c => { c with twinOut := true })

/-- A new course becomes resident in a plane, and as a pair in a second one. -/
def State.addCourse (s : State) (w p : Nat) (twin : Option (Nat × Nat)) (c : Course) : State :=
  let c := c.seat (s.seats w p) w p
  let c := match twin with | some t => c.seatTwin (s.seats t.1 t.2) t.1 t.2 | none => c
  { s with parked := s.parked ++ [c] }

/-- A pass of every sequencer follows a change that may make room (R171): those of dies 0, 1, 2 and 3 in turn, of the orders that the spec leaves
open (log entry 119, DESIGN CHOICE). -/
def State.passes (s : State) : State := s.later [.placementPass 0, .placementPass 1, .placementPass 2, .placementPass 3]

/-! Planes of a wall. -/

/-- The planes of a wall in a state. -/
def State.planesIn (s : State) (w : Nat) (st : PlaneState) : List Nat := (List.range 3).filter (fun p => (s.plane w p).st == st)

/-- Whether a wall is in service (R17). -/
def State.serving (s : State) (w : Nat) : Bool := (s.wall w).service == .inService

/-- The first bind of a spare brings it into service (R385). -/
def State.comeIn (s : State) (w : Nat) : State :=
  if (s.wall w).service = .spare then s.setWall w { s.wall w with service := .inService } else s

/-- A Ready plane becomes Active: the parameter-block cache is empty (R108), the stochastic generators are to be loaded again
(R91), and courses whose barriers departed meanwhile go on (R225). -/
def State.activate (s : State) (w p : Nat) : State :=
  let s := s.setPlane w p { s.plane w p with st := .active, wantActive := false, heldPlane := false }
  (s.setWall w { s.wall w with pcache := [], gens := [] }).departDue w p

/-- A switch ends the hold of `WFE` (R227). -/
def Hold.switched (h : Hold) : Hold := if h = .wfe then .none else h

/-- The Active plane of a wall becomes Ready (R17, R166, R227); `held` when the wall leaves service. -/
def State.deactivate (s : State) (w : Nat) (held : Bool) : State :=
  match s.activePlane w with
  | some p =>
    (s.setPlane w p { s.plane w p with st := .ready, heldPlane := held }).modWhere
      (fun c => c.sys.isNone && c.resident && c.wall == w && c.plane == p) (fun c => if held then c else { c with hold := c.hold.switched })
  | none => s

/-- Whether a Ready plane of a wall, other than the one held from the Active state, leaves no room for another (R17). -/
def State.readyFull (s : State) (w : Nat) : Bool := (s.planesIn w .ready).any (fun p => !(s.plane w p).heldPlane)

/-- Whether a plane of a wall is streaming in. -/
def State.comingIn (s : State) (w : Nat) : Bool :=
  (List.range 3).any (fun p => (s.plane w p).st == .streaming && ((s.plane w p).stream.map StreamJob.into).getD false)

/-! Context requests (R311). -/

/-- The context requests for a wall that are not answered, each with its core. -/
def State.ctxItems (s : State) (w : Nat) : List (DWord × Work) :=
  s.agents.flatMap (fun c => c.work.filterMap (fun k => match k.act with
    | .ctx _ _ _ w' _ _ => if w' = w then some (c.ident, k) else none
    | _ => none))

/-- A context request is answered: its status is written, its flag falls. -/
def State.answerCtx (s : State) (who : DWord) (k : Work) (status : Nat) : State :=
  match k.act with
  | .ctx _ _ _ _ _ st => (s.writeArea st.toNat 8 [(0, 8, status)]).within who (fun s => s.modC (fun c => c.finish k))
  | _ => s

/-- Whether a context request names a plane, a wall and an ASID that there are: R311 lists no code for another, and 0x22 answers it (log entry 124, DESIGN CHOICE). -/
def State.ctxNames (s : State) (p w asid : Nat) : Bool := p ≤ 2 && w ≤ 191 && asid ≤ 2047 && (s.wall w).service != .retired

/-- The request that an event settles: the oldest of the wall, if it asks for that operation, on that plane and with that image where it
names them. -/
def State.settleCtx (s : State) (w : Nat) (asks : Nat → Nat → DWord → Bool) : State :=
  let xs := s.ctxItems w
  match xs.find? (fun e => xs.all (fun o => e.2.id ≤ o.2.id)) with
  | some (who, k) => (match k.act with
    | .ctx op p asid w image _ => if s.ctxNames p w asid && asks op p image then s.answerCtx who k 0 else s
    | _ => s)
  | none => s

/-- A stream-in begins: the plane is bound to the image's ASID (R17), and a pass follows (R171). -/
def State.beginIn (s : State) (w p asid : Nat) (job : StreamJob) : State :=
  let s := s.comeIn w
  (s.setPlane w p { s.plane w p with st := .streaming, asid := some asid, stream := some job }).passes

/-- Whether an image may be streamed into a plane (R162, R311). -/
def State.imageOk (s : State) (image : Nat) : Bool :=
  let h := s.header image
  !s.headerBad image && !h.fresh && 0 < h.planes && !s.recordsBad h

/-- Whether a plane of `n` courses may be streamed out to an image (R162, R311): its records are yet to be written. -/
def State.imageTakes (s : State) (image n : Nat) : Bool :=
  let h := s.header image
  !s.headerBad image && !h.fresh && 0 < h.planes && s.recordsPlaced { h with planes := 1 } n

/-- A requested stream-in begins once no plane of the wall is Streaming (R17); an image that R162 rejects gives 0x20. While another plane
is Ready there is no state for this one to come to, and the request is answered 0x22, but for a Ready plane that is about to become
Active (log entry 99, DEDUCED). -/
def State.serveIn (s : State) (who : DWord) (k : Work) (w p : Nat) (image : DWord) : State :=
  if !s.imageOk image.toNat then s.answerCtx who k 0x20
  else if s.readyFull w then (if s.serving w && (s.activePlane w).isNone then s else s.answerCtx who k 0x22)
  else if s.planesIn w .streaming ≠ [] then s
  else s.beginIn w p (s.header image.toNat).asid (.inFrom image)

/-- The planes of a wall that a switch waits for are to become Active once they have streamed in (R17). -/
def State.wantSwitch (s : State) (w : Nat) : State :=
  (s.planesIn w .streaming).foldl (fun s p => s.setPlane w p { s.plane w p with wantActive := true }) s

/-- An empty context of an ASID in a plane (R17, R311): the gates stand as they are; its storage is empty (log entry 100, DEDUCED). -/
def Plane.emptied (p : Plane) (asid : Nat) : Plane :=
  { Plane.zero with off := p.off, waking := p.waking, st := .ready, asid := some asid }

/-- BIND (R311): the plane holds an empty context, and no other is Ready or is to be Ready once it has streamed in. -/
def State.serveBind (s : State) (who : DWord) (k : Work) (w p asid : Nat) : State :=
  let s1 := s.comeIn w
  let at_once := s1.serving w && (s1.activePlane w).isNone
  if (s.plane w p).st ≠ .idle ∨ s.planesIn w .ready ≠ [] ∨ (s.comingIn w && !at_once) then s.answerCtx who k 0x22
  else
    let s := (s1.blank (s.scratch w p 0) 0x100000).clearTags (s.scratch w p 0) 0x100000
    let s := s.setPlane w p ((s.plane w p).emptied asid)
    let s := if at_once then s.activate w p else s
    (s.answerCtx who k 0).passes

/-- UNBIND (R311). -/
def State.serveUnbind (s : State) (who : DWord) (k : Work) (w p : Nat) : State :=
  let x := s.plane w p
  if (x.st ≠ .ready ∧ x.st ≠ .active) ∨ s.tenants w p ≠ [] then s.answerCtx who k 0x22
  else
    let s := s.setPlane w p { x with st := .idle, asid := none, wantActive := false, heldPlane := false, stream := none, owner := none }
    (s.answerCtx who k 0).passes

/-- SWITCH (R17, R311): the Ready plane becomes Active with `PLANE_SWITCH_COMPLETE`, which answers; without one, the request
waits for a stream-in under way, or starts one of its image into the lowest-numbered Idle plane (log entry 125, DESIGN CHOICE). While the
wall is out of service it waits. An image address of 0 names no context: then there is nothing to start, and the request is answered 0x22
(log entry 114, DESIGN CHOICE). -/
def State.serveSwitch (s : State) (who : DWord) (k : Work) (w : Nat) (image : DWord) : State :=
  if !s.serving w then s
  else match (s.planesIn w .ready).find? (fun p => !(s.plane w p).heldPlane) with
  | some p => s.setPlane w p { s.plane w p with wantActive := true }
  | none =>
    if s.comingIn w then s.wantSwitch w
    else if image = 0 then s.answerCtx who k 0x22
    else match s.planesIn w .idle with
      | p :: _ =>
        let t := s.serveIn who k w p image
        if t.comingIn w then t.wantSwitch w else t
      | [] => if s.planesIn w .streaming = [] then s.answerCtx who k 0x22 else s

/-- The sequencer serves a context request (R311): those of one wall one at a time, in arrival order. -/
def State.serveCtx (s : State) (who : DWord) (k : Work) : State :=
  match k.act with
  | .ctx op p asid w image _ =>
    if (s.ctxItems w).any (fun e => decide (e.2.id < k.id)) then s
    else if op % 256 = 0 ∨ 5 < op % 256 then s.answerCtx who k 0x23
    else if 256 ≤ op then s.answerCtx who k 0x21
    else if !s.ctxNames p w asid then s.answerCtx who k 0x22
    else if op = 1 then s.serveBind who k w p asid
    else if op = 2 then s.serveUnbind who k w p
    else if op = 3 then s.serveSwitch who k w image
    else if op = 4 then
      (if (s.plane w p).stream = some (.outTo image) then s
       else if (s.plane w p).st ≠ .ready then s.answerCtx who k 0x22
       else if !s.imageTakes image.toNat (s.residents w p).length then s.answerCtx who k 0x20
       else s.setPlane w p { s.plane w p with stream := some (.outTo image) })
    else if (s.plane w p).stream = some (.inFrom image) then s
    else if (s.plane w p).st ≠ .idle then s.answerCtx who k 0x22
    else s.serveIn who k w p image
  | _ => s

/-! Switching. -/

/-- PLANE_SWITCH_COMPLETE (R17): in a wall in service, the Ready plane becomes Active when a switch was requested, the Active one
then being Ready with the context just left; and a Ready plane, the held one first, becomes Active when none is, which is no switch and
counts as none (R348). Either way a switch that waits for a Ready plane, marked there or not yet, has what it asked for, but for the held
plane's return, which a switch only awaits. -/
def execPlaneSwitchComplete (w : Nat) (s : State) : Out :=
  .next (
    if !s.serving w then s
    else
      let rs := s.planesIn w .ready
      let pick := match s.activePlane w with
        | some _ => rs.find? (fun p => (s.plane w p).wantActive)
        | none => (rs.find? (fun p => (s.plane w p).heldPlane)).or rs.head?
      match pick with
      | none => s
      | some p =>
        let held := (s.plane w p).heldPlane
        let switched := (s.activePlane w).isSome
        let s := ((s.deactivate w false).activate w p).countEvent w 14 (if switched then 1 else 0)
        (if held then s else s.settleCtx w (fun op _ _ => op == 3)).passes)

/-! Streaming out. -/

/-- Whether a plane is quiet enough for its stream-out to begin (R167, R388): all flags of its courses are zero, its copies
and its fixed-latency results are done, and nothing is in flight but unfired matrix operations, waiting chute operations,
barrier arrivals and stores without a flag. -/
def State.quiet (s : State) (w p : Nat) : Bool :=
  (s.residents w p).all (fun c => c.flags.isEmpty && c.work.all (fun k => match k.act with
    | .engine => true
    | .bar => true
    | .store _ _ => true
    | .chute _ _ _ _ _ _ => true
    | _ => false)) &&
  (s.plane w p).engine.all (fun o => !o.fired) &&
  (s.wall w).chans.all (fun e => match e.2.job with | some j => j.plane != p | none => true)

/-- STREAM_OUT_BEGIN (R17, R167): the atomic keys of the plane's courses are dropped (R388), and a pass follows (R171). -/
def execStreamOutBegin (w p : Nat) (s : State) : Out :=
  .next (match (s.plane w p).stream with
    | some ⟨false, _, _, _, _⟩ =>
      if (s.plane w p).st ≠ .ready ∨ s.planesIn w .streaming ≠ [] ∨ !s.quiet w p then s
      else
        let ids := (s.residents w p).map (fun c => c.ident)
        let s := { s with keys := s.keys.filter (fun e => !ids.contains e.2.1) }
        (s.setPlane w p { s.plane w p with st := .streaming, wantActive := false, heldPlane := false }).passes
    | _ => s)

/-- What is left in a plane once its context has been streamed out: its storage as it stands (log entry 18, DESIGN CHOICE). -/
def Plane.left (p : Plane) : Plane :=
  { p with st := .idle, asid := none, stream := none, engine := [], gangs := [], bars := [], shadows := [], owner := none,
           wantActive := false, heldPlane := false }

/-- The key under which a plane that its sequencer moves is shelved, and where its scratchpad bytes are kept meanwhile. -/
def movedKey (w p : Nat) : Nat := 2 ^ 60 + 3 * w + p
/-- Where the scratchpad bytes of a plane that its sequencer moves are kept: no physical address. -/
def movedBytes (key : Nat) : Nat := 2 ^ 200 + key % 2 ^ 60 * 0x100000

/-- The releases kept under the `n` places from `a` on stand under those from `b` on too, and nothing else does there. -/
def State.copyRels (s : State) (a n b : Nat) : State :=
  if s.rels = [] then s
  else { s with rels := s.rels.filter (fun e => !(b ≤ e.1 && e.1 < b + n)) ++
      (s.rels.filter (fun e => a ≤ e.1 && e.1 < a + n)).map (fun (e : Nat × Nat × Carry) => (e.1 - a + b, e.2)) }

/-- Where the releases of a shelved plane's tag entries and chute entries are kept, by the key it is shelved under: no physical address. -/
def shelfRels (key : Nat) : Nat := 2 ^ 210 + key * 2 ^ 22

/-- The releases of a plane's tag entries and chute entries are shelved with it (R102, R117). -/
def State.shelveRels (s : State) (w p key : Nat) : State :=
  (s.copyRels (tagKey w p 0 0) 2048 (shelfRels key)).copyRels (chuteBase w p) (2 ^ 21) (shelfRels key + 2 ^ 21)

/-- The releases shelved under a key are those of the plane that comes in: a `TAGLK` acquires there what a `TAGSET` released before the
stream-out (R102, R166). -/
def State.unshelveRels (s : State) (key w p : Nat) : State :=
  (s.copyRels (shelfRels key) 2048 (tagKey w p 0 0)).copyRels (shelfRels key + 2 ^ 21) (2 ^ 21) (chuteBase w p)

/-- A course leaves the plane that its sequencer moves: its `DIST` counts are kept as cycles that have passed (R42, R165). -/
def Course.leaving (c : Course) (cycle : Nat) : Course :=
  { c with resident := false, moving := true, restA := c.restA - cycle, restC := c.restC - cycle,
           lastA := c.lastA.map (fun n => min 15 (cycle - n)), lastC := c.lastC.map (fun n => min 15 (cycle - n)), holdC := c.holdC - cycle }

/-- The second scan of a failed wall begins once its planes have left it (R382). -/
def State.scanAgain (s : State) (w : Nat) : State :=
  if (s.wall w).service = .retest then s.setWall w { s.wall w with scanStart := s.count (dieOf w) } else s

/-- STREAM_OUT_COMPLETE (R17, R167): the plane record and one course record per course, in the order of their front-end slots (log entry 18,
DESIGN CHOICE), are written, and the plane is Idle. A plane that its sequencer moves by itself (R382) is kept whole. Log entry 55, DESIGN CHOICE. -/
def execStreamOutComplete (w p : Nat) (s : State) : Out :=
  .next (match (s.plane w p).st, (s.plane w p).stream with
    | .streaming, some ⟨false, some image, idx, _, _⟩ =>
      let h := s.header image.toNat
      let cs := s.bySlot w p
      let from_ := s.coursesBefore h idx
      let s1 := (s.writePlane (s.planeRec h idx) w p cs.length).shelveRels w p (s.planeRec h idx)
      let s1 := cs.zipIdx.foldl (fun t e => t.writeCourse (t.courseRec h (from_ + e.2)) e.1 idx (s.distsLeft e.1)) s1
      let s1 := cs.zipIdx.foldl (fun s e => s.modWhere (fun c => c.sys.isNone && c.ident == e.1.ident)
        (fun c => { c with resident := false, savedAt := some (s1.courseRec h (from_ + e.2)) })) s1
      ((((s1.unseatTwins w p).setPlane w p (s.plane w p).left).scanAgain w).settleCtx w
        (fun op q im => op == 4 && q == p && im == image)).passes
    | .streaming, some ⟨false, none, _, _, _⟩ =>
      let key := movedKey w p
      let s1 := (s.moveBytes (s.scratch w p 0) 0x100000 (movedBytes key)).shelveRels w p key
      let s1 := { s1 with shelf := Sparse.put s1.shelf key (s.plane w p) }
      let s1 := s1.modWhere (fun c => c.resident && c.sys.isNone && c.wall == w && c.plane == p)
        (fun c => c.leaving (s.cycleOf (dieOf w)))
      (((s1.unseatTwins w p).setPlane w p (s.plane w p).left).scanAgain w).passes
    | _, _ => s)

/-! The end of a course. -/

/-- A launch carries a code as its first failure (R357, R381). Log entry 70, DEDUCED. -/
def Launch.failed (l : Launch) (code : Code) : Launch := if l.status = 0 then { l with status := code } else l

/-- The focused course leaves its launch (R357, R381, R390): its streams end, its launch carries the code if it is the first
failure, the launch's barriers are abandoned, and it leaves its gang. `COURSE_RETIRE` follows once its flags are zero; a streamed-out course
leaves its gang then, when it is resident again (log entry 108, DEDUCED). -/
def State.terminate (s : State) (code : Code) : State :=
  let s := (s.modLaunch s.cur.launch (fun l => l.failed code)).abandon s.cur.launch
  let s := if s.cur.resident then s.leaveGang else s
  (s.modC (fun c => { c with endA := true, endC := true, trap := none, halted := false, hold := .none })).resaved

/-! Streaming in. -/

/-- A barrier instance of a gang or a wall as it is numbered in the plane that a course comes to: its unit is always the course's own plane
(R224, R225). -/
def rehomeInst (to_ scope : Nat) (inst : DWord) : DWord :=
  let unit := inst.toNat % 2 ^ 32 / 16
  if scope = 3 then instanceOf (hi32 inst) to_ (inst.toNat % 16)
  else if scope = 2 then instanceOf (hi32 inst) (to_ * 256 + unit % 256) (inst.toNat % 16)
  else inst

/-- A course's work, holds and barrier epochs as they stand in the plane it comes back to: chute operations, a barrier at gang or wall
scope, which moves with its plane (R166, R224, R225). -/
def Course.rehome (c : Course) (w p : Nat) : Course :=
  let hold := match c.hold with
    | .bar 2 u i e rd d => .bar 2 ((3 * w + p) * 256 + u % 256) i e rd d
    | .bar 3 _ i e rd d => .bar 3 (3 * w + p) i e rd d
    | x => x
  { c with hold := hold, epochs := c.epochs.map (fun e => (e.1, rehomeInst (3 * w + p) e.1 e.2.1, e.2.2)),
           work := c.work.map (fun k => { k with
             early := 0, late := none
             act := (match k.act with
               | .chute _ ch op n rd after => .chute p ch op n rd after
               | a => a) }) }

/-- A course of a plane that its sequencer has moved goes on as one resumed from an image does (R157, R167, R227, R382, R388). -/
def Course.resumed (c : Course) (cycle : Nat) : Course :=
  { c with lastA := c.lastA.map (cycle - ·), lastC := c.lastC.map (cycle - ·), restA := cycle + c.restA, restC := cycle + c.restC, holdC := cycle + c.holdC, hold := c.hold.resumed true,
           b := staleRegs c.B, latch := none, event := false, atoms := 0, ageA := 0, ageC := 0 }

/-- The course of an identity is seated in a plane with a new state: the parked one of that identity, or a new agent. Its trace goes on
with a `SYNC` (R346). -/
def State.seatAs (s : State) (w p : Nat) (c : Course) : State :=
  let c := (c.rehome w p).seat (s.seats w p) w p
  let s := if s.agents.any (fun o => o.sys.isNone && o.ident == c.ident) then
      s.modWhere (fun o => o.sys.isNone && o.ident == c.ident) (fun _ => c)
    else { s with parked := s.parked ++ [c] }
  s.within c.ident State.sync_

/-- The rest of what an arrival of the focused course at the latch comes to, from its word (R268): for a course that an image holds at the
latch and the device does not know there. -/
def State.rearrive (s : State) (k : Ctl) (a c : BitVec 4) (rows : Course → RowSpec) (kt : BitVec 8) (fa fb : BitVec 3) : State :=
  let steps := match s.prepare a.toNat c.toNat (rows s.cur) kt.toNat fa.toNat fb.toNat with
    | .ok _ steps => steps
    | _ => []
  s.modC (fun me => { me with hold := .latch ⟨me.ident, 0, sigFlag k, a.toNat, c.toNat, steps, 0, 0, 0, me.sync.rc⟩ })

/-- The focused course is held at the latch again (R165, R268): its matrix instruction is the word at its program counter. -/
def State.holdAgain (s : State) : State :=
  match s.cur.hold with
  | .latch _ => s
  | _ =>
    match (s.nextWord (s.cur.streamOf true)).1 with
    | .instr (.mma k a c wb kt fa fb _) => s.rearrive k a c (fun _ => .slot wb.toNat) kt fa fb
    | .instr (.mmag k a c ra kt fa fb _) => s.rearrive k a c (fun me => .table (me.S ra.toNat)) kt fa fb
    | _ => s

/-- The focused course is held at a barrier again (R42, R165, R225): the word at its program counter is a `BAR` whose instance, by the
record's entry of its scope, departs at an epoch that is still to come. For a course that the device does not know (log entry 115, DESIGN
CHOICE). -/
def State.holdBar (s : State) : State :=
  let c := s.cur
  match c.hold, (s.nextWord (c.streamOf true)).1 with
  | .none, .instr (.bar _ rd _ id scope) =>
    (match c.barUnit scope.toNat with
    | some u =>
      let (inst, e) := c.epochAt scope.toNat
      if c.trap.isSome || inst != instanceOf c.lid u id.toNat || e.toNat ≤ (s.barrier c.lid scope.toNat u id.toNat).epoch.toNat then s
      else
        let k : Work := ⟨s.nextId, c.streamOf true, none, 0, none, none, [], .bar⟩
        { s with nextId := s.nextId + 1 }.modC (fun c =>
          { c.pass scope.toNat inst (e - 1) with hold := .bar scope.toNat u id.toNat e rd.toNat none, work := c.work ++ [k] })
    | none => s)
  | _, _ => s

/-- The launch that an image's courses belong to: the first that is known by its `LID` and ASID and not complete. -/
def State.launchNamed (s : State) (lid : Word) (asid : Nat) : Nat :=
  s.launches.findIdx (fun l => l.lid == lid && l.asid == asid && !l.complete)

/-- The records of the courses of plane record idx, found in the course table (R165), as many as fit in a plane (R28). -/
def State.imageRecords (s : State) (h : ImgHdr) (idx : Nat) : List Nat :=
  (((List.range (s.coursesBefore h h.planes)).map (s.courseRec h)).filter (fun a => s.num a 36 4 == idx)).take
    (min 32 (524288 / h.alloc))

/-- Whether a record holds a course that has retired while it was streamed out (R39, R390): it comes back to leave its gang, and its launch
counts it no more. -/
def State.spentRecord (s : State) (a : Nat) : Bool := s.num a 32 4 % 4 == 3 && s.past.any (fun e => e.1 == s.dw a 0)

/-- The course of a record, for a die. -/
def State.imageCourse (s : State) (die : Nat) (h : ImgHdr) (a : Nat) : Course :=
  let old := (s.agents.find? (fun c => c.sys.isNone && c.ident == s.dw a 0 && !c.resident && !c.retired)).getD
    { Course.blank with launch := if s.spentRecord a then 2 ^ 32 else s.launchNamed h.lid h.asid }
  s.readCourse die a h old

/-- A plane is Ready with its restored storage: banks that are off hold nothing (R120); its scratchpad's race tags are empty (R140). A switch
that waits for it is still to come (R17); on a wall whose scan has failed it is streamed out at once (R382). -/
def State.endIn (s : State) (w p : Nat) (x : Plane) (asid : Option Nat) (bytes key : Nat) : State :=
  let s := (s.moveBytes bytes 0x100000 (s.scratch w p 0)).unshelveRels key w p
  let s := (s.dropGated w p x.off).clearTags (s.scratch w p 0) 0x100000
  s.setPlane w p { x with st := .ready, asid := asid, stream := if (s.wall w).service = .retest then some .moveOut else none,
                          wantActive := (s.plane w p).wantActive, heldPlane := false }

/-- A course that a resume entry brings back is a redundant pair if the entry's launches are placed as pairs; one that `CTXREQ` brings back
is what it was (R386; log entry 20, DESIGN CHOICE). Its second member has no place yet. -/
def Course.paired (c : Course) (w p : Nat) (pair : Option Bool) : Course :=
  match pair with
  | some true => { c with twin := c.twin.or (some (w, p)), twinOut := true }
  | some false => { c with twin := none, twinOut := false }
  | none => { c with twinOut := c.twin.isSome }

/-- Whether a launch was reset while it was placed (R390): it has left its queue and is not complete. -/
def Launch.isReset (l : Launch) : Bool := l.left && !l.complete

/-- The focused course is terminated by the reset of its queue, a traced one with a last `TS` packet (R390). -/
def State.resetCourse (s : State) : State := (s.lastTs.terminate 0x43).modC (fun c => { c with wasReset := true })

/-- The focused course has come in with a launch that was reset meanwhile: it is terminated, if it was not when the queue was reset (R390). -/
def State.resetLate (s : State) (entry : Option Nat) : State :=
  let reset (n : Nat) : Bool := ((s.launches[n]?).map Launch.isReset).getD false
  if !s.cur.wasReset && (reset s.cur.launch || (entry.map reset).getD false) then s.resetCourse else s

/-- STREAM_IN_COMPLETE (R17, R140, R167): the plane and every course that names it are restored, and the plane is Ready. The courses that a
resume entry brings back are its courses placed (R350). A plane for the second members of its pairs comes without its courses (R386). -/
def execStreamInComplete (w p : Nat) (s : State) : Out :=
  .next (match (s.plane w p).st, (s.plane w p).stream with
    | .streaming, some ⟨true, some image, idx, entry, second⟩ =>
      let h := s.header image.toNat
      let a := s.planeRec h idx
      let recs := if second then [] else s.imageRecords h idx
      let pair := entry.map (fun n => ((s.launches[n]?).getD Launch.blank).pairQ)
      let cs := recs.map (fun r => ((s.imageCourse (dieOf w) h r).paired w p pair, ebit (s.num r 32 4) 3))
      let s1 := s.endIn w p (s.readPlane a (Sparse.get s.shelf a Plane.zero)) (some h.asid) (a + 20480) a
      let s1 := cs.foldl (fun (s : State) (c : Course × Bool) => s.seatAs w p c.1) s1
      let s1 := cs.foldl (fun (s : State) (c : Course × Bool) =>
        s.within c.1.ident (fun s => if c.2 then s.holdAgain.breakHeld else s.holdBar)) s1
      let s1 := cs.foldl (fun (s : State) (c : Course × Bool) => s.within c.1.ident (fun s => s.resetLate entry)) s1
      let gone := s.launches.any (fun l => l.abandoned && !l.complete && l.lid == h.lid && l.asid == h.asid)
      let s1 := if gone then s1.dropBarriers h.lid h.asid else s1
      let s1 := match entry with
        | some n => s1.modLaunch n (fun l => { l with placed := l.placed + cs.length })
        | none => s1
      (s1.settleCtx w (fun op q im => op == 5 && q == p && im == image && entry.isNone)).passes
    | .streaming, some ⟨true, none, from_, _, _⟩ =>
      let key := 2 ^ 60 + from_
      let x := Sparse.get s.shelf key Plane.zero
      let cs := s.agents.filter (fun c => c.moving && 3 * c.wall + c.plane == from_)
      let s1 := s.endIn w p x x.asid (movedBytes key) key
      let s1 := s1.blank (movedBytes key) 0x100000
      let s1 := { s1 with shelf := Sparse.del s1.shelf key }
      let s1 := cs.foldl (fun s c => s.seatAs w p (c.resumed (s.cycleOf (dieOf w)))) s1
      (s1.modWhere (fun c => c.twinOut && c.twin == some (from_ / 3, from_ % 3)) (fun c => { c with twin := some (w, p) })).passes
    | _, _ => s)

/-! Waking. -/

/-- STORAGE_WAKE_COMPLETE (R120): bank idx of plane `unit` % 3 of wall `unit` / 3, or way pair idx of bay `unit`, has woken; the
tags of a woken bank's sectors are empty, and of the sectors in a woken pair, which starts with none (R140). Log entry 37, DESIGN CHOICE. -/
def execStorageWakeComplete (bank : Bool) (unit idx : Nat) (s : State) : Out :=
  .next (
    if bank then
      let w := unit / 3
      let p := unit % 3
      let x := s.plane w p
      if !x.waking.getLsbD idx then s
      else
        let s := s.setPlane w p { x with waking := x.waking &&& ~~~(BitVec.ofNat 64 (2 ^ idx)) }
        { s with tags := s.tags.filter (fun e => !s.inBanks w p (BitVec.ofNat 64 (2 ^ idx)) (32 * e.1)) }
    else
      let x := Sparse.get s.waysWake unit 0
      if !x.getLsbD idx then s
      else
        let held := (s.lines.filter (fun e => e.1 / 16 / baySets == unit && e.1 % 16 / 2 == idx)).map (fun e => e.2.line)
        let s := held.foldl (fun (s : State) (n : Nat) => s.clearTags (128 * n) 128) s
        { s with waysWake := Sparse.set s.waysWake unit (x &&& ~~~(BitVec.ofNat 8 (2 ^ idx))) 0 })

end Sys2Proof.Machine
end

