-- ==== Sys2Proof/Machine/Traps.lean ====
section
/-! DEFINITION. Trap rings and records (R355, R356), and the settlement of a trap (R357, R381). -/

namespace Sys2Proof.Machine

/-- The ring descriptor a course's trap goes to (R150, R355): the hypervisor's for a partition fault, and for the trap of a course whose walks
have no root (log entry 94, DEDUCED). -/
def State.trapRing (s : State) (c : Course) (code : Code) : Nat :=
  if code = 0x05 ∨ !s.asidBound c.asid ∨ (code = 0x02 ∧ s.rootBad c.asid) then 64 else s.partOf c.asid

/-- The 128 bytes of a trap record (R356). -/
def trapBytes (c : Course) (t : TrapInfo) : List Byte :=
  let b (x : Bool) (n : Nat) : Nat := if x then 2 ^ n else 0
  bytesLE 8 c.ident.toNat ++ bytesLE 4 c.lid.toNat ++ bytesLE 4 c.cid.toNat ++ bytesLE 2 c.asid ++ bytesLE 1 t.code.toNat ++
  bytesLE 1 (b (t.stream == .comp) 0 + b c.w6 1 + b t.melded 2 + t.faces.toNat * 8) ++ bytesLE 2 c.wall ++
  bytesLE 1 (t.depths.1 + 16 * t.depths.2.1) ++ bytesLE 1 t.depths.2.2 ++ bytesLE 8 t.pc.toNat ++ bytesLE 16 t.word.toNat ++
  bytesLE 8 t.detail.toNat ++ bytesLE 8 t.tick.toNat ++ bytesLE 12 t.fmask.toNat ++ bytesLE 12 t.faceA.toNat ++
  bytesLE 12 t.active.toNat ++ bytesLE 4 0 ++ bytesLE 8 t.other.toNat ++ bytesLE 8 t.otherRc.toNat ++ bytesLE 8 t.rc.toNat

/-- A trap with the ring place of its record. -/
def Course.placeTrap (c : Course) (slot : Option (Nat × Nat)) : Course :=
  { c with trap := c.trap.map (fun t => { t with slot := slot }) }

/-- Whether a course's trap record stands at a ring place. -/
def Course.trapAtSlot (c : Course) (desc idx : Nat) : Bool :=
  match c.trap with
  | some t => t.slot == some (desc, idx)
  | none => false

/-- The place of a record that has been overwritten: no descriptor has this number. -/
abbrev lostSlot : Nat × Nat := (65, 0)

/-- TRAP_RECORD_WRITE (R355): the record is written once its ring has room, as a release at system scope, the head advances, and the event is raised. An older
record at the same place can be named no more. -/
def execTrapRecordWrite (who : DWord) (s : State) : Out :=
  .next (match s.focus who with
    | none => s
    | some f =>
      match f.cur.trap with
      | none => s
      | some t =>
        let p := f.trapRing f.cur t.code
        let d := f.dreg64 0x880 + 32 * p
        let size := f.loadNat (d + 8) 4
        let head := f.loadNat (d + 12) 4
        if t.slot.isSome || (head + 2 ^ 32 - f.loadNat (d + 16) 4) % 2 ^ 32 == size then s
        else
          let i := head % size
          let f1 := f.modWhere (fun c => c.trapAtSlot p i) (fun c => c.placeTrap (some lostSlot))
          let f1 := f1.releaseStore who 8 (f.loadNat d 8 + 128 * i) (trapBytes f.cur t)
          let f1 := (f1.storeNat (d + 12) 4 (head + 1)).raiseEventWord (BitVec.ofNat 32 (f.loadNat (d + 20) 4))
          f1.modC (fun c => { c.placeTrap (some (p, i)) with trapRec := trapBytes f.cur t }))

/-- The focus on the trapped course whose record a `TRACK` write names. -/
def State.focusTrap (s : State) (desc idx : Nat) : Option State :=
  s.focusBy (fun c => c.sys.isNone && !c.retired && c.trapAtSlot desc idx)

/-- A trap of a redundant pair, for which terminate is the only settlement (R387). -/
def pairTrap (code : Code) : Bool := code == 0x82 || code == 0x83

/-- A course goes on after its trap: its next trace packet follows a `SYNC` (R362); at the latch of a gang that broke meanwhile it takes that
trap (R268). -/
def State.untrap (s : State) (skip : Bool) : State :=
  match s.cur.trap with
  | none => s
  | some t =>
    let c := s.cur
    let c := if skip && t.code != 0x6F && t.code != 0x70 then c.setPc t.stream (c.nextPc t.stream) else c
    { s with cur := { c with trap := none } }.sync_.breakHeld.resaved

/-- A `TRACK` action that lets the course go on. -/
def execTrackOn (skip : Bool) (desc idx : Nat) (s : State) : Out :=
  .next (match s.focusTrap desc idx with
    | none => s
    | some f => if (f.cur.trap.map (fun t => pairTrap t.code)).getD true then s else f.untrap skip)

/-- TRACK_RETRY (R357). -/
def execTrackRetry (desc idx : Nat) (s : State) : Out := execTrackOn false desc idx s
/-- TRACK_SKIP (R357). -/
def execTrackSkip (desc idx : Nat) (s : State) : Out := execTrackOn true desc idx s

/-- TRACK_TERMINATE (R357). -/
def execTrackTerminate (desc idx : Nat) (s : State) : Out :=
  .next (match s.focusTrap desc idx with
    | none => s
    | some f => f.terminate ((f.cur.trap.map (fun t => t.code)).getD 0))

end Sys2Proof.Machine
end

