-- ==== Sys2Proof/Machine/Launches.lean ====
section
/-! DEFINITION. The command sequencers: queues and entries (R168, R169, R313, R327), refusals (R329, R377), placement (R163, R170 to R172,
R386), completion, time accounting and certification (R173, R174, R350), retirement of courses (R39), queue reset (R390). -/

namespace Sys2Proof.Machine

/-! Queues and their rings. -/

/-- Launch n. -/
def State.launch (s : State) (n : Nat) : Launch := (s.launches[n]?).getD Launch.blank
/-- Launch queue q. -/
def State.queue (s : State) (q : Nat) : LQueue := Sparse.get s.queues q LQueue.zero
/-- The state with a launch queue replaced. -/
def State.setQueue (s : State) (q : Nat) (x : LQueue) : State := { s with queues := Sparse.set s.queues q x LQueue.zero }

/-- The address of a queue descriptor (R313). -/
def State.qdesc (s : State) (q : Nat) : Nat := s.dreg64 0x840 + 64 * q
/-- The ASID of a queue (R313). -/
def State.qasid (s : State) (q : Nat) : Nat := s.num (s.qdesc q) 20 2

/-- The entries of a queue that have been read and stand in its ring still: from the oldest that has not left. -/
def State.inRing (s : State) (q : Nat) : Nat :=
  ((s.launches.filter (fun l => l.queue == q)).dropWhile (fun l => l.left)).length

/-- An entry leaves its queue: the head that the sequencer writes moves past it once no older one stands before it (R313). -/
def State.leaveQueue (s : State) (n : Nat) : State :=
  let q := (s.launch n).queue
  let s1 := s.modLaunch n (fun l => { l with left := true })
  let a := s.qdesc q + 16
  let moved := s.inRing q - s1.inRing q
  if moved = 0 then s1 else s1.storeNat a 4 (s1.loadNat a 4 + moved)

/-- An entry is unplaced no more: its courses are placed, or it is refused. -/
def State.dropEnt (s : State) (n : Nat) : State :=
  let q := (s.launch n).queue
  let x := s.queue q
  s.setQueue q { x with ents := x.ents.filter (fun e => e != n), head := if x.head = some n then none else x.head,
                        since := if x.head = some n then none else x.since,
                        closed := if x.head = some n then false else x.closed }

/-- The tick of a launch's sequencer. -/
def State.qtick (s : State) (q : Nat) : DWord := s.count (queueDie q)

/-- The launch whose courses an entry runs: its own, or of a resume entry the one whose image it resumes, which is taken for the first that is
known by its `LID` and ASID and not complete (R168, R173; log entry 126, DESIGN CHOICE). -/
def State.body (s : State) (n : Nat) : Nat := ((s.launch n).of_).getD n

/-- The ticks of the last instructions of an entry's courses on each wall that ran them (R174). -/
def State.ranOf (s : State) (n : Nat) : Sparse DWord :=
  (s.launch n).ran ++ (if s.body n = n then [] else (s.launch (s.body n)).ran)

/-- The status with which an entry ends: its own, or of a resume entry that of the launch whose courses it brings back (R173, R353). -/
def State.statusOf (s : State) (l : Launch) : Code := if l.status = 0 then ((l.of_.map (fun m => (s.launch m).status)).getD 0) else l.status

/-- Whether a launch is suspect, or of a resume entry the one whose courses it brings back (R383; log entry 126, DESIGN CHOICE). -/
def State.doubtful (s : State) (l : Launch) : Bool := l.suspect || (l.of_.map (fun m => (s.launch m).suspect)).getD false

/-- A completion report (R174): one write of one sector, and a release at system scope, which carries what the launch's retired courses and
performed copies leave. -/
def State.report (s : State) (n : Nat) (cert : Nat) (t1 t2 : DWord) : State :=
  let l := s.launch n
  let b := s.launch (s.body n)
  (s.writeArea l.done.toNat 32 [(0, 4, l.lid.toNat), (4, 1, (s.statusOf l).toNat), (5, 1, cert), (8, 8, t1.toNat), (16, 8, t2.toNat)]).layRels
    [⟨0, 8, 0, b.sync.table, b.sync.filter⟩] l.done.toNat 32 false

/-- An entry is refused (R377): none of its image is used, so it never certifies. -/
def State.refuse (s : State) (n : Nat) (status : Code) : State :=
  let l := s.launch n
  let tick := s.qtick l.queue
  let s := s.modLaunch n (fun l => { l with status := status, complete := true, tickDone := tick, hdr := ImgHdr.blank })
  (((s.report n 0 tick tick).dropEnt n).leaveQueue n).raiseEventWord l.event

/-- Whether an entry breaks a rule of R168 or R305 by itself. -/
def State.entryBad (s : State) (a : Nat) : Bool :=
  let type := s.num a 0 1
  type == 0 || 3 < type || 16 ≤ s.num a 1 1 || 4 < s.num a 2 1 || s.num a 3 1 != 0 || s.num a 16 8 % 32 != 0 || s.num a 44 20 != 0 ||
  (1024 ≤ s.num a 40 4 && s.num a 40 4 != 0xFFFFFFFF)

/-- The entry at an address, for queue q. -/
def State.readEntry (s : State) (q a : Nat) : Launch :=
  { Launch.blank with
    lid := s.wd a 4, asid := s.qasid q, queue := q, region := BitVec.ofNat 192 (s.num (s.qdesc q) 24 24), type := s.num a 0 1,
    prio := s.num a 1 1 % 8, certDep := ebit (s.num a 1 1) 3, deps := (List.range (min 4 (s.num a 2 1))).map (fun i => s.wd a (24 + 4 * i)),
    image := s.dw a 8, done := s.dw a 16, event := s.wd a 40, arrived := s.qtick q }

/-- Whether a launch of an ASID is placed or queued (R329). -/
def State.busyAsid (s : State) (asid : Nat) : Bool := s.launches.any (fun l => l.asid == asid && !l.complete)

/-- The internal feature byte of an ASID's `ASIDTAB` entry (R312). -/
def State.featByte (s : State) (asid : Nat) : Byte := s.byte (s.dreg64 0x830 + 16 * asid + 9)

/-- The internal feature byte of an ASID is taken over, unless a launch of the ASID is placed or queued (R329). -/
def State.takeFeatures (s : State) (asid : Nat) : State :=
  if s.busyAsid asid then s else { s with featBytes := Sparse.set s.featBytes asid (s.featByte asid) 0 }

/-- An entry arrives: it is refused at once if it breaks R168. -/
def State.arriveEntry (s : State) (q a : Nat) : State :=
  let n := s.launches.length
  let s := s.takeFeatures (s.qasid q)
  let s := { s with launches := s.launches ++ [s.readEntry q a] }
  let x := s.queue q
  let s := s.setQueue q { x with ents := x.ents ++ [n] }
  if s.entryBad a then s.refuse n 0x20 else s

/-- The sequencer re-reads a descriptor: its region, and the entries written since (R313). Head and tail count on without
end; an entry stands at its count modulo the ring's size (log entry 21, DEDUCED). -/
def State.readQueue (s : State) (q : Nat) : State :=
  let d := s.qdesc q
  let size := s.num d 8 4
  let next := s.num d 16 4 + s.inRing q
  let new := (s.num d 12 4 + 2 ^ 33 - next) % 2 ^ 32
  let region := BitVec.ofNat 192 (s.num d 24 24)
  if !ebit (s.num d 22 2) 0 ∨ size = 0 then s
  else
    let s := { s with launches := s.launches.map (fun l => if l.queue = q ∧ !l.complete then { l with region := region } else l) }
    (List.range (min size new)).foldl (fun s i => s.arriveEntry q (s.num d 0 8 + 64 * ((next + i) % size))) s

/-- A doorbell of a queue (R313): the descriptor is read again, then a pass runs. -/
def State.lqbell (s : State) (q : Word) : State :=
  if 63 < q.toNat then s else (s.readQueue q.toNat).later [.placementPass (queueDie q.toNat)]

/-- LQBELL_WRITE (R313). -/
def execLqbellWrite (q : Word) (s : State) : Out := .next (s.lqbell q)

/-! Acceptance (R328, R329). -/

/-- The feature word 0 offered: on a physical function or a virtual one. -/
def State.offered (s : State) (physical : Bool) : Nat := 0xBB + (if physical then 0x40 else 0) + (if s.fabric then 4 else 0)

/-- Entry n of `VFTAB`: the ASID of an enabled virtual function (R312). -/
def State.vfAsid (s : State) (n : Nat) : Option Nat :=
  let e := s.loadNat (s.dreg64 0x834 + 4 * n) 4
  if ebit e 15 then some (e % 2048) else none

/-- The latest accepted word of any function that `VFTAB` binds to an ASID now; 0 before any (R329). -/
def State.functionsAccepted (s : State) (asid : Nat) : DWord :=
  (((s.accepted.filter (fun e => s.vfAsid e.1 == some asid)).getLast?).map Prod.snd).getD 0

/-- What an ASID has accepted, 0 before any acceptance: that of its functions, or the internal feature byte as it was taken over. -/
def State.acceptance (s : State) (asid : Nat) : Nat :=
  if (List.range 256).any (fun n => s.vfAsid n == some asid) then (s.functionsAccepted asid).toNat
  else
    let b := (Sparse.get s.featBytes asid 0).toNat
    if ebit b 0 && (List.range 8).all (fun i => !ebit b i || ebit (s.offered true) i) then b else 0

/-- The features that the image at an address uses (R328). Whether its code or its pages use `PEER` or `CHK`, no field of an image says: that
is open (log entry 101, DESIGN CHOICE). -/
def ImgHdr.features (h : ImgHdr) (image : DWord) : List Nat :=
  0 :: ([2, 5].filter (Config.imageUses image.toNat)) ++ (if h.unified then [1] else []) ++ (if h.snapTab != 0 && h.snapCount != 0 then [3] else []) ++ (if h.graph then [4] else [])

/-! Refusals (R377). -/

/-- The latest earlier launch of the ASID that a dependence names: 'known to the sequencer' is every one that some queue has been read for,
completed ones included (R169; log entry 118, DESIGN CHOICE). -/
def State.depOf (s : State) (n : Nat) (lid : Word) : Option Launch :=
  ((s.launches.take n).filter (fun l => l.lid == lid && l.asid == (s.launch n).asid)).getLast?

/-- A dependence failed, or can never certify when certification is asked for. -/
def State.depFailed (s : State) (n : Nat) : Bool :=
  (s.launch n).deps.any (fun d => match s.depOf n d with
    | some l => (l.complete && s.statusOf l != 0) || ((s.launch n).certDep && s.doubtful l)
    | none => false)

/-- An entry is eligible (R169). -/
def State.eligible (s : State) (n : Nat) : Bool :=
  (s.launch n).deps.all (fun d => match s.depOf n d with
    | some l => if (s.launch n).certDep then l.certified else l.complete
    | none => true)

/-- Whether an entry of a node table breaks R175. -/
def State.nodeBad (s : State) (a : Nat) : Bool :=
  s.num a 12 4 != 0 && (2 < s.num a 0 1 || s.num a 1 1 == 0 || 96 < s.num a 1 1 || 8 ≤ s.num a 3 1 || s.num a 8 2 == 0 || s.num a 10 2 != 0 ||
    s.num a 24 8 != 0 || !s.inHbm (s.num a 16 8) (8 * s.num a 12 4))

/-- A node as its table entry gives it (R175). -/
def State.nodeEntry (s : State) (a : Nat) : Node :=
  if s.num a 12 4 = 0 then Node.none
  else { Node.none with
    size := 32 * 2 ^ s.num a 0 1, target := s.num a 1 1, maxDepth := s.num a 2 1, prio := s.num a 3 1, timer := s.num a 4 4,
    maxFlight := s.num a 8 2, cap := s.num a 12 4, qmem := s.dw a 16 }

/-- Whether a graph's tables and seeds break R175 or R377. -/
def State.graphBad (s : State) (h : ImgHdr) : Bool :=
  let node (i : Nat) : Nat := h.nodeTab.toNat + 32 * i
  let seed := s.nodeEntry (node h.seedNode)
  (List.range 64).any (fun i => s.nodeBad (node i)) || !s.inHbm h.pool.toNat h.poolLen || seed.cap == 0 || seed.cap < h.seedCount || h.poolLen < h.seedCount * (16 + seed.size)

/-- The status with which an entry that has become the head is refused, 0 if it is not. Log entry 39, DEDUCED. -/
def State.headCode (s : State) (n : Nat) : Code :=
  let l := s.launch n
  let h := s.header l.image.toNat
  let acc := s.acceptance l.asid
  if acc = 0 then 0x24
  else if !s.asidBound l.asid || !s.isHbm l.image.toNat || s.headerBad l.image.toNat || s.recordsBad h || h.lid != l.lid || h.asid != l.asid ||
      (l.type == 2) != (h.graph && h.fresh) || (l.type == 3 && h.fresh) then 0x20
  else if (h.features l.image).any (fun i => !ebit acc i) then 0x24
  else if l.type = 2 ∧ s.graphBad h then 0x20
  else 0

/-! Heads (R169). -/

/-- The queue marks its launches as redundant pairs (R386). -/
def State.pairQueue (s : State) (q : Nat) : Bool := ebit (s.dreg64 0x8A8) q

/-- A graph begins: its nodes are set up and the seeds are enqueued at depth 0 (R176). Its entry is unplaced no more from then on, as the Kilns
place its courses: the next entry may be the head (R169; log entry 127, DESIGN CHOICE). -/
def State.startGraph (s : State) (n : Nat) : State :=
  let h := (s.launch n).hdr
  let s := s.modLaunch n (fun l => { l with nodes := tableOf 64 (fun i => s.nodeEntry (h.nodeTab.toNat + 32 * i)) Node.none })
  let size := ((s.launch n).node h.seedNode).size
  let s := (List.range h.seedCount).foldl (fun (s : State) (i : Nat) =>
    let (offs, s) := s.allocRecords n h.seedNode 1
    s.enqueueRec n h.seedNode (offs.headD 0) 0 ⟨0, 0, 0, [], 0⟩ (s.load (h.seeds.toNat + size * i) size)) s
  s.dropEnt n

/-- The eligible entry that becomes the head: of the highest priority, the oldest (R169). -/
def State.nextHead (s : State) (q : Nat) : Option Nat :=
  ((s.queue q).ents.filter s.eligible).foldl (fun b n => match b with
    | none => some n
    | some m => if (s.launch m).prio < (s.launch n).prio then some n else b) none

/-- A queue has a head that is not refused, if any entry of it can be one. -/
def State.settleHead (q : Nat) : Nat → State → State
  | 0, s => s
  | fuel + 1, s =>
    if (s.queue q).head.isSome then s
    else match (s.queue q).ents.find? s.depFailed with
      | some n => State.settleHead q fuel (s.refuse n 0x22)
      | none =>
        match s.nextHead q with
        | none => s
        | some n =>
          let code := s.headCode n
          if code ≠ 0 then State.settleHead q fuel (s.refuse n code)
          else
            let l := s.launch n
            let of_ := if l.type = 3 then (s.launches.take n).findIdx? (fun o => o.lid == l.lid && o.asid == l.asid && !o.complete) else none
            let s := s.modLaunch n (fun l => { l with hdr := s.header l.image.toNat, of_ := of_ })
            if (s.launch n).type = 2 then State.settleHead q fuel (s.startGraph n)
            else s.setQueue q { s.queue q with head := some n }

/-! Room (R28, R163, R170, R172). -/

/-- Register-file bytes of a course (R28). -/
def Course.alloc (c : Course) : Nat := c.vcnt * 384 + c.qcnt * 13824

/-- How many courses of launch n a plane offers places to. -/
def State.offers (s : State) (n w p : Nat) : Nat :=
  let l := s.launch n
  let cs := s.tenants w p
  if (s.plane w p).asid ≠ some l.asid ||
      (l.hdr.carries && cs.any (fun c => c.launch != n && (s.launch c.launch).hdr.carries)) then 0
  else min (32 - cs.length) ((524288 - (cs.map Course.alloc).sum) / l.hdr.alloc)

/-- Whether a queue's blocked head has closed its region (R172). -/
def State.shut (s : State) (q : Nat) (x : LQueue) : Bool :=
  x.closed || (match x.since with | some t => t.toNat + Config.ageLimit ≤ (s.qtick q).toNat | none => false)

/-- Whether a wall accepts courses of a queue: it lies in the region of no other queue that has closed it (R172). -/
def State.accepts (s : State) (q w : Nat) : Bool :=
  s.queues.all (fun e => e.1 == q || !s.shut e.1 e.2 ||
    (match e.2.head with | some m => !(s.launch m).region.getLsbD w | none => true))

/-- The plane of a wall that takes courses of launch n, with the number it takes (R170): the Active plane if it offers a
place, else the Ready one. -/
def State.wallRoom (s : State) (n w : Nat) : Nat × Nat :=
  let l := s.launch n
  if !l.region.getLsbD w || !s.serving w || !s.accepts l.queue w then (0, 0)
  else
    let room (st : PlaneState) : Option (Nat × Nat) :=
      ((s.planesIn w st).map (fun p => (p, s.offers n w p))).find? (fun e => e.2 != 0)
    ((room .active).or (room .ready)).getD (0, 0)

/-- The walls of a bay. -/
def bayWalls (bay : Nat) : List Nat := (List.range 4).map (4 * bay + ·)

/-- The places of k courses in a bay, walls filled in ascending order (R171); with pairs, places for the second members on
other walls follow (R386). None when the bay has not all of them. -/
def State.bayPlaces (s : State) (n bay k : Nat) (pair : Bool) : Option (List (Nat × Nat)) :=
  let xs := (bayWalls bay).flatMap (fun w =>
    let r := s.wallRoom n w
    List.replicate (if pair then min k r.2 else r.2) (w, r.1))
  let need := if pair then 2 * k else k
  if xs.length < need then none else some (xs.take need)

/-! Placing (R163, R171). -/

/-- Plane data of launch n is installed in a plane, once (R163): banks that are off take nothing (R119, R120), and the race tags of what it
replaces are empty (R395; log entry 116, DEDUCED). Log entry 40, DESIGN CHOICE. -/
def State.install (s : State) (n w p : Nat) : State :=
  let h := (s.launch n).hdr
  if !h.carries || (s.plane w p).owner == some n then s
  else
    let s := s.moveBytes h.scratch.toNat h.scratchLen (s.scratch w p 0)
    let s := (s.dropGated w p (s.plane w p).off).clearTags (s.scratch w p 0) h.scratchLen
    s.setPlane w p { s.plane w p with
      chutes := tableOf 16 (fun k => h.chutes.getD k Chute.none) Chute.none, tags := [], rptr := [], owner := some n }

/-- A course of launch n takes a place with a new identity (R125): its first issue comes after its plane has the launch's plane
data. -/
def State.placeCourse (s : State) (n w p : Nat) (twin : Option (Nat × Nat)) (make : DWord → Course) : State :=
  let s := s.install n w p
  let s := match twin with | some t => s.install n t.1 t.2 | none => s
  let c := make (identity 0 s.nextStart)
  let s := { s with nextStart := s.nextStart + 1 }.addCourse w p twin c
  s.modLaunch n (fun l => { l with placed := l.placed + 1, firstPlaced := l.firstPlaced.or (some (s.qtick l.queue)) })

/-- Whether a launch's courses are placed as pairs: as `PAIRQ` stands when the first of them is placed (R386). -/
def State.asPairs (s : State) (n : Nat) : Bool :=
  let l := s.launch n
  if l.placed + l.groups = 0 then s.pairQueue l.queue else l.pairQ

/-- The place that the second member of a redundant pair may take beside a first that stands alone: on another wall of its bay, that of its
last place before the others (R386; log entry 20, DESIGN CHOICE). -/
def State.partnerPlace (s : State) (c : Course) : Option (Nat × Nat) :=
  (((c.twin.map Prod.fst).toList ++ bayWalls (bayOf c.wall)).filter (fun w => w != c.wall && bayOf w == bayOf c.wall)).findSome?
    (fun w => let r := s.wallRoom c.launch w; if r.2 = 0 then none else some (w, r.1))

/-- Whether a resident course's second member has no place. -/
def Course.lonely (c : Course) : Bool := c.sys.isNone && c.resident && !c.retired && c.twin.isSome && c.twinOut

/-- The second member of a pair takes a place again, in a plane that holds the launch's plane data. -/
def State.seatPartner (s : State) (c : Course) : State :=
  match s.partnerPlace c with
  | some (w, p) =>
    (s.install c.launch w p).modWhere (fun o => o.sys.isNone && o.ident == c.ident) (fun o => o.seatTwin (s.seats w p) w p)
  | none => s

/-- The second members of a die's pairs that have no place take one where there is room (R386). -/
def State.seatPartners (s : State) (die : Nat) : State :=
  (s.agents.filter (fun c => c.lonely && dieOf c.wall == die)).foldl State.seatPartner s

/-- The next cluster or course of a fresh launch is placed, in the lowest-numbered bay where it fits; none where it fits
nowhere. -/
def State.placeFresh (s : State) (n : Nat) : Option State :=
  let l := s.launch n
  let pair := s.asPairs n
  let s := s.modLaunch n (fun l => { l with pairQ := pair })
  let k := min (max 1 l.hdr.cluster) (l.hdr.gcnt - l.placed)
  (List.range 48).findSome? (fun bay => (s.bayPlaces n bay k pair).map (fun ps =>
    (List.range k).foldl (fun s i =>
      match ps[i]? with
      | none => s
      | some (w, p) => s.placeCourse n w p (if pair then ps[k + i]? else none) (fun ident =>
          freshCourse l.hdr n ident (BitVec.ofNat 32 (l.placed + i)) 0xFFFFFFFF#32 (BitVec.ofNat 32 l.hdr.gcnt) l.hdr.nthr)) s))

/-- The clusters whose courses a plane record holds. -/
def State.planeClusters (s : State) (h : ImgHdr) (j : Nat) : List Nat :=
  if h.cluster = 0 then [] else ((s.imageRecords h j).map (fun a => s.num a 8 4 / h.cluster)).dedup

/-- Whether two plane records hold courses of one cluster. -/
def State.planesLinked (s : State) (h : ImgHdr) (i j : Nat) : Bool :=
  let cs := s.planeClusters h j
  (s.planeClusters h i).any cs.contains

/-- The planes of a switched-out image that are placed together: those that a cluster spans, as many as a bay has walls (R167). -/
def State.resumeGroups (s : State) (h : ImgHdr) : List (List Nat) :=
  (List.range h.planes).foldl (fun (gs : List (List Nat)) (j : Nat) =>
    match gs.findIdx? (fun g => g.length < 4 && g.any (s.planesLinked h j)) with
    | some i => gs.modify i (fun g => g ++ [j])
    | none => gs ++ [[j]]) []

/-- The bay in which a plane of an image stands or streams in, once it is placed. -/
def State.bayOfRecord (s : State) (l : Launch) (j : Nat) : Option Nat :=
  match s.planes.find? (fun e => match e.2.stream with
      | some ⟨true, some image, i, _, _⟩ => image == l.image && i == j
      | _ => false) with
  | some e => some (bayOf (e.1 / 3))
  | none =>
    (s.agents.find? (fun c => c.sys.isNone && c.resident && c.lid == l.lid && c.asid == l.asid &&
      (s.imageRecords l.hdr j).any (fun a => s.dw a 0 == c.ident))).map (fun c => bayOf c.wall)

/-- The Idle plane of a wall that may take a resumed one (R17). -/
def State.idleFor (s : State) (n w : Nat) : Option Nat :=
  let l := s.launch n
  if !l.region.getLsbD w || !s.serving w || !s.accepts l.queue w || s.readyFull w || !(s.planesIn w .streaming).isEmpty then none
  else (s.planesIn w .idle).head?

/-- Whether a group of planes may go to a bay: the planes placed before that share a cluster with it stand there (R167). -/
def State.bayFor (s : State) (l : Launch) (g : List Nat) (bay : Nat) : Bool :=
  (List.range l.hdr.planes).all (fun j => g.contains j || !g.any (s.planesLinked l.hdr j) ||
    (match s.bayOfRecord l j with | some b => b == bay | none => true))

/-- Whether a bay has a place on another wall for the second member of every course of some planes (R386): `js` are the planes of the image
that come in, each with its wall, its plane and whether it comes for second members alone. -/
def State.twinsFit (s : State) (n bay : Nat) (js : List ((Nat × Bool) × (Nat × Nat))) : Bool :=
  let h := (s.launch n).hdr
  let courses (j : Nat) : Nat := (s.imageRecords h j).length
  let room (w : Nat) : Nat := (s.wallRoom n w).2 + ((js.filter (fun e => e.2.1 == w)).map (fun e =>
    min 32 (524288 / h.alloc) - (if e.1.2 then 0 else courses e.1.1))).sum
  let total := ((bayWalls bay).map room).sum
  let own := js.filter (fun e => !e.1.2)
  (own.map (fun e => courses e.1.1)).sum ≤ total && own.all (fun e => courses e.1.1 ≤ total - room e.2.1)

/-- The next planes of a switched-out image begin to stream in, on walls of one bay (R164, R167). As pairs they go to a bay that has places
for the second members too, beside the first members of other planes or in planes that come in for them alone, as many as the bay's
walls take (R386; log entry 20, DESIGN CHOICE). -/
def State.placeResume (s : State) (n : Nat) : Option State :=
  let l := s.launch n
  let pair := s.asPairs n
  match (s.resumeGroups l.hdr)[l.groups]? with
  | none => none
  | some g =>
    ((List.range 48).filter (s.bayFor l g)).findSome? (fun bay =>
      let ws := (bayWalls bay).filterMap (fun w => (s.idleFor n w).map (fun p => (w, p)))
      let js := (g.map (fun j => (j, false)) ++ (if pair then g.map (fun j => (j, true)) else [])).zip ws
      if ws.length < g.length || (pair && !s.twinsFit n bay js) then none
      else
        let s := js.foldl (fun s e => s.beginIn e.2.1 e.2.2 l.asid (.resume l.image e.1.1 n e.1.2)) s
        some (s.modLaunch n (fun l =>
          { l with groups := l.groups + 1, pairQ := pair, firstPlaced := l.firstPlaced.or (some (s.qtick l.queue)) })))

/-- Whether all courses, or all plane groups, of a head are placed. -/
def State.allPlaced (s : State) (n : Nat) : Bool :=
  let l := s.launch n
  if l.hdr.fresh then l.hdr.gcnt ≤ l.placed else (s.resumeGroups l.hdr).length ≤ l.groups

/-- The queues of a die whose heads are considered, the best first (R171). -/
def State.bestQueue (s : State) (die : Nat) (blocked : List Nat) : Option (Nat × Nat) :=
  ((List.range 16).map (16 * die + ·)).foldl (fun b q =>
    if blocked.contains q then b
    else match (s.queue q).head, b with
      | none, _ => b
      | some n, none => some (q, n)
      | some n, some (_, m) =>
        let x := s.launch n
        let y := s.launch m
        if y.prio < x.prio || (y.prio == x.prio && x.arrived.toNat < y.arrived.toNat) then some (q, n) else b) none

/-- The passes of a die's queues, until every head is placed or blocked (R171, R172). -/
def State.passLoop (die : Nat) : Nat → List Nat → State → State
  | 0, _, s => s
  | fuel + 1, blocked, s =>
    let s := (List.range 16).foldl (fun s k => State.settleHead (16 * die + k) ((s.queue (16 * die + k)).ents.length + 1) s) s
    match s.bestQueue die blocked with
    | none => s
    | some (q, n) =>
      match (if (s.launch n).hdr.fresh then s.placeFresh n else s.placeResume n) with
      | some s =>
        let s := s.setQueue q { s.queue q with since := none, closed := false }
        State.passLoop die fuel blocked (if s.allPlaced n then s.dropEnt n else s)
      | none =>
        let x := s.queue q
        State.passLoop die fuel (q :: blocked) (s.setQueue q { x with since := x.since.or (some (s.qtick q)) })

/-! Planes that a failed wall has lost (R382). -/

/-- Whether a course of another place belongs to a cluster of some courses. -/
def State.clusterElsewhere (s : State) (cs : List Course) : Bool :=
  cs.any (fun c =>
    let k := (s.launch c.launch).hdr.cluster
    k != 0 && s.agents.any (fun o => o.sys.isNone && o.launch == c.launch && !o.retired && !cs.any (fun x => x.ident == o.ident) &&
      o.cid.toNat / k == c.cid.toNat / k))

/-- A plane whose wall failed is resumed on another wall of its launch's region (R382), in its bay where a cluster spans it, or where it held
only second members of pairs, and on none where the other member of one of its pairs stands or stood last (R386); its launch is that of a
course that stood there. -/
def State.rehomePlane (s : State) (key : Nat) : State :=
  let from_ := key - 2 ^ 60
  let old := from_ / 3
  let cs := s.agents.filter (fun c => c.moving && 3 * c.wall + c.plane == from_)
  let twins := s.agents.filter (fun c => c.lonely && c.twin == some (old, from_ % 3))
  match cs ++ twins with
  | [] => s
  | c :: _ =>
    let others := cs.filterMap (fun c => c.twin.map Prod.fst) ++ twins.map (fun c => c.wall)
    let ws := (List.range 192).filter (fun w => w != old && !others.contains w &&
      (!(cs.isEmpty || s.clusterElsewhere cs) || bayOf w == bayOf old))
    let near := ws.filter (fun w => bayOf w == bayOf old)
    match (near ++ ws).findSome? (fun w => (s.idleFor c.launch w).map (fun p => (w, p))) with
    | none => s
    | some (w, p) => s.beginIn w p c.asid (.moveIn from_)

/-- The planes that wait to be resumed and are not yet being streamed in. -/
def State.homeless (s : State) : List Nat :=
  (s.shelf.filter (fun e => 2 ^ 60 ≤ e.1 && !s.planes.any (fun p => match p.2.stream with
    | some ⟨true, none, from_, _, _⟩ => 2 ^ 60 + from_ == e.1
    | _ => false))).map Prod.fst

/-- PLACEMENT_PASS (R171): the pass of a die's sequencer; planes of failed walls are resumed first, and second members of pairs that have no
place take one. -/
def execPlacementPass (die : Nat) (s : State) : Out :=
  .next (
    let s := ((s.homeless.filter (fun k => dieOf ((k - 2 ^ 60) / 3) == die)).foldl State.rehomePlane s).seatPartners die
    State.passLoop die (65537 * ((s.queues.map (fun e => e.2.ents.length)).sum + 1)) [] s)

/-- HEAD_AGE_EXPIRE (R172). -/
def execHeadAgeExpire (q : Nat) (s : State) : Out :=
  .next (let x := s.queue q; if s.shut q x then s.setQueue q { x with closed := true } else s)

/-! Retirement and completion. -/

/-- Whether a course may retire (R39): one that is streamed out may too, and its flags are zero then (R167). -/
def Course.spent (c : Course) : Bool :=
  c.sys.isNone && (c.resident || c.savedAt.isSome) && !c.retired && c.endA && c.endC && c.trap.isNone && (List.range 12).all (fun f => c.flag f == 0)

/-- Retired courses whose unflagged work is done are no longer held; where they resided is remembered (R19). -/
def State.tidy (s : State) : State :=
  let gone (c : Course) : Bool := c.retired && c.work.isEmpty
  let s := (s.parked.filter gone).foldl State.remember s
  { s with parked := s.parked.filter (fun c => !gone c) }

/-- The launch once one of its courses has retired: a cancelled operation whose trap no instruction took is its failure (R367), the
course's reservations and its place at its node are given back (R177, R278), and its report will carry what the course releases. -/
def Launch.retire (l : Launch) (c : Course) (rel : Carry) : Launch :=
  let l := if c.cancelled = [] then l else l.failed 0x43
  let l := { l with retired := l.retired + 1, sync := l.sync.acquire 0 rel,
                    nodes := (l.nodes.map (fun (e : Nat × Node) => (e.1, e.2.setResv c.ident []))) }
  if c.nid = 0xFFFFFFFF#32 then l
  else
    let x := l.node c.nid.toNat
    l.setNode c.nid.toNat { x with flight := x.flight - 1 }

/-- The pool offsets of the records that a course holds and of those it has reserved (R176, R278). -/
def Launch.offsetsOf (l : Launch) (c : Course) : List Nat :=
  c.held.map (fun e => e.2.off) ++ l.nodes.flatMap (fun e => e.2.resvAt c.ident)

/-- COURSE_RETIRE (R39, R178, R278, R388): its records and reservations are returned, its keys are dropped, and it is no agent any
more. -/
def execCourseRetire (who : DWord) (s : State) : Out :=
  .next (match s.focus who with
    | none => s
    | some f =>
      if !f.cur.spent then s
      else
        let c := f.cur
        let f := if c.resident then f.leaveGang else f
        let f := f.freeRecords c.launch ((f.launch c.launch).offsetsOf c)
        let (rel, f) := f.releaseC 8
        let f := f.modLaunch c.launch (fun l => l.retire c rel)
        let f := { f with keys := f.keys.filter (fun e => e.2.1 != c.ident) }
        let f := f.note c 4 c.pcA
        let f := f.modC (fun c => { c with resident := false, retired := true, queues := [], held := [], hold := .none, damaged := [] })
        f.tidy.passes)

/-- Whether every course of a launch has retired and no record waits (R173, R178). -/
def State.allRetired (s : State) (n : Nat) : Bool :=
  let l := s.launch n
  !(s.queue l.queue).ents.contains n && l.nodes.all (fun e => e.2.pending.isEmpty) &&
  s.agents.all (fun c => c.sys.isSome || c.retired || !(c.launch == n || (!l.hdr.fresh && c.lid == l.lid && c.asid == l.asid))) &&
  s.planes.all (fun e => match e.2.stream with
    | some ⟨true, some image, _, _, _⟩ => image != l.image
    | _ => true)

/-- LAUNCH_COMPLETE (R173, R178, R350): the report, the time record, the event. A snapshot domain that is not committed keeps its
committed bytes (R180). -/
def execLaunchComplete (n : Nat) (s : State) : Out :=
  .next (
    let l := s.launch n
    let b := s.launch (s.body n)
    if s.launches.length ≤ n || l.complete || !s.allRetired n || !l.outst.isEmpty || !b.outst.isEmpty then s
    else
      let tick := s.qtick l.queue
      let s := if l.snapOpen then s.rollback n else s
      let s := s.modLaunch n (fun l => { l with complete := true, tickDone := tick, snapOpen := false })
      let s := s.report n 0 tick 0
      let s := s.writeArea (l.done.toNat + 32) 64
        [(0, 4, l.lid.toNat), (4, 4, l.placed), (8, 8, (l.firstPlaced.getD 0).toNat), (16, 8, tick.toNat), (24, 8, b.cycActive.toNat),
         (32, 8, b.cycA.toNat), (40, 8, b.cycC.toNat), (48, 8, b.cycHeld.toNat), (56, 8, b.cycHalt.toNat)]
      ((s.leaveQueue n).raiseEventWord l.event).passes)

/-- LAUNCH_CERTIFY (R174, R383): every wall that ran one of its instructions has passed a scan that began after its last one. -/
def execLaunchCertify (n : Nat) (s : State) : Out :=
  .next (
    let l := s.launch n
    if s.launches.length ≤ n || !l.complete || l.certified || s.doubtful l || l.hdr.nthr == 0 ||
        (s.ranOf n).any (fun e => (s.wall e.1).lastScan.toNat ≤ e.2.toNat) then s
    else
      let s := s.modLaunch n (fun l => { l with certified := true })
      ((s.report n 1 l.tickDone (s.qtick l.queue)).raiseEventWord l.event).passes)

/-! Queue reset (R390). -/

/-- The courses of a launch that are live. -/
def State.coursesOf (s : State) (n : Nat) : List Course :=
  s.agents.filter (fun c => c.sys.isNone && c.launch == s.body n && !c.retired && c.lid == (s.launch n).lid)

/-- A placed launch of a queue that is reset: its courses are terminated, each traced one with a last `TS` packet, its waiting
records are dropped, and it reports 0x43 unless it has failed already. -/
def State.resetLaunch (s : State) (n : Nat) : State :=
  let s := (s.coursesOf n).foldl (fun s c => s.within c.ident State.resetCourse) s
  let waiting := (s.launch n).nodes.flatMap (fun e => e.2.pending.map (fun r => r.off))
  let reported := s.statusOf (s.launch n)
  (s.modLaunch n (fun l => { (if reported = 0 then l.failed 0x43 else l) with nodes := l.nodes.map (fun e => (e.1, { e.2 with pending := [] })), pool := l.pool.filter (fun e => !waiting.contains e.1), left := true })).dropEnt n

/-- LQRST_WRITE (R390): placement from the queue stops, each unplaced entry, those that its ring still holds among them, is reported with
0x20, each placed launch's courses are terminated, and the descriptor's head is set equal to its tail. -/
def execLqrstWrite (q : Word) (s : State) : Out :=
  .next (
    let qi := q.toNat
    if 63 < qi then s
    else
      let s := s.readQueue qi
      let ns := (List.range s.launches.length).filter (fun n => (s.launch n).queue == qi && !(s.launch n).complete)
      let s := ns.foldl (fun s n =>
        if (s.queue qi).ents.contains n ∧ (s.launch n).placed + (s.launch n).groups = 0 then s.refuse n 0x20 else s.resetLaunch n) s
      let d := s.qdesc qi
      (s.setQueue qi LQueue.zero).storeNat (d + 16) 4 (s.num d 12 4))

/-! Doorbells of clients (R327). -/

/-- An answer goes out to a link or to the fabric. -/
def State.answer (s : State) (x : BusAns) : State := { s with busOut := s.busOut ++ [x] }

/-- A function rings a queue (R326, R327): one of its own ASID; any other write is dropped. A disabled function answers Unsupported
Request. -/
def State.qbell (s : State) (vf : Nat) (q : Word) : State :=
  if 255 < vf then s
  else match s.vfAsid vf with
    | some a => if q.toNat ≤ 63 ∧ s.qasid q.toNat = a then s.lqbell q else s
    | none => s.answer .unsupported

/-- QBELL_WRITE (R326, R327). Held at step 1 of boot the device serves no host (R391). -/
def execQbellWrite (vf : Nat) (q : Word) (s : State) : Out := .next (if s.monitor.bootStep = 1 then s else s.qbell vf q)

end Sys2Proof.Machine
end

