-- ==== Sys2Proof/Machine/Kiln.lean ====
section
/-! DEFINITION. The Kilns: timers and launches of node courses (R175 to R177), and the exhaustion of a graph (R379). -/

namespace Sys2Proof.Machine

/-- The yard whose Kiln serves a node (R175). -/
def Node.yard (x : Node) : Nat := homeYard x.qmem.toNat

/-- Whether the oldest pending record has waited the timer (R177). -/
def State.timedOut (s : State) (x : Node) : Bool :=
  match x.pending with
  | [] => false
  | r :: _ => r.tick.toNat + x.timer ≤ (s.count x.die).toNat

/-- KILN_TIMER_EXPIRE (R177). -/
def execKilnTimerExpire (n node : Nat) (s : State) : Out :=
  .next (
    let x := (s.launch n).node node
    if s.timedOut x ∧ !x.expired then s.modLaunch n (fun l => l.setNode node { x with expired := true }) else s)

/-- Condition 1 of R177. -/
def State.due (s : State) (x : Node) : Bool :=
  !x.pending.isEmpty && (x.target ≤ x.pending.length || x.expired || s.timedOut x)

/-- The wall on which a node's next course goes (R177): of the Kiln's own yard in ascending number, then any other; for a pair, one
whose bay has room on another wall too, the lowest-numbered of which takes the second member (R386). -/
def State.kilnWall (s : State) (n : Nat) (x : Node) : Option ((Nat × Nat) × Option (Nat × Nat)) :=
  let own := (List.range 12).map (12 * x.yard + ·)
  let others := (List.range 192).filter (fun w => yardOf w != x.yard)
  let room (w : Nat) : Option (Nat × Nat) :=
    let r := s.wallRoom n w
    if r.2 = 0 then none else some (w, r.1)
  (own ++ others).findSome? (fun w => (room w).bind (fun e =>
    if s.asPairs n then (((bayWalls (bayOf w)).filter (fun o => o != w)).findSome? room).map (fun t => (e, some t)) else some (e, none)))

/-- Whether a node may launch a course (R177). -/
def State.mayLaunch (s : State) (n node : Nat) : Bool :=
  let l := s.launch n
  let x := l.node node
  !l.complete && x.cap != 0 && s.due x && decide (x.flight < x.maxFlight) && (s.kilnWall n x).isSome

/-- Whether another node of the same Kiln goes first (R177): of higher priority, or of equal priority and a lower number. -/
def State.outranked (s : State) (n node : Nat) : Bool :=
  let x := (s.launch n).node node
  (List.range s.launches.length).any (fun m => (s.launch m).nodes.any (fun e =>
    e.2.yard == x.yard && (x.prio < e.2.prio || (e.2.prio == x.prio && decide (e.1 < node))) && s.mayLaunch m e.1))

/-- KILN_LAUNCH (R177): the course takes the oldest records, one for each of its threads. -/
def execKilnLaunch (n node : Nat) (s : State) : Out :=
  .next (
    let l := s.launch n
    let x := l.node node
    if !s.mayLaunch n node || s.outranked n node then s
    else match s.kilnWall n x with
      | none => s
      | some ((w, p), twin) =>
        let rs := x.pending.take 96
        let pair := s.asPairs n
        let s := s.modLaunch n (fun l => { l with pairQ := pair })
        let held := rs.zipIdx.map (fun e => (e.2, e.1))
        let s := s.placeCourse n w p twin (fun ident =>
          { freshCourse l.hdr n ident (BitVec.ofNat 32 x.nextCid) (BitVec.ofNat 32 node) 0xFFFFFFFF#32 rs.length with
            held := held, depths := (held.map (fun e => (e.1, e.2.depth))).filter (fun e => e.2 != 0) })
        s.modLaunch n (fun l => l.setNode node
          { x.dequeue rs.length with flight := x.flight + 1, nextCid := x.nextCid + 1, expired := false }))

/-! Exhaustion (R379). -/

/-- Whether a word of the focused course comes as far as its own part: its flags are clear and none is full, no cancelled operation is waited
on, and its entries stand (R33, R34, R367). -/
def Course.comesTo (c : Course) (k : Ctl) (pops : List (Nat × Nat)) : Bool :=
  c.flagsClear k.wait && !c.cancelled.any (fun f => k.wait.getLsbD f) && c.queuesReady { pops := pops } && !c.flagFull (sigFlag k) &&
  c.nid != 0xFFFFFFFF#32

/-- The node that a record instruction names (R278, R279), if it is one that waits for record room: no trap of its own comes before. -/
def State.roomless (s : State) (i : Instr) : Option Nat :=
  let c := s.cur
  let l := s.myLaunch
  match i with
  | .ralloc k _ ra rb =>
    let n := (c.S rb.toNat).toNat
    (match l.nodeAt (c.S ra.toNat) with
    | some (i, x) =>
      let have_ := x.resvOf c.ident
      let others := (l.nodes.filter (fun e => e.1 != i && e.2.resvOf c.ident != 0)).length
      if c.comesTo k [] && !(x.cap < have_ + n || (have_ == 0 && n != 0 && 8 ≤ others)) && n != 0 && !l.hasRoom i n then some i else none
    | none => none)
  | .remit k ra q res =>
    let e := c.popped (4 + q.toNat) 0
    let ts := e.threads c.live
    (match l.nodeAt (c.S ra.toNat) with
    | some (i, x) =>
      if res = 0 && c.comesTo k [(4 + q.toNat, 1)] && !ts.any (fun t => x.maxDepth < Sparse.get c.depths t 0 + 1) && ts.length ≤ x.cap &&
          ts.all (fun t => (spOffset (e.word t) 32).isSome) && ts != [] && !l.hasRoom i ts.length then some i else none
    | none => none)
  | _ => none

/-- The node for whose room a course waits in its address stream: it neither sleeps nor is halted there (R342, R379). -/
def State.waitsAt (s : State) (c : Course) : Option Nat :=
  match s.focus c.ident with
  | none => none
  | some f =>
    let st := c.streamOf true
    if c.ended st || c.trap.isSome || c.halted || c.hold != .none then none
    else match (f.nextWord st).1 with
      | .instr i => f.roomless i
      | _ => none

/-- GRAPH_EXHAUSTED (R379): every resident course of the graph waits for record room, and every node with pending records has all
the courses it may have: the waiting instructions take 0x67. -/
def execGraphExhausted (n : Nat) (s : State) : Out :=
  .next (
    let l := s.launch n
    let cs := (s.coursesOf n).filter (fun c => c.resident)
    if l.complete || !l.hdr.graph || cs.isEmpty || cs.any (fun c => (s.waitsAt c).isNone) ||
        l.nodes.any (fun e => !e.2.pending.isEmpty && decide (e.2.flight < e.2.maxFlight)) then s
    else cs.foldl (fun s c =>
      match s.waitsAt c with
      | none => s
      | some node => s.within c.ident (fun s =>
          let st := s.cur.streamOf true
          (s.nextWord st).2.trapAt st { code := 0x67, detail := BitVec.ofNat 64 (6 + node * 2 ^ 8) })) s)

end Sys2Proof.Machine
end

