-- ==== Sys2Proof/Machine/Plumb.lean ====
section
/-! DEFINITION. The Plumb: drains and scans (R174), failures and suspect results (R382 to R384), retirement of walls and repair
(R13, R385). -/

namespace Sys2Proof.Machine

/-- Ticks of a 40 µs scan on a die counter (R4, R174). -/
abbrev scanTicks : Nat := 96000

/-- The suspect ring receives a record of a failure at a tick (R383), written, dropped and signalled as R364 lays down. -/
def State.suspectRecord (s : State) (kind : Nat) (pattern : Byte) (at_ : DWord) (w asid : Nat) (lid : Word) : State :=
  let size := (s.dreg 0x8A2).toNat
  let head := s.dreg 0x8A3
  if size = 0 then s
  else if (head - s.dreg 0x8A4).toNat = size then
    s.setDreg 0x8A5 (if s.dreg 0x8A5 = 0xFFFFFFFF#32 then 0xFFFFFFFF#32 else s.dreg 0x8A5 + 1)
  else
    let x := s.wall w
    let bs := bytesLE 1 kind ++ bytesLE 1 pattern.toNat ++ bytesLE 2 w ++ bytesLE 1 (x.phys.getD (w % 48)) ++ bytesLE 1 (dieOf w) ++ bytesLE 2 asid ++
      bytesLE 4 lid.toNat ++ bytesLE 4 0 ++ bytesLE 8 at_.toNat ++ bytesLE 8 x.lastScan.toNat
    ((s.releaseStore 0 8 (s.dreg64 0x8A0 + 32 * (head.toNat % size)) bs).setDreg 0x8A3 (head + 1)).raiseEventWord (s.dreg 0x8A6)

/-- The wall of a bay that is drained next (R174): in ascending order, those out of service passed over. -/
def State.nextDrain (s : State) (bay : Nat) : Option Nat :=
  let from_ := Sparse.get s.rota bay 0
  (((List.range 4).map (fun i => (from_ + i) % 4)).find? (fun k => s.serving (4 * bay + k))).map (4 * bay + ·)

/-- PLUMB_DRAIN (R17, R174): one wall of the bay at a time leaves service; its Active plane is Ready, held. -/
def execPlumbDrain (bay : Nat) (s : State) : Out :=
  .next (
    if (bayWalls bay).any (fun w => (s.wall w).service == .drained || (s.wall w).service == .retest) then s
    else match s.nextDrain bay with
      | none => s
      | some w =>
        let s := s.deactivate w true
        let s := { s with rota := Sparse.set s.rota bay ((w % 4 + 1) % 4) 0 }
        (s.setWall w { s.wall w with service := .drained, scanStart := s.count (dieOf w) }).passes)

/-- Whether a wall's scan has run its time. -/
def State.scanned (s : State) (w : Nat) : Bool := (s.wall w).scanStart.toNat + scanTicks ≤ (s.count (dieOf w)).toNat

/-- Whether the planes of a failed wall have left it: a second scan follows only then (R382). -/
def State.cleared (s : State) (w : Nat) : Bool := (List.range 3).all (fun p => (s.seats w p).isEmpty && (s.plane w p).st != .streaming)

/-- PLUMB_SCAN_PASS (R174, R382): the wall returns to service; once a second scan has passed, with a record of the failure before it (R383). -/
def execPlumbScanPass (w : Nat) (s : State) : Out :=
  .next (
    let x := s.wall w
    if (x.service ≠ .drained ∧ x.service ≠ .retest) ∨ !s.scanned w ∨ (x.service = .retest ∧ !s.cleared w) then s
    else
      let s := if x.service = .retest then s.suspectRecord 2 x.failure.1 x.failure.2 w 0 0 else s
      ((s.setWall w { s.wall w with service := .inService, lastScan := x.scanStart }).lifeAdd 3 1).passes)

/-- A launch that ran an instruction on a failing wall since its last passed scan and is not certified is suspect (R383). -/
def State.suspectLaunch (s : State) (w : Nat) (pattern : Byte) (n : Nat) : State :=
  let l := s.launch n
  if l.certified || !(s.ranOf n).any (fun e => e.1 == w && decide ((s.wall w).lastScan.toNat < e.2.toNat)) then s
  else
    let s := s.modLaunch n (fun l => { (if s.statusOf l = 0 then l.failed 0x81 else l) with suspect := true })
    let s := s.suspectRecord 1 pattern (s.count (dieOf w)) w l.asid l.lid
    if l.complete then (s.report n 0 l.tickDone 0).raiseEventWord l.event else s

/-- PLUMB_SCAN_FAIL (R382, R383, R384): launches are suspect, waiting commits roll back, the wall's resident planes are to be
streamed out, and a second scan follows. -/
def execPlumbScanFail (w : Nat) (pattern : Byte) (s : State) : Out :=
  .next (
    if (s.wall w).service ≠ .drained ∨ !s.scanned w then s
    else
      let s := (List.range s.launches.length).foldl (fun s n => s.suspectLaunch w pattern n) s
      let s := s.failCommits w
      let s := (s.planesIn w .ready).foldl (fun s p =>
        if (s.seats w p).isEmpty then s
        else s.setPlane w p { s.plane w p with stream := some .moveOut }) s
      let now := s.count (dieOf w)
      (s.setWall w { s.wall w with service := .retest, scanStart := now, failure := (pattern, now) }).lifeAdd 4 1)

/-- The channels of a wall that is retired are agents no more: where they stood is remembered (R19, R125). -/
def State.rememberChans (s : State) (w : Nat) : State :=
  let hs := ((s.wall w).chans.map (fun (e : Nat × Chan) => e.2)).filter (fun h => h.ident != 0)
  { s with past := s.past ++ hs.map (fun h => (h.ident, { wall := some w, plane := h.plane })) }

/-- WALL_RETIRE (R385): the second scan fails, with commits that wait on the wall rolled back (R384), and the resident planes are gone. A free
spare of the die takes the number, its planes Idle and empty; its place in the die and its pattern of the second scan are open values (log
entry 22, DESIGN CHOICE). A pass follows (R171). -/
def execWallRetire (w : Nat) (s : State) : Out :=
  .next (
    if (s.wall w).service ≠ .retest ∨ !s.scanned w ∨ !s.cleared w then s
    else
      let d := s.die (dieOf w)
      let now := s.count (dieOf w)
      let (pat, s) := s.draw
      let pat := BitVec.ofNat 8 pat
      let s := ((((s.failCommits w).suspectRecord 3 pat now w 0 0).lifeAdd 4 1).lifeAdd 5 1).passes
      let gone := ([0, 1, 2].foldl (fun s p => s.setPlane w p Plane.zero) s).rememberChans w
      if d.spares = 0 then (gone.setWall w { s.wall w with service := .retired, cache := [], pcache := [] }).revealAll
      else
        let s := (gone.blank (s.scratch w 0 0) (3 * 0x100000)).clearTags (s.scratch w 0 0) (3 * 0x100000)
        let s := s.setDie (dieOf w) { d with spares := d.spares - 1 }
        let m := s.monitor
        let s := { s with monitor := { m with lifeNow := Sparse.set m.lifeNow 6 ((List.range 4).map (fun k => (s.die k).spares)).sum 0 } }
        let s := s.setWall w { Wall.zero with service := .spare, phys := some (50 - d.spares), lastScan := (s.wall w).lastScan }
        (s.suspectRecord 4 pat now w 0 0).revealAll)

end Sys2Proof.Machine
end

