-- ==== Sys2Proof/Machine/Scalar.lean ====
section
/-! DEFINITION. Uniform accesses: `LDU`, `STU` (R210), `AMO`, `CAS` (R215, R216), with the register space of region 11 that system
cores reach (R315). -/

namespace Sys2Proof.Machine

/-! Route 1 of R210. -/

/-- Every stale register of the focused agent is re-translated (R157, R210). -/
def State.refreshAll (s : State) : State := (List.range 8).foldl State.refresh s

/-- Whether a translation register covers a whole access (R156). -/
def BReg.covers (r : BReg) (va w : Nat) : Bool := (BitVec.ofNat 64 va - r.base).toNat + w ≤ r.lim.toNat

/-- The lowest-numbered register that covers an access, at the address the access has in its mode (R138, R210). -/
def State.coveredBy (s : State) (va w : Nat) : Option BReg :=
  ((List.range 8).map s.cur.B).find? (fun r =>
    r.covers (if r.mode then va else shadowMove s.shadows s.cur.ctx.asid va true) w)

/-- The lanes of a uniform access: one, but two for a plain access of a system core that crosses a sector, since the
trap of R129 is for courses (R358). -/
def uniformLanes (split : Bool) (va w : Nat) : List Lane :=
  if split && crosses va w then
    let n := 32 - va % 32
    [⟨0, va, n⟩, ⟨1, va + n, w - n⟩]
  else [⟨0, va, w⟩]

/-! Region 11 (R315). -/

/-- The core and the register index at a place of region 11 of this device; none elsewhere. -/
def State.regPlace (s : State) (p : Place) : Option (Nat × Nat) :=
  if rgn p.pa = 3 ∧ s.isLocal p.pa then
    some (rgnOff p.pa / 2 ^ 20 * 4 + rgnOff p.pa / 2 ^ 16 % 16, rgnOff p.pa % 2 ^ 16 / 4)
  else none

/-- What a place reads as: a register of a core, or memory. -/
def State.peek (s : State) (p : Place) : Nat :=
  match s.regPlace p with
  | none => s.valueAt p
  | some (n, i) =>
    match s.agents.find? (fun c => match c.sys with | some y => y.core == n | none => false) with
    | none => 0
    | some c => (if i < 0x800 then s.readLow c i else match c.sys with | some y => s.readHigh y i | none => 0).toNat

/-- A register of a core written through region 11. -/
def State.poke (s : State) (n i x : Nat) : State :=
  if i < 0x800 then
    s.modAll (fun c => match c.sys with
      | some y => if y.core = n then c.write (.record (4 * (i % 256 / 16) + i % 16) (BitVec.ofNat 32 x)) else c
      | none => c)
  else s.writeHigh n i (BitVec.ofNat 32 x)

/-- Values stored at places: to registers of region 11, and to memory. -/
def State.putAll (s : State) (h : How) (ps : List (Place × Nat)) : State :=
  let s := ps.foldl (fun s e => match s.regPlace e.1 with | some (n, i) => s.poke n i e.2 | none => s) s
  s.storeAll h (ps.filter (fun e => (s.regPlace e.1).isNone))

/-- Whether values put at places would write `TRACK` as R357 forbids the focused core: an illegal instruction (0x64), for a store as for
`SWR` (log entry 136, DEDUCED). -/
def State.putBad (s : State) (ps : List (Place × Nat)) : Bool :=
  ps.any (fun e => match s.regPlace e.1, s.cur.sys with
    | some (_, i), some y => i == 0x884 && s.trackBad y (BitVec.ofNat 32 e.2)
    | _, _ => false)

/-! Uniform accesses. -/

/-- A uniform access: routed, checked and ready to take effect at its places; a fault marks no thread (R356). -/
def State.uniform (s0 : State) (route1 : Bool) (va w : Nat) (h : How)
    (wr : State → List Place → List Place) (f : State → List Place → Res) : Res :=
  let s := if route1 then s0.refreshAll else s0
  let reg := if route1 then s.coveredBy va w else none
  let ls := uniformLanes (s.cur.sys.isSome && !h.atomic) va w
  match s.reachW { s.cur.ctx with w := w, acc := h.acc } reg h ls wr with
  | .trap s t => .trap s { t with fmask := 0 }
  | .wait => .wait s0
  | .ok s ps _ => f s ps
  | .lost s ps _ => s.lose ps 0 (f s ps)

/-- The values of the lanes of a uniform access, put together little-endian. -/
def joinValues (ps : List (Place × Nat)) : Nat :=
  (ps.foldl (fun acc e => (acc.1 + e.2 * 2 ^ (8 * acc.2), acc.2 + e.1.w)) (0, 0)).1

/-- A value cut into the lanes of a uniform access. -/
def cutValue (ps : List Place) (x : Nat) : List (Place × Nat) :=
  (ps.foldl (fun acc p => (acc.1 ++ [(p, x / 2 ^ (8 * acc.2) % 2 ^ (8 * p.w))], acc.2 + p.w)) ([], 0)).1

/-- The writes of a loaded value (R210). -/
def loadWrites (rd w v : Nat) : List RegWrite :=
  if w = 8 then pairWrites rd (BitVec.ofNat 64 v) else [.s rd (BitVec.ofNat 32 v)]

/-- The register operand of an access of w bytes (R210, R216). -/
def Course.wide (c : Course) (w n : Nat) : Nat := if w = 8 then (c.S64 n).toNat else (c.S n).toNat

/-- LDU (R210). -/
def execLdu (k : Ctl) (sz : BitVec 2) (rd : BitVec 6) (bp : BitVec 5) (ord : BitVec 1) (imm : BitVec 24) (s : State) : Out :=
  execA k (fun s0 =>
    let w := szBytes sz
    let va := (s0.cur.S64 (2 * bp.toNat) + imm.signExtend 64).toNat
    s0.uniform (ord == 1) va w { acc := { rd := true } } (fun _ _ => []) (fun s ps =>
      let v := joinValues (ps.map (fun p => (p, s.peek p)))
      .done s { lat := none, writes := loadWrites rd.toNat w v, act := s.memAct ps false (sigFlag k) })) s

/-- STU (R210). -/
def execStu (k : Ctl) (sz : BitVec 2) (rd : BitVec 6) (bp : BitVec 5) (ord : BitVec 1) (imm : BitVec 24) (s : State) : Out :=
  execA k (fun s0 =>
    let w := szBytes sz
    let va := (s0.cur.S64 (2 * bp.toNat) + imm.signExtend 64).toNat
    let h : How := { acc := { wr := true } }
    s0.uniform (ord == 1) va w h (fun _ ps => ps) (fun s ps =>
      let act := s.memAct ps true (sigFlag k)
      let vs := cutValue ps (s0.cur.wide w rd.toNat)
      if s.putBad vs then .trap s0 { code := 0x64 }
      else .done ((s.putAll h vs).countOut act) { lat := none, act := act })) s

/-- A uniform atomic (R216): `f` gives the value written from the old one; the old value is returned when `ret`. A
register of region 11 is read and written like a word of memory. -/
def State.uatomic (s0 : State) (va w : Nat) (h : How) (rd : Nat) (ret : Bool) (f : Nat → Option Nat) : Res :=
  s0.uniform true va w h (fun s ps => planWrites (s.rmwPlan (fun _ => f) ps)) (fun s ps =>
    if s.keysFull ps then .wait s0
    else
      let es := if ps.any (fun p => (s.regPlace p).isSome) then ps.map (fun p => (p, s.peek p, f (s.peek p)))
        else s.rmwPlan (fun _ => f) ps
      let o := joinValues (es.map (fun e => (e.1, e.2.1)))
      let regPs := es.filter (fun e => (s.regPlace e.1).isSome)
      let regVs := regPs.filterMap (fun e => e.2.2.map (fun x => (e.1, x)))
      if s.putBad regVs then .trap s0 { code := 0x64 }
      else
      let s := s.putAll h regVs
      let memPs := es.filter (fun e => (s.regPlace e.1).isNone)
      let s' := (if h.acc.rd then s.rmwAll h memPs
        else s.storeAll h (memPs.filterMap (fun e => e.2.2.map (fun x => (e.1, x))))).keyed memPs
      .done s' { lat := none, writes := if ret then loadWrites rd w o else [], act := s.memAct ps false none })

/-- Bytes of an atomic (R215). -/
def atomicBytes (op : BitVec 5) : Nat := if op.getLsbD 4 then 8 else 4

/-- AMO (R215, R216): `.ld` writes nothing, `.st` reads nothing. -/
def execAmo (k : Ctl) (rd : BitVec 6) (bp : BitVec 5) (kind : BitVec 3) (scope : BitVec 4) (op : BitVec 5) (rb : BitVec 6)
    (s : State) : Out :=
  execA k (fun s =>
    let w := atomicBytes op
    let o := op.toNat % 16
    let a := s.cur.wide w rb.toNat
    let h : How := { How.atomicRmw kind scope with acc := { rd := o != 12, wr := o != 11 } }
    s.uatomic (s.cur.S64 (2 * bp.toNat)).toNat w h rd.toNat (o != 12)
      (fun old => if o = 11 then none else some (amoNew o w old a))) s

/-- CAS (R216). -/
def execCas (k : Ctl) (rd : BitVec 6) (bp : BitVec 5) (kind : BitVec 3) (scope : BitVec 4) (op : BitVec 5) (rb : BitVec 6)
    (s : State) : Out :=
  execA k (fun s =>
    let w := atomicBytes op
    let want := s.cur.wide w rd.toNat
    let new := s.cur.wide w rb.toNat
    s.uatomic (s.cur.S64 (2 * bp.toNat)).toNat w (How.atomicRmw kind scope) rd.toNat true
      (fun old => if old = want then some new else none)) s

end Sys2Proof.Machine
end

