-- ==== Sys2Proof/Machine/Bus.lean ====
section
/-! DEFINITION. The memory side of the device: cache and DRAM events (R105, R122, R365, R366), walks and fills of their own
(R150, R200), clocks and promises (R112), the fabric (R330, R376), clients (R151, R326, R363) and keys (R388). -/

namespace Sys2Proof.Machine

/-! Caches and DRAM. -/

/-- BAY_CACHE_WRITEBACK (R105): a dirty sector of a bay's slice is merged at its home yard with the stored granule, whose check bits are
encoded again, and is clean. -/
def execBayCacheWriteback (bay sector : Nat) (s : State) : Out :=
  .next (match s.wayOf bay (sector / 4) with
    | some w =>
      let x := s.bayLine bay (sector / 4) w
      if hasBit x.dirty (sector % 4) then
        (s.mergedHome [sector]).setLine bay (sector / 4) w { x with dirty := x.dirty - 2 ^ (sector % 4) }
      else s
    | none => s)

/-- What the read of a granule from HBM comes to (R365, R366), for the sectors that its home yard holds the newest bytes of: a fill from a
poisoned granule poisons all of them and is no new error; a corrected error is reported; a detected one is reported and poisons them; an error
that the code does not promise to detect is detected, or leaves wrong bytes without a report, which are open values (log entry 23,
DESIGN CHOICE). -/
def State.readGranule (s : State) (base : Nat) (ns : List Nat) (ecc : Ecc) : State :=
  let gran := s.granuleAt base
  let die := homeYard base / 4
  let sub := badSubs gran base ecc
  let mark (s : State) : State := { s with poison := ns.foldl (fun t n => Sparse.put t n true) s.poison }
  let found (s : State) : State := (mark s).memEvent 2 base die 0 0 0 0 sub
  if s.granPoisoned (base / 32) then mark s
  else match eccOut gran ecc with
    | .clean => s
    | .corrected => s.memEvent 1 base die 0 0 0 0 sub
    | .detected => found s
    | .unpromised =>
      let (seen, s) := s.drawBit
      if seen then found s
      else
        let s1 := ns.foldl (fun (s : State) (n : Nat) =>
          s.store (32 * n) ((List.range 32).map (fun i => Config.freeByte (s.free + (32 * n + i) % 512)))) s
        { s1 with free := s.free + 512 }

/-- BAY_CACHE_FILL (R105, R122, R123, R365, R366): a miss in a bay's slice reads the granule of a sector from HBM, with the bad symbols that
the event names, and the slice takes it; a slice with every way off passes it through (R119). Sectors outside local HBM come alone, from
beyond the yard's codes: the page that a peer's sector is reached through, with its granule, is the access's own (R122). -/
def execBayCacheFill (bay sector : Nat) (ecc : Ecc) (s : State) : Out :=
  .next (
    if 47 < bay ∨ s.bayHolds bay sector ∨ rgn (32 * sector) = 3 ∨ rgn (32 * sector) = 1 then s
    else
      let ns := granSectors (s.granuleAt (32 * sector)) sector
      let s := if s.isHbm (32 * sector) then
          s.readGranule (32 * (ns.headD sector)) (ns.filter (fun n => !s.dirtyAnywhere n && !s.bayHolds bay n)) ecc
        else s
      s.fillAll bay ns false)

/-- PAGE_WALK (R150, R152): a walker fills the TLBs that a lookup of an agent passed with the leaf it finds. A walk that fails
leaves nothing; its fault is raised at the access (R150). -/
def execPageWalk (who va : DWord) (s : State) : Out :=
  .next (s.within who (fun f => match f.translate f.cur.ctx va.toNat {} with
    | (.ok _, f') => f'
    | _ => f))

/-- W6_FILL_TRANSLATE (R198, R200): the word at an address of a W6 course is in its instruction cache. The cache keeps the W6
word; what the translator makes of it is what the decoder reads. -/
def execW6FillTranslate (who addr : DWord) (s : State) : Out :=
  .next (s.within who (fun f =>
    if !f.cur.w6 || f.cur.misaligned .comp addr || (f.cur.icacheC.any (fun e => e.1 == addr.toNat)) then f
    else match f.fetchAt .comp addr.toNat with
      | (.ok _, f') => f'
      | _ => f))

/-! Clocks (R112). -/

/-- The promise floor of a die: the highest clock on which a promise whose tick has not come was computed. -/
def Die.floor (d : Die) : Nat := ((d.proms.filter (fun p => d.cnt.toNat < p.1.toNat)).map Prod.snd).foldl max 0

/-- CLOCK_CHANGE (R112): a die's clock moves, never below its promise floor. The part of a tick that its counter has not counted yet stays
the same part, so that the counter keeps its rate (log entry 102, DEDUCED). -/
def execClockChange (die mhz : Nat) (s : State) : Out :=
  .next (
    let d := s.die die
    if 3 < die ∨ mhz = 0 ∨ (mhz < d.mhz ∧ mhz < d.floor) then s else s.setDie die { d with mhz := mhz, acc := d.acc * mhz / d.mhz })

/-- PROMISE_MATURE (R112): promises whose tick has come no longer hold the floor up. -/
def execPromiseMature (die : Nat) (s : State) : Out :=
  .next (
    let d := s.die die
    let left := d.proms.filter (fun p => d.cnt.toNat < p.1.toNat)
    if left = d.proms then s else s.setDie die { d with proms := left })

/-! The fabric (R376). -/

/-- PEER_TIMEOUT (R376): a request without an answer in 2^24 ticks of its sending die's counter fails at the word at which its stream stands,
which has not issued. A course that has been terminated meanwhile takes no trap (log entry 24, DESIGN CHOICE). -/
def execPeerTimeout (who : DWord) (id : Nat) (s : State) : Out :=
  .next (match s.focus who with
    | none => s
    | some f =>
      match f.cur.workOf id with
      | some k =>
        (match k.act with
         | .lost word va lanes wall since =>
           if (f.now - since).toNat < Config.peerLimit ∨ f.cur.trap.isSome then s
           else
             let f1 := match wall with | some w => f.outstanding f.cur.launch w (· - 1) | none => f
             let f1 := ({ f1 with word := word }.modC (fun c => { c with work := c.work.filter (fun o => o.id != id) })).lifeAdd 0x32 1
             if f.cur.ended k.stream then f1
             else f1.trapAt k.stream { code := 0x10, detail := BitVec.ofNat 64 va, fmask := lanes }
         | _ => s)
      | none => s)

/-! Requests from outside. -/

/-- Bytes stored by an agent outside the walls: places with their bytes. -/
def State.busStore (s : State) (ps : List (Place × List Byte)) : State := s.cleanse (ps.map Prod.fst) |> fun s =>
  ps.foldl (fun s e => { ((s.dropBlocks e.1.pa e.1.w).pastHost e.1.pa e.1.w).store e.1.pa e.2 with rels := cutRels s.rels e.1.pa e.1.w }) s

/-- The identity of a client function (R125): drawn when it first acts. -/
def State.vfIdent (s : State) (vf : Nat) : DWord × State :=
  let x := Sparse.get s.vfs vf Vf.zero
  if x.ident ≠ 0#64 then (x.ident, s)
  else
    let n := identity 3 s.nextStart
    (n, { s with nextStart := s.nextStart + 1, vfs := Sparse.set s.vfs vf { x with ident := n } Vf.zero })

/-- Bytes that a request covers. -/
def reqLen : BusReq → Nat
  | .read n => n
  | .write bs _ => bs.length
  | .atomic _ wide _ _ _ => if wide then 8 else 4
  | .cas wide _ _ _ _ => if wide then 8 else 4
  | .blockRead n => n
  | .blockWrite bs => bs.length
  | .hostWrite bs => bs.length

/-- The pieces of a client's range placed, or whether one fails (R363); client accesses are not race-checked, and leave their tags (R142,
R143). -/
def State.clientPlaces (s : State) (m : Maker) (h : How) : List (Nat × Nat) → Option (List Place) × State
  | [] => (some [], s)
  | p :: r =>
    match s.pieceAt m h p with
    | (.place q, s) => let (x, s) := s.clientPlaces m h r; (x.map (fun ps => q :: ps), s)
    | (.fault _ _ _ (some pa), s) => (none, s.poisonUsed pa m.who m.die)
    | (_, s) => (none, s)

/-- The checked sectors of some places are tagged with an access (R142). -/
def State.tagPlaces (s : State) (m : Maker) (write : Bool) (ps : List Place) : State :=
  (checkedSectors ps).foldl (fun s n => s.tagged m.who m.sync n write false 0) s

/-- A client function's access to its ASID's memory (R151, R363): translated at user level, through the TLB of yard 0 or 15. A failing
read or non-posted write is answered with Completer Abort; a failing posted write is dropped. -/
def State.clientMemory (s : State) (vf asid : Nat) (va : DWord) (data : Option (List Byte × Bool)) (len : Nat) : State :=
  let (who, s) := s.vfIdent vf
  let yard := if vf < 128 then 0 else 15
  let m : Maker := { who := who, sync := Sync.start, die := yard / 4, ctx := { asid := asid, user := true, path := [(2, yard)] } }
  match data, s.clientPlaces m { acc := { rd := data.isNone, wr := data.isSome } } (pieces va.toNat len) with
  | some (bs, posted), (some ps, s) =>
    let s := (s.tagPlaces m true ps).busStore (cutBytes ps bs)
    if posted then s else s.answer .ok
  | some (_, posted), (none, s) => if posted then s else s.answer .abort
  | none, (some ps, s) => (s.tagPlaces m false ps).answer (.data (s.bytesAt ps))
  | none, (none, s) => s.answer .abort

/-- Whether a peer's request keeps to the form of R330: within 8 sectors of this device's memory (R146). -/
def State.peerReaches (s : State) (pa n : Nat) : Bool :=
  s.isLocal pa && pa % 32 + n ≤ 256 && 0 < n &&
  (List.range n).all (fun i => (s.isHbm (pa + i) || rgn (pa + i) == 1) &&
    !s.rangeBad { asid := 0, user := true, path := [], sp := true } (pa + i))

/-- The results that a unit returned for a key (R388). -/
def State.keyed? (s : State) (unit : Nat) (who : DWord) (n : Nat) : Option (List DWord) :=
  (s.keys.find? (fun e => e.1 == unit && e.2.1 == who && e.2.2.1 == n)).map (fun e => e.2.2.2)

/-- The key that a request carries: an atomic's (R388). -/
def reqKey : BusReq → Option (DWord × Nat)
  | .atomic _ _ _ who k => some (who, k)
  | .cas _ _ _ who k => some (who, k)
  | _ => none

/-- The home directory of this device, as a unit that keeps the keys of peers' requests (R388). -/
def State.homeUnit (s : State) : Nat := 4096 + s.did

/-- Whether a peer's atomic finds the home directory full: its key is not recorded, and there is no room for it (R388). -/
def State.peerFull (s : State) (rq : BusReq) : Bool :=
  (reqKey rq).any (fun k => (s.keyed? s.homeUnit k.1 k.2).isNone) && 4096 ≤ (s.keys.filter (fun e => e.1 == s.homeUnit)).length

/-- Whether a peer's request arrives at a bank that is waking: it stalls until the wake is over (R120). -/
def State.peerStalls (s : State) (pa n : Nat) : Bool := (List.range n).any (fun i => s.stalls (pa + i))

/-- A read-modify-write that a peer asks for at its home directory (R330, R388): a key that the directory has recorded returns what it
returned; one that finds the directory full waits. `f` gives the value written, if one is. -/
def State.peerAtomic (s : State) (dev : Nat) (pa : BitVec 52) (rq : BusReq) (who : DWord) (k : Nat) (f : Nat → Option Nat) : State :=
  let a := pa.toNat
  let n := reqLen rq
  match s.keyed? s.homeUnit who k with
  | some rs => s.answer (.data (rs.flatMap (fun r => bytesLE n r.toNat)))
  | none =>
    if crosses a n then s.answer (.failed 0x0A)
    else if s.peerFull rq then { s with stalled := s.stalled ++ [(dev, pa, rq)] }
    else
      let old := s.loadNat a n
      let s := match f old with | some new => (s.dropBlocks a n).storeNat a n new | none => s
      { s with keys := s.keys ++ [(s.homeUnit, who, k, [BitVec.ofNat 64 old])] }.answer (.data (bytesLE n old))

/-- A request of another device of the site is served at its home (R330, R388). An identifier above 63, or any before the fabric is up, is
unreachable; one at a waking bank stalls (R120); an address that is not of this device's memory, a gated bank and a poisoned sector fail with
the code of the fault. A compare-and-swap travels as an atomic does. Log entry 103, DEDUCED. -/
def State.servePeer (s : State) (dev : Nat) (pa : BitVec 52) (rq : BusReq) : State :=
  let a := pa.toNat
  let n := reqLen rq
  let bytes := List.range n
  let reads := match rq with | .write _ _ => false | _ => true
  if 63 < dev ∨ !s.fabric then s.answer (.failed 0x10)
  else if !s.peerReaches a n then s.answer (.failed 0x07)
  else if s.peerStalls a n then { s with stalled := s.stalled ++ [(dev, pa, rq)] }
  else if bytes.any (fun i => s.gatedAt (a + i)) then s.answer (.failed 0x0D)
  else match (if reads then bytes.find? (fun i => s.poisoned (a + i)) else none) with
  | some i => (s.poisonUsed (a + i) 0 (homeYard a / 4)).answer (.failed 0x0C)
  | none =>
    match rq with
    | .read _ => s.answer (.data (s.load a n))
    | .write bs _ => (s.busStore ((cutBytes ((pieces a n).map (fun p => { t := 0, va := p.1, w := p.2, pa := p.1, chk := false })) bs))).answer .ok
    | .atomic op _ x who k =>
      s.peerAtomic dev pa rq who k (fun old => if op = 11 then none else some (amoNew op.toNat n old (x.toNat % 2 ^ (8 * n))))
    | .cas _ expected new who k =>
      s.peerAtomic dev pa rq who k (fun old => if old = expected.toNat % 2 ^ (8 * n) then some (new.toNat % 2 ^ (8 * n)) else none)
    | _ => s.answer (.failed 0x10)

/-- PEER_REQUEST_ARRIVAL (R330). -/
def execPeerRequestArrival (dev : Nat) (pa : BitVec 52) (rq : BusReq) (s : State) : Out := .next (s.servePeer dev pa rq)

/-- A peer's request that was held up is served once nothing holds it any more (R120, R388). -/
def peerProceeds (e : Nat × BitVec 52 × BusReq) (s : State) : Out :=
  .next (if s.peerStalls e.2.1.toNat (reqLen e.2.2) || s.peerFull e.2.2 then s
    else { s with stalled := s.stalled.erase e }.servePeer e.1 e.2.1 e.2.2)

/-- The keys of another device's course leave the home directory: that course has begun its stream-out, or has retired. The manual gives no
message that says so, so they may leave at any time (R388; log entry 129, DESIGN CHOICE). -/
def peerForgotten (who : DWord) (s : State) : Out :=
  .next { s with keys := s.keys.filter (fun e => !(e.1 == s.homeUnit && e.2.1 == who)) }

/-- The agents of other devices whose keys this device's home directory keeps. -/
def State.peerKeyers (s : State) : List DWord :=
  ((s.keys.filter (fun e => e.1 == s.homeUnit && !s.agents.any (fun c => c.ident == e.2.1))).map (fun e => e.2.1)).dedup

/-- ATOMIC_REQUEST (R388): a request that is sent again under a key a unit has recorded is answered with the recorded results
and performs nothing. The first sending of a request is performed with its instruction's issue. -/
def execAtomicRequest (who : DWord) (n : Nat) (s : State) : Out :=
  .next (match s.keys.find? (fun e => e.2.1 == who && e.2.2.1 == n) with
    | some e => s.answer (.data (e.2.2.2.flatMap (fun r => bytesLE 8 r.toNat)))
    | none => s)

end Sys2Proof.Machine
end

