-- ==== Sys2Proof/Machine/Shadow.lean ====
section
/-! DEFINITION. Shadow buffers: `SHADOW`, its dismissal, and `PUBLISH` (R138, R262, R263). -/

namespace Sys2Proof.Machine

/-- Whether two ranges overlap. -/
def overlap (a n b m : Nat) : Bool := a < b + m && b < a + n

/-- Whether a range meets a declared buffer of an ASID, at its name or its second copy. Log entry 65, DEDUCED. -/
def meetsBuffer (bufs : Sparse Shadow) (asid a n : Nat) : Bool :=
  bufs.any (fun e => e.2.asid == asid && (overlap a n e.2.name e.2.len || overlap a n e.2.second e.2.len))

/-- The entry that a buffer takes of the free ones among 16 from a key: the lowest (R262; log entry 121, DESIGN CHOICE). -/
def freeEntry (bufs : Sparse Shadow) (from_ : Nat) : Option Nat :=
  ((List.range 16).map (from_ + ·)).find? (fun k => !bufs.any (fun e => e.1 == k))

/-- The ranges that `SHADOW` refuses (R262). -/
def shadowBad (sp : Bool) (name second len : Nat) : Bool :=
  name % 32 != 0 || second % 32 != 0 || len % 32 != 0 || len < 32 || overlap name len second len ||
  (sp && (0x100000 < name + len || 0x100000 < second + len))

/-- SHADOW (R262). The copy at the name starts visible. -/
def execShadow (k : Ctl) (rd : BitVec 6) (bp : BitVec 5) (rb ra : BitVec 6) (sp : BitVec 1) (s : State) : Out :=
  execCourse k {} (fun s =>
    let c := s.cur
    let sc := sp == 1
    let name := if sc then (c.S (2 * bp.toNat)).toNat else (c.S64 (2 * bp.toNat)).toNat
    let second := if sc then (c.S rb.toNat).toNat else (c.S64 rb.toNat).toNat
    let len := (c.S ra.toNat).toNat
    let bufs := if sc then s.myPlane.shadows else s.shadows
    if shadowBad sc name second len || meetsBuffer bufs c.asid name len || meetsBuffer bufs c.asid second len then
      .trap s { code := 0x65 }
    else
      match freeEntry bufs (if sc then 0 else 16 * yardOf c.wall) with
      | none => .trap s { code := 0x65 }
      | some e =>
        let b : Shadow := { asid := c.asid, name := name, second := second, len := len, swap := false, pub := [] }
        let s := if sc then s.setMyPlane { s.myPlane with shadows := Sparse.put bufs e b }
          else { s with shadows := Sparse.put bufs e b }
        .done s { lat := none, writes := [.s rd.toNat (BitVec.ofNat 32 (if sc then 0x100 + e else e))] }) s

/-- The buffer of a handle that is declared in the focused course's ASID and plane (R262): whether it is a scratchpad
buffer, its entry, the buffer. -/
def State.handle (s : State) (h : Nat) : Option (Bool × Nat × Shadow) :=
  let sc := 0x100 ≤ h
  let e := if sc then h - 0x100 else h
  match ((if sc then s.myPlane.shadows else s.shadows).find? (fun x => x.1 == e && x.2.asid == s.cur.asid)) with
  | some x => some (sc, e, x.2)
  | none => none

/-- The state with the entry of a buffer table replaced or freed. -/
def State.setBuffer (s : State) (sc : Bool) (e : Nat) (b : Option Shadow) : State :=
  let put (t : Sparse Shadow) : Sparse Shadow := match b with | some x => Sparse.put t e x | none => Sparse.del t e
  if sc then s.setMyPlane { s.myPlane with shadows := put s.myPlane.shadows } else { s with shadows := put s.shadows }

/-- SHADOW.dismiss (R262): the name reaches its own storage from then on. -/
def execShadowDismiss (k : Ctl) (ra : BitVec 6) (s : State) : Out :=
  execCourse k {} (fun s =>
    match s.handle (s.cur.S ra.toNat).toNat with
    | none => .trap s { code := 0x65 }
    | some (sc, e, _) => .done (s.setBuffer sc e none) { lat := none }) s

/-- The race tags of `n` bytes of a frame from a physical address on are emptied, in the committed frame and in the working frames of open
snapshot domains (R138, R179). -/
def State.clearFrames (s : State) (pa n : Nat) : State :=
  s.launches.zipIdx.foldl (fun (s : State) (e : Launch × Nat) =>
    if e.1.snapOpen && e.1.snapPages.contains (pa / 2 ^ 14) then s.clearTags (workAt e.2 pa) n else s) (s.clearTags pa n)

/-- The race tags of a virtual range are emptied, page by page where it is mapped. -/
def State.clearVirtual (s : State) (asid va n : Nat) : State :=
  (List.range (n / 2 ^ 14 + 2)).foldl (fun s i =>
    let lo := max va ((va / 2 ^ 14 + i) * 2 ^ 14)
    let hi := min (va + n) ((va / 2 ^ 14 + i + 1) * 2 ^ 14)
    if hi ≤ lo then s
    else match s.walk asid lo with
      | .ok l => if l.res then s.clearFrames (l.place lo) (hi - lo) else s
      | _ => s) s

/-- Whether a member's operation was issued before a `PUBLISH` that releases a carry: by its course itself, or by one whose release after it the
course had acquired (R132, R137). -/
def Carry.after (c : Carry) (m : EngMember) : Bool :=
  (m.ident == c.who && m.rc.toNat ≤ c.rc.toNat) || c.table.any (fun e => e.1 == m.ident && m.rc.toNat ≤ e.2.toNat)

/-- Whether a matrix operation that was issued before a `PUBLISH` still has to write C rows into a range of the focused course's scratchpad: those
of a fired one stand at their entries, those of another may come to any entry of its C chute (R137). -/
def State.rowsDue (s : State) (c : Carry) (a n : Nat) : Bool :=
  let p := s.myPlane
  p.engine.any (fun o => o.members.any (fun m =>
    let q := p.chute m.c
    c.after m && m.out != 0 &&
      (if o.fired then (List.range m.out).any (fun j => overlap (q.entry (m.cIdx + j)) 512 a n)
       else overlap q.base (q.cap * q.size) a n)))

/-- The publishes of a buffer that came to its entry before work `id` and wait there: they act one at a time, in arrival order (R263). A
scratchpad buffer's entry is its plane's. -/
def State.publishesBefore (s : State) (sc : Bool) (e id : Nat) : Bool :=
  s.agents.any (fun c => (!sc || (c.wall == s.cur.wall && c.plane == s.cur.plane)) && c.work.any (fun k => match k.act with
    | .publish sp x _ _ => sp == sc && x == e && decide (k.id < id)
    | _ => false))

/-- What a buffer's publishes have released once one more has: the latest of each publisher and scope stands, so that an agent in the scope of an
earlier, wider publish stays ordered after that one (R138). -/
def Shadow.published (b : Shadow) (c : Carry) : List Carry := b.pub.filter (fun o => !(o.who == c.who && o.scope == c.scope)) ++ [c]

/-- The copies of a declared buffer change places, and the race tags of the newly visible one are emptied (R138). -/
def State.exchange (s : State) (sc : Bool) (e : Nat) (b : Shadow) (carry : Carry) : State :=
  let now := if b.swap then b.name else b.second
  let s := if sc then s.clearTags (s.scratch s.cur.wall s.cur.plane now) b.len else s.clearVirtual b.asid now b.len
  s.setBuffer sc e (some { b with swap := !b.swap, pub := b.published carry })

/-- Whether a `PUBLISH` has to wait before it exchanges the copies: for rows that matrix operations issued before it still write through the name
(R138; every other write that happens before it is complete when it issues, log entry 83, DEDUCED), or for an earlier `PUBLISH` (R263). -/
def State.publishWaits (s : State) (sc : Bool) (e id : Nat) (b : Shadow) (carry : Carry) : Bool :=
  (sc && s.rowsDue carry b.name b.len) || s.publishesBefore sc e id

/-- PUBLISH (R138, R263): a release action. It issues at once, and its work exchanges the copies once nothing is left to wait for. Agents outside
its scope find the copies exchanged at once too, which the manual leaves open (log entry 113, DESIGN CHOICE). -/
def execPublish (k : Ctl) (ra : BitVec 6) (scope : BitVec 4) (s : State) : Out :=
  execCourse k {} (fun s =>
    let scp := scope.toNat
    match s.handle (s.cur.S ra.toNat).toNat with
    | none => .trap s { code := 0x65 }
    | some (sc, e, b) =>
      if scp < 3 || 8 < scp || (sc && scp != 3) then .trap s { code := 0x65 }
      else
        let (carry, s) := s.releaseC scp
        if s.publishWaits sc e s.nextId b carry then .done s { lat := none, act := .publish sc e b.name carry }
        else .done (s.exchange sc e b carry) { lat := none }) s

/-- A waiting `PUBLISH` of the focused agent acts, if nothing is left to wait for; one whose buffer is declared no more finds nothing to exchange. -/
def State.endPublish (s : State) (k : Work) (sc : Bool) (e name : Nat) (carry : Carry) : State :=
  let f := s.modC (fun c => c.finish k)
  match s.handle (if sc then 0x100 + e else e) with
  | some (_, _, b) =>
    if b.name ≠ name then f
    else if s.publishWaits sc e k.id b carry then s
    else f.exchange sc e b carry
  | none => f

end Sys2Proof.Machine
end

