-- ==== Sys2Proof/Machine/Commits.lean ====
section
/-! DEFINITION. Commits and completions of work in flight: fixed-latency results (R35) and flag-class work (R34). -/

namespace Sys2Proof.Machine

/-- What a fixed-latency result does beyond its register writes: an `SWR` of an index of 0x800 and above writes its register (R228). -/
def State.actNow (s : State) (a : Act) : State :=
  match a with
  | .swr i x => (match s.cur.sys with | some y => s.writeHigh y.core i x | none => s)
  | _ => s

/-- FIXED_LATENCY_COMMIT (R35): results due by now commit, and the flag falls. -/
def execFixedLatencyCommit (who : DWord) (id : Nat) (s : State) : Out :=
  .next (match s.focus who with
    | none => s
    | some f =>
      match f.cur.workOf id with
      | some k =>
        (match k.due with
         | some d => if d ≤ f.cycle ∧ k.act ≠ .promise then (f.modC (fun c => c.finish k)).actNow k.act else s
         | none => s)
      | none => s)



/-- The focused agent's work is done, and the outstanding counter that counts it falls (R173). -/
def State.performed (s : State) (k : Work) : State :=
  let s := match k.act.counted with
    | some w => s.outstanding s.cur.launch w (· - 1)
    | none => s
  s.modC (fun c => c.finish k)

/-- FLAG_WORK_COMPLETE (R34): variable-latency work of the instructions that have no completion event of their own is done:
its results commit and its flag falls. -/
def execFlagWorkComplete (who : DWord) (id : Nat) (s : State) : Out :=
  .next (match s.focus who with
    | none => s
    | some f =>
      match f.cur.workOf id with
      | none => s
      | some k =>
        if k.due ≠ none ∨ f.cycle < k.early then s
        else match k.act with
          | .none => f.performed k
          | .store _ _ => f.performed k
          | .peer _ => f.performed k
          | .fence => if f.cur.storesOut.any (fun j => decide (j < id)) then s else f.performed k
          | .chute plane ch op n rd after =>
            if f.chuteReady f.cur id plane ch op n after then
              let r := f.chuteAct plane ch op n
              r.2.modC (fun c => c.finish { k with writes := [.s rd (BitVec.ofNat 32 r.1)] })
            else s
          | .pgreq _ _ _ => f.endPgreq k
          | .publish sc e name carry => f.endPublish k sc e name carry
          | .fencei =>
            if f.cur.storesOut.any (fun j => decide (j < id)) then s
            else f.modC (fun c => { c.finish k with icacheA := [], icacheC := [] })
          | .gates i mask =>
            if (f.plane (i / 3) (i % 3)).st = .streaming then s
            else (f.setBanks (i / 3) (i % 3) mask).modC (fun c => c.finish k)
          | .ctx _ _ _ _ _ _ => f.serveCtx who k
          | _ => s)

end Sys2Proof.Machine
end

