-- ==== Sys2Proof/Machine/Debug.lean ====
section
/-! DEFINITION. Debug sessions (R338 to R344): the monitor's messages, halting, stepping and breakpoints, and the traces they
control (R345, R346). -/

namespace Sys2Proof.Machine

/-! Connections and requests (R340). -/

/-- Ticks after which a session without a message ends: 10 s (R338). -/
abbrev sessionTicks : Nat := 24000000000
/-- Cycles within which a step must issue (R344). -/
abbrev stepCycles : Nat := 65536

/-- A connection before any message. -/
def Session.fresh (conn : Nat) (tick : DWord) : Session :=
  { conn := conn, asid := 0, nonce := [], proven := false, lastSeq := 0, lastMsg := tick, bps := [], traces := [], stepping := none,
    waiting := [] }

/-- What a request comes to: its reply, if it is answered now, and the device after it. -/
abbrev Reply := Option (Code × List Byte) × State

/-- A reply that changes nothing. -/
abbrev refusal (s : State) (code : Code) : Reply := (some (code, []), s)

/-- An empty reply. -/
abbrev granted (s : State) : Reply := (some (0, []), s)

/-- An agent halts or goes on: in its record too, if it is streamed out (R342); one that goes on at the latch of a gang that broke meanwhile
takes that trap (R268). -/
def State.setHalted (s : State) (c : Course) (h : Bool) : State :=
  let s := (s.modWhere (fun e => e.ident == c.ident) (fun e => { e with halted := h })).haltRecord c h
  if h then s else s.within c.ident State.breakHeld

/-- A session ends: what it halted resumes, and its traces stop (R338). -/
def State.endSession (s : State) (x : Session) : State :=
  let s := { s with sessions := s.sessions.filter (fun o => o.conn != x.conn) }
  if x.proven then
    (s.agents.filter (fun c => c.space == x.asid && c.halted)).foldl (fun (s : State) (c : Course) => s.setHalted c false) s
  else s

/-- The session of a connection, as a message on it finds it: any message restarts the timer (R340). -/
def State.connection (s : State) (conn : Nat) : Session :=
  { (s.sessions.find? (fun x => x.conn == conn)).getD (Session.fresh conn (s.count 0)) with lastMsg := s.count 0 }

/-- A request is taken up (R340, R341): its sequence number must follow the last; before `PROVE` has succeeded only `OPEN` and `PROVE` are
served. `first` tells the request whether it is the first message of its connection. -/
def State.request (s : State) (conn : Nat) (op : Byte) (seq : Word) (early : Bool) (f : State → Session → Bool → Reply) : State :=
  let first := (s.sessions.find? (fun x => x.conn == conn)).isNone
  let x := s.connection conn
  if seq.toNat ≠ x.lastSeq + 1 then (s.setSession x).reply conn op seq 0xAB []
  else
    let x := { x with lastSeq := seq.toNat }
    let s := s.setSession x
    if !early && !x.proven then s.reply conn op seq 0xAB []
    else match f s x first with
      | (some (code, body), s) => s.reply conn op seq code body
      | (none, s) => s

/-- The thread that a joined name selects (R339). -/
abbrev nameThread (name : BitVec 128) : Nat := name.toNat % 2 ^ 32

/-- The target of a joined name in a session, if the name is not rejected (R339). Log entry 49, DESIGN CHOICE. -/
def State.target (s : State) (x : Session) (name : BitVec 128) : Option Course :=
  if name.toNat / 2 ^ 117 ≠ x.asid ∨ (95 < nameThread name ∧ nameThread name ≠ 0xFFFFFFFF) then none
  else s.agents.find? (fun c => !c.retired && !c.wasReset && c.nameKey == name.toNat / 2 ^ 32)

/-- A request about a target: a rejected name is answered 0xA7. -/
def State.about (s : State) (x : Session) (name : BitVec 128) (f : Course → Reply) : Reply :=
  match s.target x name with
  | some c => f c
  | none => refusal s 0xA7

/-! Halting, stepping, breakpoints (R342 to R344). -/

/-- The stream a request names. -/
def streamNamed (b : Byte) : Option Stream := if b = 0 then some .addr else if b = 1 then some .comp else none

/-- A step of a halted target begins (R344): it is under way until its stream has issued one instruction, which `State.stepped` answers, or
has not for 2^16 cycles, which `STEP_BLOCKED` answers. -/
def State.beginStep (s : State) (x : Session) (seq : Word) (name : BitVec 128) (stream : Byte) (c : Course) : Reply :=
  match streamNamed stream with
  | none => refusal s 0xAB
  | some st =>
    if !c.halted then refusal s 0xA8
    else (none, s.setSession { x with stepping := some (seq, c.ident, st, s.cycleOf c.die, nameThread name) })

/-- A comparator of a target's joined name is replaced or cleared (R165, R343). -/
def Session.setBp (x : Session) (who : Nat) (st : Stream) (n : Nat) (pc : Option DWord) : Session :=
  { x with bps := x.bps.filter (fun b => !(b.1 == who && b.2.1 == st && b.2.2.1 == n)) ++
      (match pc with | some a => [(who, st, n, a)] | none => []) }

/-- A request about a comparator. -/
def State.comparator (s : State) (x : Session) (stream cmp : Byte) (pc : Option DWord) (c : Course) : Reply :=
  match streamNamed stream with
  | some st => if 3 < cmp.toNat then refusal s 0xAB else granted (s.setSession (x.setBp c.nameKey st cmp.toNat pc))
  | none => refusal s 0xAB

/-- BREAKPOINT_MATCH (R343). -/
def execBreakpointMatch (who : DWord) (compute : Bool) (s : State) : Out :=
  let st : Stream := if compute then .comp else .addr
  .next (s.within who (fun f => if !f.cur.halted && f.bpHit st then f.haltHere st else f))

/-! Reading and writing (R341). -/

/-- Area 1 of a target: the memory that shows it, from which address, and its length. A streamed-out course is shown as its record stands;
the index of its plane record is open outside an image (log entry 3, DESIGN CHOICE). -/
def State.shown (s : State) (c : Course) : State × Nat × Nat :=
  let bare := { s with mem := [] }
  match c.sys, c.savedAt with
  | some y, _ =>
    (bare.writeArea 0 268 (c.s.map (fun (e : Nat × Word) => (4 * e.1, 4, e.2.toNat)) ++
      [(256, 8, c.pcA.toNat), (264, 4, (statusWord y.lvl y.ie).toNat)]), 0, 268)
  | none, some a => (s, a, c.recordBytes)
  | none, none => (bare.writeCourse 0 c (Config.freeNat s.free % 2 ^ 32) (s.distsLeft c), 0, c.recordBytes)

/-- Whether an offset of a course's record holds, for a joined name that selects thread t, something of another thread: registers `v` and
`q`, shape tags. Which parts of an area a thread selects is not stated (log entry 105, DESIGN CHOICE). -/
def Course.othersByte (c : Course) (t o : Nat) : Bool :=
  let q := 43008 + 384 * c.vcnt
  if q ≤ o then (o - q) / 144 % 96 != t
  else if 43008 ≤ o then (o - 43008) / 4 % 96 != t
  else decide (3776 ≤ o ∧ o < 4544) && (o - 3776) % 96 != t

/-- The bytes of area 1 that a joined name selects (R339, R341): other threads' bytes read zero. -/
def State.readShown (s : State) (c : Course) (thr o n : Nat) : List Byte :=
  let m := s.shown c
  (List.range n).map (fun i =>
    if c.sys.isNone && thr < 96 && c.othersByte thr (o + i) then 0 else m.1.byte (m.2.1 + o + i))

/-- The offsets of area 1 that `WRITE` may change. -/
def Course.mayWrite (c : Course) (o : Nat) : Bool :=
  match c.sys with
  | some _ => o < 264
  | none => (16 ≤ o && o < 32) || (64 ≤ o && o < 448) || (640 ≤ o && o < 736) || (43008 ≤ o && o < c.recordBytes)

/-- The `s` registers that a memory shows from an address on. -/
def State.sAt (s : State) (a : Nat) : Sparse Word := (tableOf 64 (fun n => s.wd a (4 * n)) (0 : Word)).filter (fun e => e.1 != 0)

/-- A target with the registers that area 1 shows in a memory from an address on; an element of `q` outside its shape stays zero (R285). -/
def Course.rewritten (c : Course) (m : State) (a : Nat) : Course :=
  match c.sys with
  | some _ => { c with s := m.sAt a, pcA := m.dw a 256 }
  | none =>
    let w := (tableOf 29 (fun n => m.wd a (320 + 4 * n)) (0 : Word)).filter (fun e => e.1 != 0)
    let c := { c with
      s := m.sAt (a + 64), w := w, pcA := m.dw a 16, pcC := m.dw a 24
      p := (tableOf 8 (fun n => (BitVec.ofNat 96 (m.num a (640 + 12 * n) 12) : Mask)) 0).filter (fun e => e.1 != 0)
      v := tableOf (96 * c.vcnt) (fun k => m.wd a (43008 + 4 * k)) 0
      qe := tableOf (3456 * c.qcnt) (fun k =>
        if inShape (c.shape (k / 36 % 96) (k / 3456)) (k % 36) then m.wd a (43008 + 384 * c.vcnt + 4 * k) else 0) 0 }
    [29, 30, 31].foldl (fun c n => c.write (.w n (m.wd a (320 + 4 * n)))) c

/-- Bytes are written to area 1 of a halted target: to its record too, if it is streamed out. A program counter that is no word address
makes the request malformed. -/
def State.writeShown (s : State) (o : Nat) (bytes : List Byte) (c : Course) : Reply :=
  let m := s.shown c
  let d := c.rewritten (m.1.store (m.2.1 + o) bytes) m.2.1
  if !(List.range bytes.length).all (fun i => c.mayWrite (o + i)) || d.misaligned .addr d.pcA || d.misaligned .comp d.pcC then refusal s 0xAB
  else
    let s := s.modWhere (fun e => e.ident == c.ident) (fun _ => d)
    granted (match c.savedAt with | some a => s.unitStore (a + o) bytes | none => s)

/-- The places of a range of a session's virtual memory (R341), or the code of its first failure: walks at user level, with no
race check. -/
def State.debugPlaces (s : State) (asid : Nat) (h : How) : List (Nat × Nat) → Except Code (List Place) × State
  | [] => (.ok [], s)
  | p :: r =>
    match s.pieceAt { who := 0, sync := Sync.start, die := 0, ctx := { asid := asid, user := true, path := [] } } h p with
    | (.place q, s) => let (x, s) := s.debugPlaces asid h r; (x.map (fun ps => q :: ps), s)
    | (.fault _ _ code (some pa), s) => (.error code, s.poisonUsed pa 0 0)
    | (.fault _ _ code none, s) => (.error code, s)
    | (.absent _, s) => (.error 0x04, s)

/-- What `READ` comes to (R341). -/
def State.readArea (s : State) (x : Session) (thr area o n : Nat) (c : Course) : Reply :=
  if n = 0 ∨ 65536 < n then refusal s 0xAB
  else match area with
    | 1 => if (s.shown c).2.2 < o + n then refusal s 0xAB else (some (0, s.readShown c thr o n), { s with free := s.free + 1 })
    | 2 => (match s.debugPlaces x.asid { acc := { rd := true } } (pieces o n) with
            | (.ok ps, s) => (some (0, s.bytesAt ps), s)
            | (.error code, s) => refusal s code)
    | 3 => (match x.traces.find? (fun t => t.who == c.ident) with
            | some t => if tracePage * t.pages < o + n then refusal s 0xAB
                        else (some (0, (List.range n).map (fun i =>
                          s.byte (t.frames.getD ((o + i) / tracePage) 0 + (o + i) % tracePage))), s)
            | none => refusal s 0xAB)
    | 4 => if c.trapRec.length < o + n then refusal s 0xAB else (some (0, (c.trapRec.drop o).take n), s)
    | _ => refusal s 0xAB

/-- What `WRITE` comes to (R341). -/
def State.writeArea_ (s : State) (x : Session) (area o : Nat) (bytes : List Byte) (c : Course) : Reply :=
  if bytes = [] then refusal s 0xAB
  else if !c.halted then refusal s 0xA8
  else match area with
    | 1 => s.writeShown o bytes c
    | 2 => (match s.debugPlaces x.asid { acc := { wr := true } } (pieces o bytes.length) with
            | (.ok ps, s) => granted (s.busStore (cutBytes ps bytes))
            | (.error code, s) => refusal s code)
    | _ => refusal s 0xAB

/-! Traces (R341, R345, R346). -/

/-- The frame of each page of a trace buffer, if every page is resident in local HBM. -/
def State.traceFrames (s : State) (asid base pages : Nat) : Option (List Nat) :=
  (List.range pages).mapM (fun i =>
    let va := base + tracePage * i
    match (s.translate { asid := asid, user := true, path := [] } va { wr := true }).1 with
    | .ok l => if s.isHbm (l.place va) then some (l.place va) else none
    | _ => none)

/-- What `TSTART` comes to (R341, R345). -/
def State.startTrace (s : State) (x : Session) (base : DWord) (pages : Word) (c : Course) : Reply :=
  if c.sys.isSome ∨ pages = 0 ∨ base.toNat % tracePage ≠ 0 ∨ x.traces.any (fun t => t.who == c.ident) then refusal s 0xAA
  else match s.traceFrames x.asid base.toNat pages.toNat with
    | none => refusal s 0xAA
    | some fs =>
      let t : Trace := { who := c.ident, frames := fs, pages := pages.toNat, wr := 0, rd := 0, lost := 0, lastTs := s.count c.die }
      let s := s.setSession { x with traces := x.traces ++ [t] }
      granted (s.packet c t true (s.syncPacket c))

/-- What `TSTOP` comes to (R341). -/
def State.stopTrace (s : State) (x : Session) (c : Course) : Reply :=
  match x.traces.find? (fun t => t.who == c.ident) with
  | some t =>
    (some (0, bytesLE 8 (t.wr % (tracePage * t.pages))), s.setSession { x with traces := x.traces.filter (fun o => o.who != c.ident) })
  | none => refusal s 0xAB

/-- What `TACK` comes to (R341, R346): whole pages are freed; more than has been written cannot be. -/
def State.freeTrace (s : State) (x : Session) (n : Nat) (c : Course) : Reply :=
  match x.traces.find? (fun t => t.who == c.ident) with
  | some t =>
    let k := n / tracePage * tracePage
    if t.wr < t.rd + k then refusal s 0xAB
    else
      let t := { t with rd := t.rd + k }
      granted ((s.setTrace t).overflowed c t)
  | none => refusal s 0xAB

/-! The messages (R341). -/

/-- The opcode of a request. -/
def DbgReq.op : DbgReq → Byte
  | .close => 0x03
  | .ping => 0x04
  | .halt _ => 0x10
  | .resume _ => 0x11
  | .step _ _ => 0x12
  | .setbp _ _ _ _ => 0x13
  | .clrbp _ _ _ => 0x14
  | .read _ _ _ _ => 0x20
  | .write _ _ _ _ => 0x21
  | .tstart _ _ _ => 0x30
  | .tstop _ => 0x31
  | .tack _ _ => 0x32
  | .other op => op

/-- What a request of an open session comes to. Log entry 43, DESIGN CHOICE. -/
def State.respond (s : State) (x : Session) (seq : Word) : DbgReq → Reply
  | .close => granted (s.endSession x)
  | .ping => granted s
  | .halt name => s.about x name (fun c => granted (s.setHalted c true))
  | .resume name => s.about x name (fun c => if c.halted then granted (s.setHalted c false) else refusal s 0xA8)
  | .step name stream => s.about x name (s.beginStep x seq name stream)
  | .setbp name stream cmp pc => s.about x name (s.comparator x stream cmp (some pc))
  | .clrbp name stream cmp => s.about x name (s.comparator x stream cmp none)
  | .read name area off len => s.about x name (s.readArea x (nameThread name) area.toNat off.toNat len.toNat)
  | .write name area off bytes => s.about x name (s.writeArea_ x area.toNat off.toNat bytes)
  | .tstart name base pages => s.about x name (s.startTrace x base pages)
  | .tstop name => s.about x name (s.stopTrace x)
  | .tack name n => s.about x name (s.freeTrace x n.toNat)
  | .other _ => refusal s 0xAB

/-- Requests of a connection are answered one at a time, in order, up to a step that is under way (R340). -/
def State.serveAll (s : State) (conn : Nat) : List (Word × DbgReq) → State
  | [] => s
  | (seq, r) :: rest =>
    let s := s.request conn r.op seq false (fun s x _ => s.respond x seq r)
    match s.sessions.find? (fun x => x.conn == conn) with
    | none => s
    | some x => if x.stepping.isSome then s.setSession { x with waiting := rest } else s.serveAll conn rest

/-- A request arrives on a connection (R340): it is served after those that arrived before it, and none while a step is under way. -/
def State.message (s : State) (conn : Nat) (seq : Word) (r : DbgReq) : State :=
  let x := s.connection conn
  if x.stepping.isSome then s.setSession { x with waiting := x.waiting ++ [(seq, r)] }
  else (if x.waiting = [] then s else s.setSession { x with waiting := [] }).serveAll conn (x.waiting ++ [(seq, r)])

/-- The requests that waited for a step are served, once it is over (R340, R344). -/
def State.serveWaiting (s : State) : State :=
  match s.sessions.find? (fun x => x.stepping.isNone && x.waiting != []) with
  | some x => (s.setSession { x with waiting := [] }).serveAll x.conn x.waiting
  | none => s

/-- Whether a step is under way on a connection. -/
def State.inStep (s : State) (conn : Nat) : Bool := s.sessions.any (fun x => x.conn == conn && x.stepping.isSome)

/-- OPEN (R338, R341): 64 free bytes are the nonce. -/
def execOpenMsg (conn : Nat) (seq : Word) (asid : Nat) (s : State) : Out :=
  .next (if s.inStep conn then s.message conn seq (.other 0x01) else s.request conn 0x01 seq true (fun s x first =>
    if !first ∨ 2047 < asid then refusal s 0xAB
    else
      let nonce := (List.range 64).map (fun i => Config.freeByte (s.free + i))
      (some (0, nonce), { s with free := s.free + 64 }.setSession { x with asid := asid, nonce := nonce })))

/-- Whether a proof opens the session of an ASID (R338): the key is the registered one, its signature verifies, a function bound to the ASID
has accepted `DBG`, and no other session of the ASID is open. -/
def State.proofOk (s : State) (x : Session) (key sig : List Byte) : Bool :=
  (s.sessionOf x.asid).isNone && (s.functionsAccepted x.asid).getLsbD 7 && (List.range 256).any (fun n => s.vfAsid n == some x.asid) &&
  s.monitor.debugKeys.any (fun e => e.1 == x.asid && e.2 == Config.sha3 key) &&
  Config.mldsaVerify key (Config.sha3 (x.nonce ++ bytesLE 2 x.asid)) sig

/-- PROVE (R338, R341): it opens the session, or is answered 0xAC and the connection is closed. -/
def execProveMsg (conn : Nat) (seq : Word) (key sig : List Byte) (s : State) : Out :=
  .next (if s.inStep conn then s.message conn seq (.other 0x02) else s.request conn 0x02 seq true (fun s x _ =>
    if x.nonce = [] ∨ x.proven then refusal s 0xAB
    else if s.proofOk x key sig then granted (s.setSession { x with proven := true })
    else (some (0xAC, []), s.endSession x)))

/-- CLOSE (R341). -/
def execCloseMsg (conn : Nat) (seq : Word) (s : State) : Out := .next (s.message conn seq .close)
/-- PING (R341). -/
def execPingMsg (conn : Nat) (seq : Word) (s : State) : Out := .next (s.message conn seq .ping)
/-- RESERVED_DEBUG_MESSAGE (R341). -/
def execReservedDebugMessage (conn : Nat) (seq : Word) (opcode : Byte) (s : State) : Out := .next (s.message conn seq (.other opcode))
/-- DEBUG_HALT (R342). -/
def execDebugHalt (conn : Nat) (seq : Word) (name : BitVec 128) (s : State) : Out := .next (s.message conn seq (.halt name))
/-- RESUME (R341). -/
def execResumeMsg (conn : Nat) (seq : Word) (name : BitVec 128) (s : State) : Out := .next (s.message conn seq (.resume name))
/-- STEP (R344). -/
def execStepMsg (conn : Nat) (seq : Word) (name : BitVec 128) (stream : Byte) (s : State) : Out := .next (s.message conn seq (.step name stream))
/-- SETBP (R341, R343). -/
def execSetbp (conn : Nat) (seq : Word) (name : BitVec 128) (stream cmp : Byte) (pc : DWord) (s : State) : Out :=
  .next (s.message conn seq (.setbp name stream cmp pc))
/-- CLRBP (R341). -/
def execClrbp (conn : Nat) (seq : Word) (name : BitVec 128) (stream cmp : Byte) (s : State) : Out :=
  .next (s.message conn seq (.clrbp name stream cmp))
/-- READ (R341). -/
def execReadMsg (conn : Nat) (seq : Word) (name : BitVec 128) (area off len : Word) (s : State) : Out :=
  .next (s.message conn seq (.read name area off len))
/-- TSTART (R341, R345). -/
def execTstart (conn : Nat) (seq : Word) (name : BitVec 128) (base : DWord) (pages : Word) (s : State) : Out :=
  .next (s.message conn seq (.tstart name base pages))
/-- TSTOP (R341). -/
def execTstop (conn : Nat) (seq : Word) (name : BitVec 128) (s : State) : Out := .next (s.message conn seq (.tstop name))
/-- TACK (R341, R346). -/
def execTack (conn : Nat) (seq : Word) (name : BitVec 128) (n : DWord) (s : State) : Out := .next (s.message conn seq (.tack name n))

/-- A message with a bad header ends its session at once (R340). -/
def State.badHeader (s : State) (conn : Nat) : State :=
  match s.sessions.find? (fun x => x.conn == conn) with
  | some x => s.endSession x
  | none => s

/-- WRITE (R341): its body is 32 bytes and the data, and a body above 65,536 bytes is a bad header (R340), which ends the session: every
message with a bad header comes in so, since nothing else of it matters (log entry 43, DESIGN CHOICE). -/
def execWriteMsg (conn : Nat) (seq : Word) (name : BitVec 128) (area off : Word) (bytes : List Byte) (s : State) : Out :=
  .next (if 65536 < 32 + bytes.length then s.badHeader conn else s.message conn seq (.write name area off bytes))

/-- The die whose clock an agent runs on: die 0 for one that is no more. -/
def State.dieOfAgent (s : State) (who : DWord) : Nat := ((s.agents.find? (fun c => c.ident == who)).map Course.die).getD 0

/-- STEP_BLOCKED (R344): steps that could not issue within 2^16 cycles are answered 0xA9. -/
def execStepBlocked (s : State) : Out :=
  .next (s.sessions.foldl (fun (s : State) (x : Session) => match x.stepping with
    | some (seq, who, _, since, _) =>
      if s.cycleOf (s.dieOfAgent who) < since + stepCycles then s
      else (s.setSession { x with stepping := none }).reply x.conn 0x12 seq 0xA9 []
    | none => s) s).serveWaiting

/-- DEBUG_SESSION_TIMEOUT (R338). -/
def execDebugSessionTimeout (asid : Nat) (s : State) : Out :=
  .next (match s.sessions.find? (fun x => x.asid == asid && decide (sessionTicks ≤ (s.count 0 - x.lastMsg).toNat)) with
    | some x => s.endSession x
    | none => s)

/-- MANAGEMENT_LINK_DROP (R338): every session ends. -/
def execManagementLinkDrop (s : State) : Out := .next (s.sessions.foldl State.endSession s)

end Sys2Proof.Machine
end

