-- ==== Sys2Proof/Machine/Counters.lean ====
section
/-! DEFINITION. Counters and sampling (R347 to R349, R351). -/

namespace Sys2Proof.Machine

/-- SWPBASE_WRITE (R347, R348): one half of the sweep base is set, and the table of event codes is read. -/
def execSwpbaseWrite (hi : Bool) (v : Word) (s : State) : Out :=
  .next (
    let s := s.setDreg (if hi then 0x873 else 0x872) v
    let base := s.dreg64 0x870
    { s with ctrCodes := (List.range (16 * Config.walls)).filterMap (fun i =>
        let b := s.byte (base + i); if b = 0 then none else some (i, b)) })

/-- The sweeper of a die as an agent: it has no table, since it acquires nothing; its sweep number is a release at system scope (R18, R349). -/
def sweeper (die : Nat) (n : DWord) : Carry := { who := identity 1 (2 ^ 61 + die), scope := 8, rc := n, table := [], filter := 0 }

/-- SWEEP (R349): the counters of the die's 48 walls are read and cleared in one step; their values are written, then the die's
sweep number. A sweeper that `SWPPER` stops does nothing. -/
def execSweep (die : Nat) (s : State) : Out :=
  .next (
    if 3 < die ∨ s.dreg 0x874 = 0 then s
    else
      let base := s.dreg64 0x872
      let d := s.die die
      let n := d.sweeps + 1
      let s := (List.range 48).foldl (fun s i =>
        let w := 48 * die + i
        let x := s.wall w
        let bs := (List.range 16).flatMap (fun k => bytesLE 4 (Sparse.get x.counters k 0).toNat)
        (s.unitStore (base + 64 * w) bs).setWall w { x with counters := [] }) s
      let a := base + 12288 + 8 * die
      let s := (s.storeNat a 8 n.toNat).setDie die { d with sweeps := n }
      { s with rels := cutRels s.rels a 8 ++ [(a, 8, sweeper die n)] })

/-! Stall samples (R351). -/

/-- The entries that an instruction pops and pushes (R31, R211, R217, R219, R279, R280, R248), as its meaning has them. -/
def Instr.queueUse (i : Instr) : QueueUse :=
  match i with
  | .vld _ sz q _ _ nr _ _ => { pushes := [(q.toNat, loadCount sz nr)] }
  | .vldx _ sz q _ rs nr _ _ => { pops := [(4 + rs.toNat / 32, 1)], pushes := [(q.toNat, loadCount sz nr)] }
  | .vst _ sz q _ _ _ _ _ => { pops := [(4 + q.toNat, if sz = 3 then 2 else 1)] }
  | .vstx _ sz q _ rs _ _ _ => { pops := [(4 + rs.toNat / 32, 1), (4 + q.toNat, if sz = 3 then 2 else 1)] }
  | .vamo _ rd _ _ _ rb _ q => vatomicIo rd rb q 1
  | .vcas _ rd _ _ _ rb _ q => vatomicIo rd rb q 2
  | .qpush _ q _ => { pushes := [(q.toNat, 1)] }
  | .qpop _ _ q => { pops := [(4 + q.toNat, 1)] }
  | .remit _ _ q _ => { pops := [(4 + q.toNat, 1)] }
  | .rtake _ q _ n => { pushes := [(q.toNat, n.toNat + 1)] }
  | .rdone _ q => { pops := [(4 + q.toNat, 1)] }
  | .expr h e => exprIo h e
  | i => (match i.cview, i.shape with | some v, some sh => portUse sh v | _, _ => {})

/-- What a stream's next word asks for: its control fields and its queue entries. -/
def NextWord.asks : NextWord → Ctl × QueueUse
  | .instr i => (i.ctl.getD ⟨0, 0, 0⟩, Instr.queueUse i)
  | .bad k _ => (k, {})
  | .lost => (⟨0, 0, 0⟩, {})

/-- The class of a stream of the focused course in the cycle that has ended last: the first that holds. Log entry 75, DEDUCED. -/
def State.stallClass (s : State) (st : Stream) (k : Ctl) (io : QueueUse) : Nat :=
  let c := s.cur
  let w := s.wall c.wall
  let now := s.cycle - 1
  let held := st == .addr || c.unified
  let issued (o : Option Nat) : Bool := o == some now
  let chosen := (Sparse.get w.fronts (c.front st) (0, 0)).1 == now + 1
  let busy := match st with
    | .addr => false
    | .comp => decide (now < c.holdC) || (decide (now < Sparse.get w.lanes c.lset 0) && !chosen)
  if c.ended st then 11
  else if c.halted then 10
  else if held && (match c.hold with | .sleep _ => true | .wfe => true | _ => false) then 1
  else if held && (match c.hold with | .latch _ => true | _ => false) then 2
  else if held && (match c.hold with | .bar _ _ _ _ _ _ => true | _ => false) then 3
  else if issued (c.lastIssue st) then 0
  else if (match c.lastIssue st with | some n => decide (now < n + max 1 k.dist.toNat) | none => false) then 4
  else if busy then 5
  else if !c.flagsClear k.wait then 6
  else if !io.pops.all (fun e => (c.heads e.1 e.2).isSome) then 7
  else if !c.queuesReady io then 8
  else 9

/-- The record of a stream of the focused course: 16 bytes. -/
def State.stallRecord (s : State) (st : Stream) : List Byte :=
  let c := s.cur
  let asks := (s.nextWord st).1.asks
  let flags := ((List.range 12).map (fun f => if c.flag f = 0 then 0 else 2 ^ f)).sum
  let low := c.wall * 2 ^ 24 + c.lset % 4 * 2 ^ 22 + (match st with | .addr => 0 | .comp => 2 ^ 21) +
    s.stallClass st asks.1 asks.2 * 2 ^ 12 + flags
  bytesLE 4 low ++ bytesLE 4 (lo32 (c.pc st)).toNat ++ bytesLE 4 c.cid.toNat ++ bytesLE 4 c.lid.toNat

/-- One record enters the ring, or is dropped and counted when the ring is full; a ring of size 0 keeps nothing (log entry 13, DEDUCED). -/
def State.putSample (s : State) (bs : List Byte) : State :=
  let size := (s.dreg 0x87A).toNat
  let head := s.dreg 0x87C
  if size = 0 then s
  else if (head - s.dreg 0x87D).toNat = size then
    s.setDreg 0x87E (if s.dreg 0x87E = 0xFFFFFFFF#32 then 0xFFFFFFFF#32 else s.dreg 0x87E + 1)
  else (s.unitStore (s.dreg64 0x878 + 16 * (head.toNat % size)) bs).setDreg 0x87C (head + 1)

/-- STALL_SAMPLE (R351): the next resident course of a lane set, in slot order after the one taken before, gives two records. -/
def execStallSample (wall lset : Nat) (s : State) : Out :=
  .next (match s.planesIn wall .active with
    | [] => s
    | p :: _ =>
      let cs := (s.bySlot wall p).filter (fun c => c.lset == lset)
      let from_ := Sparse.get (s.wall wall).sampled lset 0
      match (match cs.find? (fun c => decide (from_ ≤ c.slot)) with | some c => some c | none => cs.head?) with
      | none => s
      | some c =>
        match s.focus c.ident with
        | none => s
        | some f =>
          let w := f.wall wall
          let g := f.setWall wall { w with sampled := Sparse.set w.sampled lset (c.slot + 1) 0 }
          (g.putSample (f.stallRecord .addr)).putSample (f.stallRecord .comp))

end Sys2Proof.Machine
end

