-- ==== Sys2Proof/Machine/HostSide.lean ====
section
/-! DEFINITION. The host's side and the monitor's: clients' accesses (R151, R326, R363), attachment (R327 to R329), boot and measurement (R335, R336, R391), updates, the
life-long counters (R392), loss of power. -/

namespace Sys2Proof.Machine

/-! Attachment blocks. Functions 0 to 255 are the virtual ones, 256 and 257 the physical functions of the links. -/

/-- Whether a function answers its host (R326). -/
def State.enabled (s : State) (vf : Nat) : Bool := vf == 256 || vf == 257 || (vf < 256 && (s.vfAsid vf).isSome)

/-- The functions' registers of R327, with a function's block changed. -/
def State.setVf (s : State) (vf : Nat) (x : Vf) : State := { s with vfs := Sparse.set s.vfs vf x Vf.zero }

/-- The attachment block of a function. -/
def State.vf (s : State) (vf : Nat) : Vf := Sparse.get s.vfs vf Vf.zero

/-- A function accepts a feature word: the latest acceptance stands last (R329). -/
def State.accept (s : State) (vf : Nat) (w : DWord) : State :=
  { s with accepted := s.accepted.filter (fun e => e.1 != vf) ++ [(vf, w)] }

/-- The accepted words of a function are checked, and its ASID's acceptance follows (R329). -/
def State.negotiated (s : State) (vf : Nat) : State :=
  let x := s.vf vf
  let w0 := (Sparse.get x.accept 0 0).toNat
  let asid := if vf < 256 then s.vfAsid vf else none
  let bad := (List.range 64).any (fun i => ebit w0 i && !ebit (s.offered (decide (256 ≤ vf))) i) || !ebit w0 0 ||
    [1, 2, 3].any (fun k => Sparse.get x.accept k 0 != 0)
  let stat : Byte := if bad then 0xA1 else if (asid.map s.busyAsid).getD false then 0xA5 else 0
  let s := s.setVf vf { x with fstat := stat }
  if stat = 0 then s.accept vf (BitVec.ofNat 64 w0) else s

/-- A write of `FGO` (R329): a 1 makes `FSTAT` pending, until the device has checked the accepted words. -/
def State.fgo (s : State) (vf : Nat) (v : Word) : State :=
  if v = 1 then s.setVf vf { s.vf vf with fstat := 0xFF } else s

/-- The device checks the accepted words of a function whose `FSTAT` is pending (R329). -/
def negotiate (vf : Nat) (s : State) : Out := .next (if (s.vf vf).fstat = 0xFF then s.negotiated vf else s)

/-- A write of a `FACCEPT` word (R327, R329): ignored while `FSTAT` is pending. -/
def State.faccept (s : State) (vf word : Nat) (v : DWord) : State :=
  let x := s.vf vf
  if x.fstat = 0xFF ∨ 3 < word then s else s.setVf vf { x with accept := Sparse.set x.accept word v 0 }

/-- Where the model keeps a byte of the memory of a link's host that no offset of the client window reaches: no physical address. -/
def hostKey (link addr : Nat) : Nat := 2 ^ 160 + link * 2 ^ 64 + addr

/-- The client window of a link begins at another address of its host's memory (R146, R327): the bytes it reached before stay at their addresses
there, and its offsets reach those that stand from the new base on. No cache holds a sector of it then, and no race tag or release of what it
reached stands (log entry 130, DESIGN CHOICE). -/
def State.rebase (s : State) (link : Nat) (old new : DWord) : State :=
  if old = new then s
  else
    let lo := s.did * 2 ^ 46 + 2 ^ 45 + link * 2 ^ 40
    let inWindow (a : Nat) : Bool := lo ≤ a && a < lo + 2 ^ 40
    let beyond (a : Nat) : Bool := hostKey link 0 ≤ a && a < hostKey link 0 + 2 ^ 64
    let place (a : Nat) : Nat :=
      let host := if inWindow a then old + BitVec.ofNat 64 (a - lo) else BitVec.ofNat 64 (a - hostKey link 0)
      if (host - new).toNat < 2 ^ 40 then lo + (host - new).toNat else hostKey link host.toNat
    let s := (s.invalidateCaches (fun n => inWindow (32 * n))).clearTags lo (2 ^ 40)
    let moved := s.mem.filter (fun c => inWindow c.1 || beyond c.1)
    { s with
      mem := moved.foldl (fun (m : List Host.Cell) (c : Nat × Byte) => Sparse.set m (place c.1) c.2 0)
        (s.mem.filter (fun c => !(inWindow c.1 || beyond c.1)))
      rels := cutRels s.rels lo (2 ^ 40) }

/-- A write of a window register (R327): ignored while the window is enabled, but for a write that disables it; a length that is no
multiple of 16 KiB or above 2^40 is not taken (log entry 28, DEDUCED). -/
def State.windowWrite (s : State) (link : Nat) (r : WinReg) (v : DWord) : State :=
  let x := Sparse.get s.windows link Window.zero
  let on := x.ctl.getLsbD 0
  let put (y : Window) : State := { s with windows := Sparse.set s.windows link y Window.zero }
  if 1 < link then s
  else match r with
    | .base => if on then s else (put { x with base := v }).rebase link x.base v
    | .len => if on ∨ v.toNat % 2 ^ 14 ≠ 0 ∨ 2 ^ 40 < v.toNat then s else put { x with len := v }
    | .ctl => if on ∧ v.getLsbD 0 then s else put { x with ctl := lo32 v &&& 3 }

/-- What an access from a host comes to: held at step 1 of boot the device serves its management port alone (R391). -/
def State.hosted (s : State) (f : State → State) : State := if s.monitor.bootStep = 1 then s else f s

/-- What an access to a function's block comes to: a disabled function answers Unsupported Request (R326). -/
def State.onFunction (s : State) (vf : Nat) (f : State → State) : State :=
  s.hosted (fun s => if 257 < vf then s else if s.enabled vf then f s else s.answer .unsupported)

/-- FGO_WRITE (R329). -/
def execFgoWrite (vf : Nat) (v : Word) (s : State) : Out := .next (s.onFunction vf (fun s => s.fgo vf v))

/-- FACCEPT_WRITE (R327, R329). -/
def execFacceptWrite (vf word : Nat) (v : DWord) (s : State) : Out := .next (s.onFunction vf (fun s => s.faccept vf word v))

/-- WINDOW_REGISTER_WRITE (R327): of a link's physical function. -/
def execWindowRegisterWrite (link : Nat) (r : WinReg) (v : DWord) (s : State) : Out := .next (s.hosted (fun s => s.windowWrite link r v))

/-- The fields of a function's attachment block that read as something other than zero (R327): offset, bytes, value. Bits 63 to 8 of
feature word 0 read zero whatever was written (R5, R328). -/
def State.blockFields (s : State) (vf : Nat) : List (Nat × Nat × Nat) :=
  let x := s.vf vf
  let w := Sparse.get s.windows (vf - 256) Window.zero
  [(0x000, 8, s.offered (decide (256 ≤ vf))), (0x044, 4, x.fstat.toNat)] ++
  (List.range 4).map (fun k => (0x020 + 8 * k, 8, (Sparse.get x.accept k 0).toNat % (if k = 0 then 256 else 2 ^ 64))) ++
  (if 256 ≤ vf then [(0x080, 8, w.base.toNat), (0x088, 8, w.len.toNat), (0x090, 4, w.ctl.toNat)] else [])

/-- A byte of a function's attachment block. -/
def State.blockByte (s : State) (vf o : Nat) : Byte :=
  match (s.blockFields vf).find? (fun f => f.1 ≤ o && o < f.1 + f.2.1) with
  | some f => BitVec.ofNat 8 (f.2.2 / 256 ^ (o - f.1))
  | none => 0

/-- What the `n` bytes at an offset of a function's block are once a write has reached them; none where it reaches none. -/
def State.blockMerged (s : State) (vf off : Nat) (bs : List Byte) (o n : Nat) : Option Nat :=
  if off < o + n ∧ o < off + bs.length then
    some (ofBytesLE ((List.range n).map (fun i =>
      if off ≤ o + i && o + i < off + bs.length then bs.getD (o + i - off) 0 else s.blockByte vf (o + i))))
  else none

/-- A write to a function's attachment block (R327): the fields it reaches, in rising order. -/
def State.blockWrite (s : State) (vf off : Nat) (bs : List Byte) : State :=
  let field (o n : Nat) (f : State → Nat → State) (s : State) : State :=
    match s.blockMerged vf off bs o n with | some x => f s x | none => s
  let win (o n : Nat) (r : WinReg) (s : State) : State :=
    if vf < 256 then s else field o n (fun s x => s.windowWrite (vf - 256) r (BitVec.ofNat 64 x)) s
  let s := (List.range 4).foldl (fun (s : State) (k : Nat) => field (0x020 + 8 * k) 8 (fun s x => s.faccept vf k (BitVec.ofNat 64 x)) s) s
  let s := field 0x040 4 (fun s x => s.fgo vf (BitVec.ofNat 32 x)) s
  let s := win 0x090 4 .ctl (win 0x088 8 .len (win 0x080 8 .base s))
  field 0x100 4 (fun s x => s.qbell vf (BitVec.ofNat 32 x)) s

/-- The physical address of a byte of a link's client window (R146), if the window is enabled and holds `n` bytes there. -/
def State.windowPlace (s : State) (link off n : Nat) : Option Nat :=
  let w := Sparse.get s.windows link Window.zero
  if w.ctl.getLsbD 0 && decide (off + n ≤ w.len.toNat) then some (s.did * 2 ^ 46 + 2 ^ 45 + link * 2 ^ 40 + off) else none

/-- The host behind a link writes bytes of its memory, which the device does not snoop (R307): where a cache holds the sector, the device
goes on reading the cached bytes until the caches give it up. -/
def State.hostWrite (s : State) (link off : Nat) (bs : List Byte) : State :=
  match s.windowPlace link off bs.length with
  | none => s
  | some a =>
    bs.zipIdx.foldl (fun (s : State) (e : Byte × Nat) =>
      if s.cached ((a + e.2) / 32) then { s with hostMem := Sparse.put s.hostMem (a + e.2) e.1 }
      else { s with mem := Sparse.set s.mem (a + e.2) e.1 0, rels := cutRels s.rels (a + e.2) 1 }) s

/-- CLIENT_ACCESS (R151, R326, R327, R363): a function's access to its attachment block in BAR 0, or to memory in its bound ASID, or its
host's write to its own memory. A disabled function answers Unsupported Request, as does any function to an atomic, which is no capability
of the device, and a physical function, which has no ASID, to an access to memory. Log entry 69, DEDUCED. -/
def execClientAccess (vf : Nat) (va : DWord) (rq : BusReq) (s : State) : Out :=
  .next (match rq with
    | .hostWrite bs => if vf < 258 then s.hostWrite (if vf < 256 then vf / 128 else vf - 256) va.toNat bs else s
    | _ => s.onFunction vf (fun s =>
      match rq, (if vf < 256 then s.vfAsid vf else none) with
      | .blockRead n, _ => s.answer (.data ((List.range n).map (fun i => s.blockByte vf (va.toNat + i))))
      | .blockWrite bs, _ => s.blockWrite vf va.toNat bs
      | .read n, some asid => s.clientMemory vf asid va none n
      | .write bs posted, some asid => s.clientMemory vf asid va (some (bs, posted)) bs.length
      | _, _ => s.answer .unsupported))

/-! Boot. -/

/-- A slot: its images (R334). -/
def Monitor.slot (m : Monitor) (b : Bool) : List Image := if b then m.slotB else m.slotA

/-- The image of a kind in a slot. -/
def kindIn (is : List Image) (kind : Nat) : Option Image := is.find? (fun b => imgKind b == kind)

/-- Whether a slot's full set of images is accepted (R332, R334). -/
def Monitor.slotOk (m : Monitor) (is : List Image) : Bool :=
  [1, 2, 3, 4].all (fun k => match kindIn is k with | some b => m.verdict b == 0 | none => false)

/-- The slot that the marker in force asks for, with the marker that is written first (R335, R391). -/
def Monitor.choose (m : Monitor) : Monitor × Bool :=
  match m.marker with
  | none =>
    let b := !m.slotOk m.slotA
    (m.writeMarker b false 0, b)
  | some k =>
    if !k.trial then (m, k.slotB)
    else if 0 < k.tries then (m.writeMarker k.slotB true (k.tries - 1), k.slotB)
    else (m.writeMarker (!k.slotB) false 0, !k.slotB)

/-- The slot that boots, one of them being good: where the one asked for fails, a confirmed marker names the other (R391). -/
def Monitor.settle (m : Monitor) : Monitor × Bool :=
  let (m, b) := m.choose
  if m.slotOk (m.slot b) then (m, b) else ((m.writeMarker (!b) false 0).lifeAdd 2 1, !b)

/-- Register 5 is extended by the fuse counters and the marker in force (R336, R391; log entry 25, DESIGN CHOICE). -/
def Monitor.measureSlot (m : Monitor) : Monitor :=
  m.extend 5 ([1, 2, 3, 4, 5].map (fun k => BitVec.ofNat 8 (Sparse.get m.svn k 0)) ++ ((m.marker).map markerBytes).getD [])

/-- A system core at its start (R297, R300, R336): level 2, events held back, at the load address of its firmware (log entry 25, DESIGN CHOICE). -/
def startCore (n : Nat) (ident pc : DWord) : Course :=
  { Course.blank with
    ident := ident, nthr := 1, vcnt := 0, launch := 2 ^ 32, pcA := pc, endC := true, live := 1,
    sys := some { core := n, lvl := 2, ie := false, asidr := 0, sup := TrapSet.zero, hyp := TrapSet.zero, evpend := 0, even := 0 } }

/-- An image's payload stands at its load address. -/
def State.loadImage (s : State) (b : Image) : State := s.unitStore (imgNum b 24 8) (imgPayload b)

/-- The system cores start (R336). -/
def State.startCores (s : State) (pc : DWord) : State :=
  let cs := (List.range 16).map (fun n => startCore n (identity 2 (s.nextStart + n)) pc)
  { s with cur := cs.headD Course.nobody, parked := cs.tail, nextStart := s.nextStart + 16 }

/-- Spares that are left in the device. -/
def State.sparesLeft (s : State) : Nat := ((List.range 4).map (fun d => (s.die d).spares)).sum

/-- A physical address of device 0 as it is written once the device has a number (R22). -/
def renumbered (dev size a : Nat) : Nat := if a < size then a + dev * size else a

/-- The device takes a number within its site (R22, R336): its own memory stands at the same places under the new number, and its caches are
written back and empty. The cores run on at the same words; every other address that software keeps carries `DEV` 0 until the hypervisor
rewrites it (log entry 25, DESIGN CHOICE). -/
def State.renumber (s : State) (dev : Nat) : State :=
  let s := s.invalidateCaches (fun _ => true)
  let own {β : Type} (size : Nat) (m : Sparse β) : Sparse β :=
    (m.filter (fun e => e.1 < size || 64 * size ≤ e.1)).map (fun (e : Nat × β) => (renumbered dev size e.1, e.2))
  { s with
    mem := own (2 ^ 46) s.mem, hostMem := own (2 ^ 46) s.hostMem, poison := own (2 ^ 41) s.poison, tags := own (2 ^ 41) s.tags
    granule := own (2 ^ 32) s.granule
    rels := s.rels.map (fun (e : Nat × Nat × Carry) => (renumbered dev (2 ^ 46) e.1, e.2)) }.modAll (fun c => match c.sys with
      | some y => { c with icacheA := [], pcA := if y.lvl = 2 then BitVec.ofNat 64 (renumbered dev (2 ^ 46) c.pcA.toNat) else c.pcA }
      | none => c)

/-- The hypervisor brings the scale-up fabric up at step 4 of boot, where the device belongs to a site: it fixes the device's number (R22,
R336). -/
def State.bringUp (s : State) (fabric : Bool) (dev : Nat) : State :=
  let up := fabric && decide (dev < 64)
  let s := if up && dev != 0 then s.renumber dev else s
  { s with fabric := up, did := if up then dev else 0, monitor := { s.monitor with bootStep := 5 } }

/-- A number of ticks, split over the 16 bins of a die as open values say (R392; log entry 26, DESIGN CHOICE). -/
def binTicks (free n : Nat) : List Nat :=
  let r := (List.range 15).foldl (fun (acc : List Nat × Nat) (b : Nat) =>
    let x := Config.freeNat (free + b) % (acc.2 + 1)
    (acc.1 ++ [x], acc.2 - x)) ([], n)
  r.1 ++ [r.2]

/-- The running counters with the ticks since the last update added: those powered on, and each die's in the temperature bins. -/
def State.lifeRun (s : State) : State :=
  let m := s.monitor
  let n := (s.count 0).toNat - m.lifeTick.toNat
  let bins := [0, 1, 2, 3].flatMap (fun d => (binTicks (s.free + 15 * d) n).zipIdx.map (fun e => (0x100 + 16 * d + e.2, e.1)))
  let m := bins.foldl (fun (m : Monitor) (e : Nat × Nat) => m.lifeAdd e.1 e.2) (m.lifeAdd 0 n)
  { s with monitor := { m with lifeTick := s.count 0 }, free := s.free + 60 }

/-- A boot begins (R392): it is counted, and the counters run on from flash; a boot that goes on from step 1 is the same one. -/
def State.bootBegun (s : State) : State :=
  if s.powered then s.lifeRun
  else
    let m := s.monitor
    { s with monitor := { m with lifeNow := Sparse.set m.life 6 s.sparesLeft 0, lifeTick := s.count 0 }.lifeAdd 1 1 }

/-- The first steps of boot (R335, R336, R391): the monitor settles the slot, verifies and measures its images, loads the patch set into
each die's sequencer and the firmware and the hypervisor into memory, and starts the 16 system cores, on device 0. With no good slot the
monitor stays at step 1. -/
def State.bootUp (s : State) : State :=
  let s := s.bootBegun
  let m := s.monitor
  if !m.slotOk m.slotA ∧ !m.slotOk m.slotB then { s with powered := true, monitor := { m.measureSlot with bootStep := 1 } }
  else
    let (m, b) := m.settle
    let is := [1, 2, 3, 4].filterMap (kindIn (m.slot b))
    let m := is.foldl (fun (m : Monitor) (i : Image) => { m.measure i with runSvn := Sparse.set m.runSvn (imgKind i) (imgSvn i) 0 }) m.measureSlot
    let m := { m with runB := b, bootStep := 4 }
    let patch := ((kindIn is 2).map (fun i => Config.patchSet (imgPayload i))).getD []
    let ram := patch.foldl (fun (t : Sparse (BitVec 128)) (e : Nat × BitVec 128) => Sparse.put t e.1 e.2) []
    let s := { s with powered := true, monitor := m }
    let s := [0, 1, 2, 3].foldl (fun (s : State) (d : Nat) => s.setDie d { s.die d with patch := ram }) s
    let s := (is.filter (fun i => 3 ≤ imgKind i)).foldl State.loadImage s
    s.startCores (BitVec.ofNat 64 (((kindIn is 3).map (fun i => imgNum i 24 8)).getD 0))

/-- BOOT (R22, R335, R336, R391): the device boots to step 4, where its cores run; the next such event is the bring-up of the fabric
there. -/
def execBoot (fabric : Bool) (dev : Nat) (s : State) : Out :=
  .next (
    if s.powered ∧ 1 < s.monitor.bootStep then (if s.monitor.bootStep = 4 then s.bringUp fabric dev else s)
    else s.bootUp)

/-- SLOT_UPDATE (R335, R336): the inactive slot is written whole and verified, every accepted image being measured; then a trial marker with
three tries names it. -/
def execSlotUpdate (imgs : List Image) (s : State) : Out :=
  .next (
    let m := s.monitor
    if m.bootStep < 4 then s
    else
      let b := !((m.marker.map (fun k => k.slotB)).getD m.runB)
      let m := if b then { m with slotB := imgs } else { m with slotA := imgs }
      let m := (imgs.filter (fun i => m.verdict i == 0)).foldl Monitor.measure m
      { s with monitor := if m.slotOk imgs then m.writeMarker b true 3 else m })

/-- MANAGEMENT_PORT_IMAGE (R336, R391): held at step 1, the monitor accepts a signed image into slot A, and measures it. -/
def execManagementPortImage (img : Image) (s : State) : Out :=
  .next (
    let m := s.monitor
    if m.bootStep ≠ 1 ∨ m.verdict img ≠ 0 ∨ 4 < imgKind img then s
    else { s with monitor := { m with slotA := m.slotA.filter (fun b => imgKind b != imgKind img) ++ [img] }.measure img })

/-! Life-long counters (R392). -/

/-- LIFESEL_WRITE (R392). -/
def execLifeselWrite (v : Word) (s : State) : Out := .next (s.setDreg 0x8B0 v)

/-- The counters are saved in flash (R392). -/
def State.lifeSave (s : State) : State :=
  let s := s.lifeRun
  { s with monitor := { s.monitor with life := s.monitor.lifeNow } }

/-- LIFE_COUNTER_UPDATE (R392). -/
def execLifeCounterUpdate (s : State) : Out := .next s.lifeSave

/-! Power. -/

/-- A loss of power while the monitor blows the fuses of an `SVN` commit: each bit is blown wholly or not at all, so that the counter stands
somewhere between what it was and what it was to be (R391; log entry 117, DESIGN CHOICE). -/
def Monitor.cutCommit (m : Monitor) (kind old x : Nat) : Monitor :=
  let new := Sparse.get m.svn kind 0
  { m with svn := Sparse.set m.svn kind (old + x % (new - old + 1)) 0 }

/-- A loss of power while a marker is being written leaves that copy invalid and the other standing (R334). -/
def Monitor.cutMarker (m : Monitor) : Monitor := if m.intoFirst then { m with mark0 := none } else { m with mark1 := none }

/-- What the monitor was writing when power was lost: the fuses of a commit that no instruction has followed, else a marker. -/
def State.cutWrite (s : State) (m : Monitor) : Monitor :=
  match s.monitor.burning with
  | some (kind, old, id) => if s.nextId = id then m.cutCommit kind old (Config.freeNat s.free) else m.cutMarker
  | none => m.cutMarker

/-- A wall as repair left it: what becomes of repair over a loss of power is not stated (log entry 27, DESIGN CHOICE). -/
def Wall.repaired (w : Wall) : Wall :=
  { Wall.zero with
    service := (if w.service = .retired then Service.retired else if w.phys.isSome then .spare else .inService)
    phys := w.phys }

/-- The monitor's fuses and flash. -/
def Monitor.kept (m : Monitor) : Monitor :=
  { Monitor.zero with
    keys := m.keys, svn := m.svn, slotA := m.slotA, slotB := m.slotB, mark0 := m.mark0, mark1 := m.mark1,
    life := m.life, lifeNow := m.life }

/-- The client memory that its host has declared persistent (R20, R327), as a device without a number addresses it: what stands in the
host's memory, at its window and beyond. -/
def State.persistent (s : State) : List Host.Cell :=
  let kept (a : Nat) : Bool := s.isLocal a && rgn a == 2 &&
    (Sparse.get s.windows (rgnOff a / 2 ^ 40) Window.zero).ctl.toNat % 4 == 3
  let keptBeyond (a : Nat) : Bool := [0, 1].any (fun link => hostKey link 0 ≤ a && a < hostKey (link + 1) 0 &&
    (Sparse.get s.windows link Window.zero).ctl.toNat % 4 == 3)
  let m := s.hostMem.foldl (fun (m : List Host.Cell) (c : Nat × Byte) => Sparse.set m c.1 c.2 0) s.mem
  (m.filter (fun c => kept c.1)).map (fun (c : Nat × Byte) => (c.1 - s.did * 2 ^ 46, c.2)) ++ m.filter (fun c => keptBeyond c.1)

/-- POWER_LOSS (R20, R334, R391, R392): only fuses, flash, repair and persistent client memory last; `cut` says that the monitor was writing a
marker or fuses. Log entry 67, DESIGN CHOICE. -/
def execPowerLoss (cut : Bool) (s : State) : Out :=
  .next (
    let m := s.monitor.kept
    let m := if cut then s.cutWrite m else m
    let walls := s.walls.filterMap (fun e => let w := e.2.repaired; if w = Wall.zero then none else some (e.1, w))
    let dies := s.dies.filterMap (fun e => let d := { Die.zero with spares := e.2.spares }; if d = Die.zero then none else some (e.1, d))
    let r := { State.reset with powered := false, mem := s.persistent, free := s.free + 1, nextId := s.nextId, walls := walls, dies := dies,
                                monitor := m, outbox := s.outbox, busOut := s.busOut }
    [0, 1].foldl (fun (r : State) (link : Nat) => r.rebase link (Sparse.get s.windows link Window.zero).base 0) r)

end Sys2Proof.Machine
end

