-- ==== Sys2Proof/Machine/Lanes.lean ====
section
/-! DEFINITION. Lane operations: instructions whose results for one thread depend on others (R245 to R247). -/

namespace Sys2Proof.Machine

/-- The words that each group of participants gives its threads: `f` from the group's set, its participants and a
thread (R245). -/
def State.groupWords (s : State) (v : CView) (f : OpSet → List Nat → Nat → Word) : Res :=
  .done s
    { lat := some 8, beats := (s.cur.beats v).length, skipped := s.cur.skipped v,
      writes := vectorWrites s.nextId
        ((s.cur.groups v).map (fun g => (g.1.d.toNat, g.2.map (fun t => (t, f g.1 g.2 t))))) }

/-- The source thread of `SHFL` (R246). -/
def shflSource (mode t k : Nat) : Option Nat :=
  match mode with
  | 0 => some k
  | 1 => if k ≤ t then some (t - k) else none
  | 2 => some (t + k)
  | _ => some (t ^^^ (k % 128))

/-- SHFL (R246). -/
def execShfl (h : CHdr) (a : OpSet) (t : Tail) (s : State) : Out :=
  execPlain (.shfl h a t) (fun v s =>
    s.groupWords v (fun a ps t =>
      match shflSource a.s3.toNat t (s.cur.src2 v a t).toNat with
      | some u => s.cur.vsrc (if ps.contains u then u else t) a.s1.toNat
      | none => s.cur.vsrc t a.s1.toNat)) s

/-- What `VOTE` says of its group's predicates (R246). -/
def voted (mode : Nat) (bs : List Bool) : Bool :=
  match mode with
  | 0 => bs.any id
  | 1 => bs.all id
  | _ => bs.all id || bs.all (fun b => !b)

/-- VOTE (R246). -/
def execVote (h : CHdr) (a : OpSet) (t : Tail) (s : State) : Out :=
  execPlain (.vote h a t) (fun v s =>
    .done s
      { lat := some 8, beats := (s.cur.beats v).length, skipped := s.cur.skipped v,
        writes := (s.cur.groups v).map (fun g =>
          let r := voted g.1.s3.toNat (g.2.map (fun t => (s.cur.P g.1.s1.toNat).getLsbD t))
          .p g.1.d.toNat (maskOf g.2) (if r then maskOf g.2 else 0)) }) s

/-- BALLOT (R247): sets that name one destination share its words. -/
def execBallot (h : CHdr) (a : OpSet) (t : Tail) (s : State) : Out :=
  execPlain (.ballot h a t) (fun v s =>
    let rs := (s.cur.groups v).map (fun g => (g.1.d.toNat, maskOf g.2 &&& s.cur.P g.1.s1.toNat))
    let whole (d : Nat) : Mask := (rs.filter (fun r => r.1 == d)).foldl (fun m r => m ||| r.2) 0
    .done s
      { lat := some 8, beats := (s.cur.beats v).length, skipped := s.cur.skipped v,
        writes := ((rs.map Prod.fst).dedup).flatMap (fun d =>
          (List.range 3).map (fun k => RegWrite.w (d + k) (maskWord (whole d) k))) }) s

/-- The integer operations of `SCAN` and `REDUX` (R246). -/
def foldOp (op : Nat) (x y : Word) : Word :=
  match op with
  | 0 => x + y
  | 1 => minS x y
  | 2 => maxS x y
  | 3 => minU x y
  | _ => maxU x y

/-- The identity of each operation, for an exclusive scan's lowest participant (R246). -/
def foldUnit (op : Nat) : Word :=
  match op with
  | 1 => 0x7FFFFFFF#32
  | 2 => 0x80000000#32
  | 3 => 0xFFFFFFFF#32
  | _ => 0

/-- The fold of some threads of a group in ascending order, from the lowest one's value (R246): a floating sum is rounded to
`TYPE` by the lane word of the thread whose value is added. -/
def foldThreads (c : Course) (v : CView) (r : Rounding) (a : OpSet) (op : Nat) (ts : List Nat) : Word :=
  let bf := v.h.typ == 1
  let fl := op == 5
  let value (t : Nat) : Word := c.vsrc t a.s1.toNat
  let val (x : Word) : XVal := (operand bf x).flush r.slot.sub
  let step (x : Word) (t : Nat) : Word :=
    if fl then roundTyp bf (r.at t) (XVal.add r.mode (val x) (val (value t))) else foldOp op x (value t)
  match ts with
  | [] => foldUnit op
  | t :: rest =>
    rest.foldl step (if fl then roundTyp bf { r.at t with mode := 0 } (val (value t)) else value t)

/-- The rounding of `SCAN` and `REDUX`: only a floating sum rounds (R91). -/
def State.foldRounding (s : State) (v : CView) : Rounding × State :=
  if v.sets.any (fun a => a.s3.toNat % 8 == 5) then s.rounding v else (⟨s.cur.slotOf v.h, 0, []⟩, s)

/-- SCAN (R246): `S3` bit 3 makes it exclusive. -/
def execScan (h : CHdr) (a : OpSet) (t : Tail) (s : State) : Out :=
  execPlain (.scan h a t) (fun v s =>
    let (r, s) := s.foldRounding v
    s.groupWords v (fun a ps t =>
      let excl := a.s3.getLsbD 3
      foldThreads s.cur v r a (a.s3.toNat % 8) (ps.filter (fun u => u < t || (u == t && !excl))))) s

/-- REDUX (R246). -/
def execRedux (h : CHdr) (a : OpSet) (t : Tail) (s : State) : Out :=
  execPlain (.redux h a t) (fun v s =>
    let (r, s) := s.foldRounding v
    s.groupWords v (fun a ps _ => foldThreads s.cur v r a (a.s3.toNat % 8) ps)) s

end Sys2Proof.Machine
end

