-- ==== Sys2Proof/Machine/Matrix.lean ====
section
/-! DEFINITION. Small-matrix instructions (R285 to R296). Element (i, j) of a `q` register is its element 6i + j; a shape tag is
8r + c. -/

namespace Sys2Proof.Machine

/-- Rows of `q`n of thread t. -/
def Course.qrows (c : Course) (t n : Nat) : Nat := c.shape t n / 8
/-- Columns of `q`n of thread t. -/
def Course.qcols (c : Course) (t n : Nat) : Nat := c.shape t n % 8
/-- Whether `q`n of thread t has a shape (R285). -/
def Course.shaped (c : Course) (t n : Nat) : Bool := c.shape t n != 0

/-- The writes of a whole matrix of shape r × c, its shape first: the elements outside it are +0 (R285). -/
def matWrites (n t r c : Nat) (f : Nat → Nat → Word) : List RegWrite :=
  .qs n t (8 * r + c) ::
  (List.range 36).map (fun e => RegWrite.qe n t e (if e / 6 < r ∧ e % 6 < c then f (e / 6) (e % 6) else 0))

/-- The threads of a word, each with its operand set. -/
def Course.lanesOf (c : Course) (v : CView) : List (OpSet × Nat) :=
  (c.groups v).flatMap (fun g => g.2.map (fun t => (g.1, t)))

/-- A small-matrix instruction: the shape check of every thread acted on (R286), then its effect. -/
def execMat (i : Instr) (lat : Option Nat) (ok : Course → OpSet → Nat → Bool) (rounds : Bool)
    (body : CView → Rounding → Course → Nat → List RegWrite) (late : Course → CView → Option Nat) (s : State) : Out :=
  execPlain i (fun v s =>
    let bad := ((s.cur.lanesOf v).filter (fun e => !ok s.cur e.1 e.2)).map Prod.snd
    if bad != [] then .trap s { code := 0x6B, fmask := maskOf bad }
    else
      let (r, s) := if rounds then s.rounding v else (⟨s.cur.slotOf v.h, 0, []⟩, s)
      .done s { lat := lat, writes := body v r s.cur s.nextId, beats := (s.cur.beats v).length, skipped := s.cur.skipped v,
                window := (if lat.isSome then 0 else 12, late s.cur v) }) s

/-- An instruction without a time limit of its own. -/
def noLimit (_ : Course) (_ : CView) : Option Nat := none
/-- An instruction that checks no shape. -/
def anyShape (_ : Course) (_ : OpSet) (_ : Nat) : Bool := true

/-- The writes of every thread acted on. -/
def perLane (f : OpSet → Nat → List RegWrite) (v : CView) (c : Course) : List RegWrite :=
  (c.lanesOf v).flatMap (fun e => f e.1 e.2)

/-! Shapes and movement (R289). -/

/-- QZERO. -/
def execQzero (h : CHdr) (a : OpSet) (t : Tail) (s : State) : Out :=
  execMat (.qzero h a t) (some 2) anyShape false (fun v _ c _ =>
    perLane (fun a t => matWrites a.d.toNat t a.s2.toNat a.s3.toNat (fun _ _ => 0)) v c) noLimit s

/-- QSHAPE. -/
def execQshape (h : CHdr) (a : OpSet) (t : Tail) (s : State) : Out :=
  execMat (.qshape h a t) (some 2) anyShape false (fun v _ c _ =>
    perLane (fun a t => matWrites a.d.toNat t a.s2.toNat a.s3.toNat (fun i j => c.Q t a.d.toNat (6 * i + j))) v c)
    noLimit s

/-- The storage element of index e of a matrix with `cols` columns (R289). -/
def elemAt (cols e : Nat) : Nat := 6 * (e / cols) + e % cols

/-- QLD: it writes nothing into an unshaped register. -/
def execQld (h : CHdr) (a : OpSet) (t : Tail) (s : State) : Out :=
  execMat (.qld h a t) (some 4) anyShape false (fun v _ c _ =>
    perLane (fun a t =>
      let d := a.d.toNat
      (List.range a.s3.toNat).flatMap (fun k =>
        let e := a.s2.toNat + k
        if e < c.qrows t d * c.qcols t d then
          [RegWrite.qe d t (elemAt (c.qcols t d) e) (c.vsrc t (a.s1.toNat + k))] else [])) v c) noLimit s

/-- QST. -/
def execQst (h : CHdr) (a : OpSet) (t : Tail) (s : State) : Out :=
  execMat (.qst h a t) (some 4) (fun c a t => c.shaped t a.s1.toNat) false (fun v _ c id =>
    vectorWrites id ((c.groups v).flatMap (fun g =>
      let q := g.1.s1.toNat
      (List.range g.1.s3.toNat).map (fun k =>
        (g.1.d.toNat + k, g.2.map (fun t =>
          let e := g.1.s2.toNat + k
          (t, if e < c.qrows t q * c.qcols t q then c.Q t q (elemAt (c.qcols t q) e) else 0))))))) noLimit s

/-- QTRN. -/
def execQtrn (h : CHdr) (a : OpSet) (t : Tail) (s : State) : Out :=
  execMat (.qtrn h a t) (some 4) (fun c a t => c.shaped t a.s1.toNat) false (fun v _ c _ =>
    perLane (fun a t =>
      let q := a.s1.toNat
      matWrites a.d.toNat t (c.qcols t q) (c.qrows t q) (fun i j => c.Q t q (6 * j + i))) v c) noLimit s

/-- The length of the diagonal of `q`n. -/
def Course.diag (c : Course) (t n : Nat) : Nat := min (c.qrows t n) (c.qcols t n)

/-- QDIAG.get. -/
def execQdiagGet (h : CHdr) (a : OpSet) (t : Tail) (s : State) : Out :=
  execMat (.qdiagGet h a t) (some 4) (fun c a t => c.shaped t a.s1.toNat) false (fun v _ c _ =>
    perLane (fun a t =>
      let q := a.s1.toNat
      (List.range 6).map (fun i => RegWrite.v (a.d.toNat + i) t (if i < c.diag t q then c.Q t q (7 * i) else 0))) v c)
    noLimit s

/-- QDIAG.set. -/
def execQdiagSet (h : CHdr) (a : OpSet) (t : Tail) (s : State) : Out :=
  execMat (.qdiagSet h a t) (some 4) (fun c a t => c.shaped t a.d.toNat) false (fun v _ c _ =>
    perLane (fun a t =>
      let q := a.d.toNat
      (List.range (c.diag t q)).map (fun i => RegWrite.qe q t (7 * i) (c.V t (a.s1.toNat + i)))) v c) noLimit s

/-! Rounded arithmetic (R286, R290). -/

/-- An input word, flushed (R90). -/
def qin (r : Rnd) (x : Word) : XVal := (val32 x).flush r.sub
/-- A word that an instruction passes through, flushed as its inputs and results are (R90, R286). -/
def qflush (r : Rnd) (x : Word) : Word := if !r.sub && (val32 x).tiny then x &&& 0x80000000 else x
/-- `Rn` of R286. -/
def qrn (r : Rnd) (x : XVal) : XVal := val32 (round32 r x)
/-- The word of a value that FP32 holds. -/
def qout (x : XVal) : Word := round32 rne x
/-- `Rn(acc + a × b)`. -/
def qmac (r : Rnd) (acc a b : XVal) : XVal := qrn r (XVal.add r.mode acc (a.mul b))

/-- QDIAG.add. -/
def execQdiagAdd (h : CHdr) (a : OpSet) (t : Tail) (s : State) : Out :=
  execMat (.qdiagAdd h a t) (some 6) (fun c a t => c.shaped t a.s1.toNat) true (fun v r c _ =>
    perLane (fun a t =>
      let q := a.s1.toNat
      let m := r.at t
      matWrites a.d.toNat t (c.qrows t q) (c.qcols t q) (fun i j =>
        if i = j then
          qout (qrn m (XVal.add m.mode (qin m (c.Q t q (7 * i))) (qin m (c.V t (a.s2.toNat + i)))))
        else qflush m (c.Q t q (6 * i + j)))) v c) noLimit s

/-- QADD: signs from `N1` and `N2`. -/
def execQadd (h : CHdr) (a : OpSet) (t : Tail) (s : State) : Out :=
  execMat (.qadd h a t) (some 6)
    (fun c a t => c.shaped t a.s1.toNat && c.shape t a.s1.toNat == c.shape t a.s2.toNat) true (fun v r c _ =>
    perLane (fun a t =>
      let m := r.at t
      let sgn (n : BitVec 1) (x : XVal) : XVal := if n = 1 then x.negate else x
      matWrites a.d.toNat t (c.qrows t a.s1.toNat) (c.qcols t a.s1.toNat) (fun i j =>
        qout (qrn m (XVal.add m.mode (sgn a.n1 (qin m (c.Q t a.s1.toNat (6 * i + j))))
          (sgn a.n2 (qin m (c.Q t a.s2.toNat (6 * i + j)))))))) v c) noLimit s

/-- A dot product of R290 over `len` terms: from its first product, or from an accumulator given. -/
def qdot (m : Rnd) (init : Option XVal) (len : Nat) (x y : Nat → XVal) : XVal :=
  match init with
  | some acc => (List.range len).foldl (fun acc k => qmac m acc (x k) (y k)) acc
  | none => ((List.range len).drop 1).foldl (fun acc k => qmac m acc (x k) (y k)) (qrn m ((x 0).mul (y 0)))

/-- QMUL. -/
def execQmul (h : CHdr) (a : OpSet) (t : Tail) (s : State) : Out :=
  execMat (.qmul h a t) (some 24)
    (fun c a t => c.shaped t a.s1.toNat && c.shaped t a.s2.toNat && c.qcols t a.s1.toNat == c.qrows t a.s2.toNat) true
    (fun v r c _ =>
      perLane (fun a t =>
        let m := r.at t
        matWrites a.d.toNat t (c.qrows t a.s1.toNat) (c.qcols t a.s2.toNat) (fun i j =>
          qout (qdot m none (c.qcols t a.s1.toNat) (fun k => qin m (c.Q t a.s1.toNat (6 * i + k)))
            (fun k => qin m (c.Q t a.s2.toNat (6 * k + j)))))) v c) noLimit s

/-- QMAD. -/
def execQmad (h : CHdr) (a : OpSet) (t : Tail) (s : State) : Out :=
  execMat (.qmad h a t) (some 24)
    (fun c a t => c.shaped t a.s1.toNat && c.shaped t a.s2.toNat && c.qcols t a.s1.toNat == c.qrows t a.s2.toNat &&
      c.qrows t a.s3.toNat == c.qrows t a.s1.toNat && c.qcols t a.s3.toNat == c.qcols t a.s2.toNat) true
    (fun v r c _ =>
      perLane (fun a t =>
        let m := r.at t
        matWrites a.d.toNat t (c.qrows t a.s1.toNat) (c.qcols t a.s2.toNat) (fun i j =>
          qout (qdot m (some (qin m (c.Q t a.s3.toNat (6 * i + j)))) (c.qcols t a.s1.toNat)
            (fun k => qin m (c.Q t a.s1.toNat (6 * i + k))) (fun k => qin m (c.Q t a.s2.toNat (6 * k + j)))))) v c)
    noLimit s

/-- QMV: the registers past the rows are unchanged. -/
def execQmv (h : CHdr) (a : OpSet) (t : Tail) (s : State) : Out :=
  execMat (.qmv h a t) (some 12) (fun c a t => c.shaped t a.s1.toNat) true (fun v r c _ =>
    perLane (fun a t =>
      let m := r.at t
      (List.range (c.qrows t a.s1.toNat)).map (fun i =>
        RegWrite.v (a.d.toNat + i) t (qout (qdot m none (c.qcols t a.s1.toNat)
          (fun k => qin m (c.Q t a.s1.toNat (6 * i + k))) (fun k => qin m (c.V t (a.s2.toNat + k))))))) v c) noLimit s

/-! Factorisations (R291 to R294). A matrix in work is its 36 elements. -/

/-- Element (i, j). -/
def mget (w : List XVal) (i j : Nat) : XVal := w.getD (6 * i + j) .nan
/-- The matrix with element (i, j) replaced. -/
def mset (w : List XVal) (i j : Nat) (x : XVal) : List XVal := w.set (6 * i + j) x

/-- x - a × b, rounded. -/
def qsub (r : Rnd) (x a b : XVal) : XVal := qrn r (XVal.add r.mode x (a.mul b).negate)

/-- `thr` of R292. -/
def threshold (w : List XVal) (n : Nat) : XVal :=
  ((List.range n).foldl (fun m i =>
    let x := (mget w i i).abs
    if x = .nan then m else if m.lt x then x else m) (XVal.zero false)).shift (-20)

/-- Whether a value is at most the threshold, or NaN (R292). -/
def offending (x thr : XVal) : Bool := x == .nan || !thr.lt x

/-- The result of a factorisation: the matrix, the first offending pivot, the row order. -/
structure Factor where
  w    : List XVal
  stop : Option Nat
  perm : List Nat
  deriving DecidableEq, Repr

/-- The status word of R291. -/
def Factor.status (f : Factor) (lu : Bool) : Word :=
  let perm := f.perm.zipIdx.foldl (fun n e => n + e.1 * 2 ^ (14 + 3 * e.2)) 0
  BitVec.ofNat 32 (perm + f.stop.getD 0 * 16 + (if lu then 2 else 0) + (if f.stop.isSome then 1 else 0))

/-- The input of a factorisation: its elements, only the lower triangle for `QCHOL`. -/
def Course.factorIn (c : Course) (m : Rnd) (t q : Nat) (lower : Bool) : List XVal :=
  (List.range 36).map (fun e => if lower && e / 6 < e % 6 then XVal.zero false else qin m (c.Q t q e))

/-- One column of the Cholesky factorisation (R292). -/
def cholColumn (r : Rnd) (n : Nat) (thr : XVal) (f : Factor) (j : Nat) : Factor :=
  if f.stop.isSome then f
  else
    let p := (List.range j).foldl (fun s k => qsub r s (mget f.w j k) (mget f.w j k)) (mget f.w j j)
    if offending p thr then { f with stop := some j }
    else
      let w := mset f.w j j (qrn r p.sqrt)
      { f with w := ((List.range n).drop (j + 1)).foldl (fun w i =>
          let u := (List.range j).foldl (fun u k => qsub r u (mget w i k) (mget w j k)) (mget w i j)
          mset w i j (qrn r (u.div (mget w j j)))) w }

/-- The Cholesky factorisation of order n (R292). -/
def cholesky (r : Rnd) (n : Nat) (w : List XVal) : Factor :=
  (List.range n).foldl (cholColumn r n (threshold w n)) ⟨w, none, List.range 6⟩

/-- The pivot row of column j (R293): NaN counts as largest. -/
def pivotRow (w : List XVal) (n j : Nat) : Nat :=
  ((List.range n).drop (j + 1)).foldl (fun p i =>
    let x := (mget w p j).abs
    let y := (mget w i j).abs
    if x = .nan then p else if y = .nan ∨ x.lt y then i else p) j

/-- Two entries of a list exchanged. -/
def swapAt {α : Type} (d : α) (l : List α) (i j : Nat) : List α := (l.set i (l.getD j d)).set j (l.getD i d)

/-- One step of the LU factorisation (R293). -/
def luColumn (r : Rnd) (n : Nat) (thr : XVal) (f : Factor) (j : Nat) : Factor :=
  if f.stop.isSome then f
  else
    let p := pivotRow f.w n j
    let w := (List.range n).foldl (fun w k => swapAt .nan w (6 * p + k) (6 * j + k)) f.w
    let f := { f with w := w, perm := swapAt 0 f.perm p j }
    if offending (mget w j j).abs thr then { f with stop := some j }
    else
      { f with w := ((List.range n).drop (j + 1)).foldl (fun w i =>
          let l := qrn r ((mget w i j).div (mget w j j))
          ((List.range n).drop (j + 1)).foldl (fun w k => mset w i k (qsub r (mget w i k) l (mget w j k)))
            (mset w i j l)) w }

/-- The LU factorisation of order n (R293). -/
def luFactor (r : Rnd) (n : Nat) (w : List XVal) : Factor :=
  (List.range n).foldl (luColumn r n (threshold w n)) ⟨w, none, List.range 6⟩

/-- The largest of a number over the threads of a word. -/
def Course.most (c : Course) (v : CView) (f : OpSet → Nat → Nat) : Nat :=
  ((c.lanesOf v).map (fun e => f e.1 e.2)).foldl max 0

/-- `QCHOL` and `QLUP`: the factor, the status word and the predicate of each thread (R291). -/
def execFactor (i : Instr) (lu : Bool) (f : Rnd → Nat → List XVal → Factor) (s : State) : Out :=
  execMat i none
    (fun c a t => c.shaped t a.s1.toNat && c.qrows t a.s1.toNat == c.qcols t a.s1.toNat) true
    (fun v r c id =>
      let outs := (c.groups v).map (fun g => (g.1, g.2.map (fun t =>
        let n := c.qrows t g.1.s1.toNat
        (t, n, f (r.at t) n (c.factorIn (r.at t) t g.1.s1.toNat (!lu))))))
      outs.flatMap (fun o =>
        o.2.flatMap (fun e => matWrites o.1.d.toNat e.1 e.2.1 e.2.1 (fun i j => qout (mget e.2.2.w i j))) ++
        [.p o.1.s3.toNat (maskOf (o.2.map Prod.fst))
          (maskOf ((o.2.filter (fun e => e.2.2.stop.isSome)).map Prod.fst))]) ++
      vectorWrites id (outs.map (fun o => (o.1.s2.toNat, o.2.map (fun e => (e.1, e.2.2.status lu))))))
    (fun c v => some (64 + 4 * (c.most v (fun a t => c.qrows t a.s1.toNat)) ^ 3)) s

/-- QCHOL (R292). -/
def execQchol (h : CHdr) (a : OpSet) (t : Tail) (s : State) : Out := execFactor (.qchol h a t) false cholesky s
/-- QLUP (R293). -/
def execQlup (h : CHdr) (a : OpSet) (t : Tail) (s : State) : Out := execFactor (.qlup h a t) true luFactor s

/-- One right side solved (R294): F, whether it is an LU factor, and b. -/
def solveColumn (r : Rnd) (n : Nat) (lu : Bool) (F : Nat → Nat → XVal) (b : List XVal) : List XVal :=
  let at_ (l : List XVal) (k : Nat) : XVal := l.getD k .nan
  let y := (List.range n).foldl (fun y i =>
    let u := (List.range i).foldl (fun u k => qsub r u (F i k) (at_ y k)) (at_ b i)
    y ++ [if lu then u else qrn r (u.div (F i i))]) []
  (List.range n).reverse.foldl (fun x i =>
    let u := ((List.range n).drop (i + 1)).foldl (fun u k => qsub r u (if lu then F i k else F k i) (at_ x k)) (at_ y i)
    x.set i (qrn r (u.div (F i i)))) (List.replicate n .nan)

/-- QSOLV (R294): a thread whose status is `BAD` keeps its destination. -/
def execQsolv (h : CHdr) (a : OpSet) (t : Tail) (s : State) : Out :=
  execMat (.qsolv h a t) none
    (fun c a t => c.shaped t a.s1.toNat && c.qrows t a.s1.toNat == c.qcols t a.s1.toNat && c.shaped t a.s2.toNat &&
      c.qrows t a.s2.toNat == c.qrows t a.s1.toNat) true
    (fun v r c _ =>
      perLane (fun a t =>
        let m := r.at t
        let st := c.vsrc t a.s3.toNat
        let n := c.qrows t a.s1.toNat
        let cols := c.qcols t a.s2.toNat
        let lu := st.getLsbD 1
        let row (i : Nat) : Nat :=
          let p := st.toNat / 2 ^ (14 + 3 * i) % 8
          if lu && p < n then p else i
        let F (i k : Nat) : XVal := qin m (c.Q t a.s1.toNat (6 * i + k))
        if st.getLsbD 0 then []
        else
          let xs := (List.range cols).map (fun j =>
            solveColumn m n lu F ((List.range n).map (fun i => qin m (c.Q t a.s2.toNat (6 * row i + j)))))
          matWrites a.d.toNat t n cols (fun i j => qout ((xs.getD j []).getD i .nan))) v c)
    (fun c v => some (64 + 4 * (c.most v (fun a t => c.qrows t a.s1.toNat)) ^ 2 *
      c.most v (fun a t => c.qcols t a.s2.toNat))) s

end Sys2Proof.Machine
end

