-- ==== Sys2Proof/Machine/Meld.lean ====
section
/-! DEFINITION. Meld and compute-control instructions (R37, R69 to R73, R250 to R253). Their writes commit at latency 2, and the
front end is busy until then (R67); the program counter moves at issue. -/

namespace Sys2Proof.Machine

/-- What a control instruction does: its writes, where the stream goes on, or the trap it raises. -/
inductive Ctrl where
  | go (writes : List RegWrite) (target : Option DWord)
  | trap (code : Code)
  deriving DecidableEq, Repr

/-- A control instruction under its face rule and its further checks (R67, R68, R78, R183). One that would go on at an address which is no
multiple of the stream's word size takes an instruction-alignment fault (R181), `MEND` as well (log entry 135, DEDUCED). -/
def execCtrl (i : Instr) (faces : Option Mask → BitVec 2 → Bool) (bad : Course → Bool) (lat : Nat)
    (body : CView → Course → Ctrl) (s : State) : Out :=
  match i.cview, i.shape with
  | some v, some sh =>
    let pre := (courseChecks faces sh v false s.cur).orElse (fun _ => firstCode [(bad s.cur, 0x64)])
    .next (s.issue false v.h.k (portUse sh v) pre (fun s =>
      match body v s.cur with
      | .go ws target =>
        if target.any (s.cur.misaligned .comp) then .trap s { code := 0x66 }
        else .done s { lat := some lat, writes := ws, target := target, beats := if lat = 2 then 1 else 0, busy := if lat = 2 then 2 else 0 }
      | .trap code => .trap s { code := code }))
  | _, _ => .next s

/-- The rule of the words that carry `FACE` 00 only (R68, R73, R78). -/
def onlyPlain (_ : Option Mask) (face : BitVec 2) : Bool := face != 0
/-- The rule of `MELD`: 00 unmelded, 01 or 10 melded (R68, R78). -/
def meldFaces (part : Option Mask) (face : BitVec 2) : Bool :=
  if part.isSome then face != 1 && face != 2 else face != 0
/-- The rule of `MLOOP`: 00 unmelded, any other melded (R68). -/
def loopFaces (part : Option Mask) (face : BitVec 2) : Bool := if part.isSome then face == 0 else face != 0
/-- The rule of `MBRK` and `CEXIT`: not 11, and 00 in an unmelded course (R68, R250). -/
def splitFaces (part : Option Mask) (face : BitVec 2) : Bool := face == 3 || faceBad part face

/-- The threads an instruction of one operand set acts on by its face (R65). -/
def Course.faceMask (c : Course) (face : BitVec 2) : Mask :=
  match partition c.meld, face.toNat with
  | some fa, 1 => c.mask &&& fa
  | some fa, 2 => c.mask &&& ~~~fa
  | _, _ => c.mask

/-- The target of a branch offset (R188): in words of the stream from the word's own address. -/
def Course.branchC (c : Course) (t : Tail) : DWord :=
  match t with
  | .off o => c.pcC + o.signExtend 64 * BitVec.ofNat 64 (c.wordBytes .comp)
  | _ => c.pcC

/-- A push onto the meld stack, its top first; a fifth entry overflows it (R63, R69). -/
def Course.pushMeld (c : Course) (e : MeldEntry) (ws : List RegWrite) (target : Option DWord) : Ctrl :=
  if 4 ≤ c.meld.length then .trap 0x69 else .go (.meld (e :: c.meld) :: ws) target

/-- A reconvergence entry pushed at the current meld depth remains (R73). -/
def Course.openBranch (c : Course) : Bool :=
  match c.recon with
  | e :: _ => e.depth == c.meld.length
  | [] => false

/-- CNOP (R253): it takes no beats. -/
def execCnop (h : CHdr) (a : OpSet) (t : Tail) (s : State) : Out :=
  execCtrl (.cnop h a t) onlyPlain (fun _ => false) 1 (fun _ _ => .go [] none) s

/-- MELD (R69, R70): the region predicate is read once, here. -/
def execMeld (h : CHdr) (a : OpSet) (t : Tail) (s : State) : Out :=
  execCtrl (.meld h a t) meldFaces (fun _ => false) 2 (fun v c =>
    let enter := c.faceMask v.h.face
    c.pushMeld (.meld c.mask (enter &&& c.P v.a.s1.toNat) v.a.s1.toNat (v.h.face == 2)) (maskWrites enter) none) s

/-- The counts of a loop's threads after one pass (R69). -/
def countDown (cnt : Sparse Word) : Sparse Word := cnt.filterMap (fun e => if e.2 ≤ 1 then none else some (e.1, e.2 - 1))

/-- MEND (R69). -/
def execMend (h : CHdr) (a : OpSet) (t : Tail) (s : State) : Out :=
  execCtrl (.mend h a t) onlyPlain
    (fun c => (match c.meld with | .meld _ _ _ _ :: _ | .loop _ _ _ _ :: _ => false | _ => true) || c.openBranch) 2
    (fun _ c =>
      match c.meld with
      | .loop saved faceA start cnt :: rest =>
        let cnt := countDown cnt
        let run := maskOf (cnt.map Prod.fst) &&& c.live
        if run != 0 then .go (.meld (.loop saved faceA start cnt :: rest) :: maskWrites run) (some start)
        else .go (.meld rest :: maskWrites (saved &&& c.live)) none
      | .meld saved _ _ _ :: rest => .go (.meld rest :: maskWrites (saved &&& c.live)) none
      | _ => .trap 0x64) s

/-- MLOOP (R69): counts by the register of each thread's face. -/
def execMloop (h : CHdr) (a : OpSet) (t : Tail) (s : State) : Out :=
  execCtrl (.mloop h a t) loopFaces (fun _ => false) 2 (fun v c =>
    let counts := (c.acted v).flatMap (fun g => (threads g.2).map (fun t => (t, c.vsrc t g.1.s1.toNat)))
    let cnt := counts.foldl (fun m e => Sparse.set m e.1 e.2 0) []
    c.pushMeld (.loop c.mask (partition c.meld) (c.nextPc .comp) cnt) (maskWrites (maskOf (cnt.map Prod.fst))) none) s

/-- MBRK (R69). -/
def execMbrk (h : CHdr) (a : OpSet) (t : Tail) (s : State) : Out :=
  execCtrl (.mbrk h a t) splitFaces (fun c => match c.meld with | .loop _ _ _ _ :: _ => false | _ => true) 2 (fun v c =>
    let gone := c.faceMask v.h.face &&& c.guard v.h
    match c.meld with
    | .loop saved faceA start cnt :: rest =>
      .go (.meld (.loop saved faceA start (cnt.filter (fun e => !gone.getLsbD e.1)) :: rest) ::
        maskWrites (c.mask &&& ~~~gone)) none
    | _ => .trap 0x64) s

/-- CBR (R37): its guard is its condition (R250). -/
def execCbr (h : CHdr) (a : OpSet) (t : Tail) (s : State) : Out :=
  execCtrl (.cbr h a t) onlyPlain (fun _ => false) 2 (fun v c =>
    let taken := c.mask &&& c.guard v.h
    let rest := c.mask &&& ~~~taken
    let target := c.branchC v.t
    if 16 ≤ c.recon.length then .trap 0x68
    else if rest = 0 then
      .go (.recon (⟨c.mask, 0, 0, c.meld.length⟩ :: c.recon) :: maskWrites taken) (some target)
    else .go (.recon (⟨c.mask, taken, target, c.meld.length⟩ :: c.recon) :: maskWrites rest) none) s

/-- CJOIN (R37, R73). -/
def execCjoin (h : CHdr) (a : OpSet) (t : Tail) (s : State) : Out :=
  execCtrl (.cjoin h a t) onlyPlain
    (fun c => match c.recon with | e :: _ => e.depth != c.meld.length | [] => true) 2 (fun v c =>
    match c.recon with
    | e :: rest =>
      if e.pending != 0 then .go (.recon ({ e with pending := 0 } :: rest) :: maskWrites (e.pending &&& c.live)) (some e.pc)
      else .go (.recon rest :: maskWrites (e.saved &&& c.live)) (some (c.branchC v.t))
    | [] => .trap 0x64) s

/-- CLOOP (R251). -/
def execCloop (h : CHdr) (a : OpSet) (t : Tail) (s : State) : Out :=
  execCtrl (.cloop h a t) onlyPlain (fun _ => false) 2 (fun v c =>
    let n := c.W v.a.s1.toNat - 1
    .go [.w v.a.s1.toNat n] (if n != 0 then some (c.branchC v.t) else none)) s

/-- CCALL with `FACE` 00 (R71, R252). -/
def execCcall (h : CHdr) (a : OpSet) (t : Tail) (s : State) : Out :=
  execCtrl (.ccall h a t) onlyPlain (fun _ => false) 2 (fun v c =>
    let ret := c.nextPc .comp
    if c.meld = [] then .go [.w 26 (lo32 ret), .w 27 (hi32 ret)] (some (c.branchC v.t))
    else c.pushMeld (.suspend ret) [] (some (c.branchC v.t))) s

/-- CCALL with two targets (R72): it is the melded form. -/
def execCcallPair (h : CHdr) (a : OpSet) (t : Tail) (s : State) : Out :=
  execCtrl (.ccallPair h a t) (fun part f => faceBad part f) (fun _ => false) 2 (fun v c =>
    let faceA := (partition c.meld).getD 0
    let b := v.t.second.getD v.a
    let ta := c.pcC + (c.usrc v.a.s1.toNat).signExtend 64
    let tb := c.pcC + (c.usrc b.s1.toNat).signExtend 64
    let fa := c.mask &&& faceA
    let fb := c.mask &&& ~~~faceA
    let ret := c.nextPc .comp
    if fa = 0 ∧ fb = 0 then .go [] none
    else if 4 ≤ c.meld.length then .trap 0x69
    else
      c.pushMeld (.pair c.mask faceA tb ret (fa == 0)) (maskWrites (if fa != 0 then fa else fb)) (some (if fa != 0 then ta else tb))) s

/-- CRET (R72, R73, R252). -/
def execCret (h : CHdr) (a : OpSet) (t : Tail) (s : State) : Out :=
  execCtrl (.cret h a t) onlyPlain
    (fun c => match c.meld with
      | [] => false
      | .meld _ _ _ _ :: _ | .loop _ _ _ _ :: _ => true
      | _ => c.openBranch) 2 (fun _ c =>
    match c.meld with
    | .suspend ret :: rest => .go [.meld rest] (some ret)
    | .pair saved faceA targetB ret runB :: rest =>
      let fb := saved &&& ~~~faceA &&& c.live
      if !runB && fb != 0 then
        .go (.meld (.pair saved faceA targetB ret true :: rest) :: maskWrites fb) (some targetB)
      else .go (.meld rest :: maskWrites (saved &&& c.live)) (some ret)
    | _ => .go [] (some (pair64 (c.W 26) (c.W 27)))) s

/-- CEXIT (R38). -/
def execCexit (h : CHdr) (a : OpSet) (t : Tail) (s : State) : Out :=
  execCtrl (.cexit h a t) splitFaces (fun _ => false) 2 (fun v c =>
    .go [.exit (c.faceMask v.h.face &&& c.guard v.h)] none) s

end Sys2Proof.Machine
end

