-- ==== Sys2Proof/Machine/Damage.lean ====
section
/-! DEFINITION. Uncorrectable errors in a course's register-file allocation or queue storage (R380): which storage an instruction reads, and
how an error comes in (log entry 107, DESIGN CHOICE). -/

namespace Sys2Proof.Machine

/-- The damaged storage that stands for register `v`n. -/
abbrev damagedV (n : Nat) : Nat := n
/-- The damaged storage that stands for register `q`n. -/
abbrev damagedQ (n : Nat) : Nat := 128 + n
/-- The damaged storage that stands for queue n. -/
abbrev damagedQueue (n : Nat) : Nat := 256 + n

/-- The registers that a source field of a class reads, as numbered storage; `n` is the length of a run. -/
def fieldReads (cl : FClass) (uni : Bool) (n v : Nat) : List Nat :=
  match cl with
  | .vecS => if uni || 120 ≤ v then [] else [damagedV v]
  | .runS => if 120 ≤ v then [] else (List.range n).map (fun i => damagedV (v + i))
  | .run6 => (List.range 6).map (fun i => damagedV (v + i))
  | .qm => [damagedQ v]
  | _ => []

/-- Whether a small-matrix instruction reads its destination. -/
def readsDest : Instr → Bool
  | .qshape _ _ _ => true
  | .qld _ _ _ => true
  | .qdiagSet _ _ _ => true
  | _ => false

/-- The `v` registers that an `EXPR` reads: those of the inputs its program names (R191, R248). -/
def ExprBody.registerReads (e : Sys2Proof.ExprBody) : List Nat :=
  ([(0, e.s1), (1, e.s2), (2, e.s3), (3, e.s4)].filter (fun x => e.prog.contains x.1)).flatMap (fun x => fieldReads .vecS false 1 x.2.toNat)

/-- The `v` and `q` registers that a compute instruction reads. -/
def Instr.registerReads (i : Instr) : List Nat :=
  match i with
  | .expr _ e => ExprBody.registerReads e
  | i =>
    match i.cview, i.shape with
    | some v, some sh =>
      let uni := v.h.uni == 1
      v.sets.flatMap (fun a =>
        let dest := if sh.d = .qm ∧ !readsDest i then [] else fieldReads sh.d uni a.s3.toNat a.d.toNat
        dest ++ ((sh.fields (v.immS2 sh) a).drop 1).flatMap (fun f => fieldReads f.1 uni a.s3.toNat f.2))
    | _, _ => []

/-- The queues of a course from which an issue has popped: the older entries stand no more. -/
def Course.poppedSince (c old : Course) : List Nat :=
  (List.range 6).filter (fun q => ((c.queue q).take (old.queue q).length).map QSlot.id != (old.queue q).map QSlot.id)

/-- Whether an issue has read damaged storage of its course: `g` is what it comes to (R380). -/
def State.readsDamaged (f g : State) (i : Instr) : Bool :=
  f.cur.damaged != [] &&
  (Instr.registerReads i ++ (g.cur.poppedSince f.cur).map damagedQueue).any (fun d => f.cur.damaged.contains d)

/-- An uncorrectable error strikes storage of some course: of which, and where, is open. -/
def execStorageError (s : State) : Out :=
  .next (
    let cs := s.agents.filter (fun c => c.sys.isNone && c.resident && !c.retired)
    match cs[Config.freeNat s.free % cs.length]? with
    | none => s
    | some c =>
      let places := (List.range c.vcnt).map damagedV ++ (List.range c.qcnt).map damagedQ ++ (List.range 6).map damagedQueue
      let d := places.getD (Config.freeNat (s.free + 1) % places.length) 0
      { s with free := s.free + 2 }.modWhere (fun o => o.ident == c.ident) (fun o => { o with damaged := d :: o.damaged }))

end Sys2Proof.Machine
end

