-- ==== Sys2Proof/Machine/Pairs.lean ====
section
/-! DEFINITION. Redundant pairs (R386, R387): which instructions both members must issue, what each issue shows of itself, how the device
compares the two, and the pair's traps. -/

namespace Sys2Proof.Machine

/-- Whether an instruction has an effect beyond a member's own registers and queues (R387). -/
def external : Instr → Bool
  | .stu _ _ _ _ _ _ => true
  | .vst _ _ _ _ _ _ _ _ => true
  | .vstx _ _ _ _ _ _ _ _ => true
  | .amo _ _ _ _ _ _ _ => true
  | .cas _ _ _ _ _ _ _ => true
  | .vamo _ _ _ _ _ _ _ _ => true
  | .vcas _ _ _ _ _ _ _ _ => true
  | .stpi _ _ _ => true
  | .bar _ _ _ _ _ => true
  | .sev _ => true
  | .swr _ _ _ => true
  | .cpy _ _ _ => true
  | .cpyr _ _ _ => true
  | .cpyg _ _ _ => true
  | .cpyp _ _ _ => true
  | .shadow _ _ _ _ _ _ => true
  | .shadowDismiss _ _ => true
  | .publish _ _ _ => true
  | .chdef _ _ _ => true
  | .chput _ _ _ _ => true
  | .chget _ _ _ _ => true
  | .gang _ _ => true
  | .mma _ _ _ _ _ _ _ _ => true
  | .mmag _ _ _ _ _ _ _ _ => true
  | .wbld _ _ _ _ _ _ _ => true
  | .ralloc _ _ _ _ => true
  | .remit _ _ _ _ => true
  | .rdone _ _ => true
  | .snap _ => true
  | .snapc _ _ _ => true
  | .rtake _ _ _ _ => true
  | .tagset _ _ _ => true
  | .taginv _ _ => true
  | .pgreq _ _ _ => true
  | .trap _ _ => true
  | .svc _ _ => true
  | .bkpt _ _ => true
  | .fencei _ => true
  | _ => false

/-- The scalar registers and the translation register that an instruction reads. -/
structure Reads where
  scalars : List Nat := []
  breg    : Option Nat := none
  deriving DecidableEq, Repr

/-- A scalar operand of `wide` or one word. -/
def scalarRun (wide : Bool) (n : Nat) : List Nat := if wide then [n, n + 1] else [n]

/-- The addresses and operands that an instruction which both members must issue takes from its course (R387). -/
def Instr.externalReads : Instr → Reads
  | .stu _ sz rd bp _ _ => { scalars := scalarRun true (2 * bp.toNat) ++ scalarRun (sz == 3) rd.toNat }
  | .vst _ _ _ bt rs _ _ _ => { scalars := [rs.toNat], breg := some bt.toNat }
  | .vstx _ _ _ bt _ _ _ _ => { breg := some bt.toNat }
  | .amo _ _ bp _ _ op rb => { scalars := scalarRun true (2 * bp.toNat) ++ scalarRun (atomicBytes op == 8) rb.toNat }
  | .cas _ rd bp _ _ op rb =>
    { scalars := scalarRun true (2 * bp.toNat) ++ scalarRun (atomicBytes op == 8) rd.toNat ++ scalarRun (atomicBytes op == 8) rb.toNat }
  | .vamo _ _ _ _ _ _ bt _ => { breg := some bt.toNat }
  | .vcas _ _ _ _ _ _ bt _ => { breg := some bt.toNat }
  | .stpi _ a _ => { scalars := scalarRun true a.s1.toNat ++ scalarRun true a.s2.toNat }
  | .bar _ _ ra _ _ => { scalars := [ra.toNat] }
  | .swr _ ra _ => { scalars := [ra.toNat] }
  | .cpy _ _ ra => { scalars := [ra.toNat] }
  | .cpyr _ _ ra => { scalars := [ra.toNat] }
  | .cpyg _ _ ra => { scalars := [ra.toNat] }
  | .cpyp _ _ ra => { scalars := [ra.toNat] }
  | .shadow _ _ bp rb ra sp =>
    { scalars := scalarRun (sp == 0) (2 * bp.toNat) ++ scalarRun (sp == 0) rb.toNat ++ [ra.toNat] }
  | .shadowDismiss _ ra => { scalars := [ra.toNat] }
  | .publish _ ra _ => { scalars := [ra.toNat] }
  | .chdef _ _ ra => { scalars := [ra.toNat] }
  | .chput _ _ _ rs => { scalars := [rs.toNat] }
  | .chget _ _ _ rs => { scalars := [rs.toNat] }
  | .gang _ ra => { scalars := [ra.toNat] }
  | .mmag _ _ _ ra _ _ _ _ => { scalars := [ra.toNat] }
  | .wbld _ _ _ ra bp rb _ => { scalars := [ra.toNat, rb.toNat] ++ scalarRun true (2 * bp.toNat) }
  | .ralloc _ _ ra rb => { scalars := [ra.toNat, rb.toNat] }
  | .remit _ ra _ _ => { scalars := [ra.toNat] }
  | .tagset _ ra rb => { scalars := scalarRun true ra.toNat ++ [rb.toNat] }
  | .taginv _ ra => { scalars := scalarRun true ra.toNat }
  | .pgreq _ ra rb => { scalars := [ra.toNat, rb.toNat] }
  | _ => {}

/-- One issue of an instruction by a member of the focused pair: its word, and its addresses, operands and valid masks as they stand now
(R387). -/
def State.issueOf (s : State) (i : Instr) : PairIssue :=
  let c := s.cur
  let r := Instr.externalReads i
  let pops := (Instr.queueUse i).pops
  { word := s.word, scalars := r.scalars.map c.S, breg := r.breg.map c.B, live := c.live,
    entries := (pops.map Prod.fst).dedup.flatMap (fun q =>
      ((c.queue q).take ((pops.filter (fun e => e.1 == q)).map Prod.snd).sum).map QSlot.data),
    masks := match i.cview with | some v => (c.groups v).flatMap (fun g => g.2) | none => [],
    vectors := (Instr.registerReads i).flatMap (fun n => (threads c.live).map (fun t => c.V t n)) }

/-- The comparison of one stream of a course begins anew. -/
def Course.unpaired (c : Course) (st : Stream) : Course := c.setPair st Pair.none

/-- The focused pair traps at the next word of a stream: one record (R387), counted in the life counters (R392). -/
def State.pairTraps (s : State) (st : Stream) (code : Code) : State :=
  (((s.modC (fun c => c.unpaired st)).lifeAdd 0x31 1).nextWord st).2.trapAt st { code := code }

/-- A redundant pair that has not trapped is acted on. -/
def State.onPair (s : State) (who : DWord) (f : State → State) : State :=
  match s.focus who with
  | some x => if x.cur.twin.isSome && x.cur.trap.isNone then f x else s
  | none => s

/-- Whether the second member of the focused pair may issue: its wall is in service and its plane Active (R17, R33). -/
def State.twinRuns (s : State) : Bool :=
  match s.cur.twin with
  | some (w, p) => !s.cur.twinOut && (s.wall w).service == .inService && (s.plane w p).st == .active
  | none => false

/-- The streams of the focused pair whose first member has issued and awaits the other's issue. -/
def State.pairWaiting (s : State) : List Stream := [s.cur.streamOf true, .comp].dedup.filter s.cur.pairHeld

/-- What the second member's issue of a stream's next word comes to. It reads its own operands: the issues match when the device finds word,
addresses, operands and valid masks equal, unless an error of one member parts them (`match_` is false; log entry 20, DESIGN CHOICE). Then the
instruction may act; else both members re-issue it, and after three failed re-issues the pair traps with 0x83 (R387). -/
def State.compared (s : State) (st : Stream) (match_ : Bool) : State :=
  let p := s.cur.pair st
  let second := match s.nextWord st with | (.instr i, f) => some (f.issueOf i) | _ => none
  if match_ && second.isSome && second == p.issue then s.modC (fun c => c.setPair st { p with matched := true })
  else if 3 ≤ p.fails then s.pairTraps st 0x83
  else s.modC (fun c => c.setPair st { Pair.none with fails := p.fails + 1 })

/-- PAIR_COMPARE (R387): the second member issues too. Where each stream has an issue of the first member to meet, which of them it meets is
open. -/
def execPairCompare (who : DWord) (match_ : Bool) (s : State) : Out :=
  .next (s.onPair who (fun f =>
    if !f.twinRuns then s
    else match f.pairWaiting with
      | [] => s
      | [st] => f.compared st match_
      | st :: o :: _ => { f with free := f.free + 1 }.compared (if (Config.freeNat f.free) % 2 = 0 then st else o) match_))

/-- The two members of the focused pair have trapped with different codes or at different program counters, or only one of them has (R362,
R387): the pair's one trap, whose record is not written yet, is 0x82. -/
def State.trapsDiffer (s : State) (t : TrapInfo) : State :=
  if t.slot.isSome || t.code == 0x82 || t.code == 0x83 then s
  else (s.modC (fun c => { c with trap := some { t with code := 0x82, detail := 0, fmask := 0, faces := 0 } })).lifeAdd 0x31 1

/-- PAIR_PARTNER_TIMEOUT (R362, R387): one member has not issued within 2^24 ticks of the other, or the members' traps differ. -/
def execPairPartnerTimeout (who : DWord) (s : State) : Out :=
  .next (match s.focus who with
    | none => s
    | some f =>
      match f.cur.twin, f.cur.trap with
      | none, _ => s
      | some _, some t => f.trapsDiffer t
      | some _, none =>
        match f.pairWaiting.find? (fun st => (f.cur.pair st).since.any (fun t => decide (2 ^ 24 ≤ (f.now - t).toNat))) with
        | some st => f.pairTraps st 0x82
        | none => s)

end Sys2Proof.Machine
end

