-- ==== Sys2Proof/Machine/Ring.lean ====
section
/-! DEFINITION. Ring accesses of unified mode (R197), and the words that are no instruction (R192). -/

namespace Sys2Proof.Machine

/-- Bytes of a ring element (R197). -/
def ringWidth (typ : Nat) : Nat := match typ with | 9 => 2 | 10 => 1 | 13 => 1 | _ => 4

/-- A ring element as a register word: sign-extended for I16 and I8 (R197). -/
def ringWord (typ x : Nat) : Word :=
  match typ with
  | 9 => (BitVec.ofNat 16 x).signExtend 32
  | 10 => (BitVec.ofNat 8 x).signExtend 32
  | _ => BitVec.ofNat 32 x

/-- A ring access (R197): its operand check, its lanes, and the offset register's new value. -/
def State.ring (s0 : State) (v : CView) (h : How)
    (act : State → List Place → Nat → List RegWrite × State × Act) : Res :=
  let c := s0.cur
  let w := ringWidth v.h.typ.toNat
  let j := v.a.s2.toNat
  let off := (c.S j).toNat
  let len := (c.S (j + 1)).toNat
  if len = 0 ∨ len % w ≠ 0 ∨ len ≤ off then .trap s0 { code := 0x65 }
  else
    let ls := ((c.groups v).flatMap (fun g => g.2)).map (fun t => Lane.mk t (addr (c.S64 v.a.s1.toNat) ((off + t * w) % len)) w)
    let stride : Int := (v.t.immed.getD 0).toInt
    (s0.reach c.ctx none h ls).res s0 (fun s ps _ =>
      let (ws, s, a) := act s ps w
      .done s { lat := none, writes := ws, act := a, beats := (c.beats v).length, skipped := c.skipped v,
                side := [.s j (BitVec.ofInt 32 ((off + stride) % len))] })

/-- A ring instruction: it exists in unified mode only (R192). -/
def execRing (i : Instr) (body : CView → State → Res) (s : State) : Out :=
  match i.cview, i.shape with
  | some v, some sh =>
    .next (s.issue false v.h.k (portUse sh v)
      (if s.cur.unified then courseChecks faceBad sh v false s.cur else some 0x60) (body v))
  | _, _ => .next s

/-- LDPI (R197). -/
def execLdpi (h : CHdr) (a : OpSet) (t : Tail) (s : State) : Out :=
  execRing (.ldpi h a t) (fun v s0 =>
    s0.ring v { acc := { rd := true } } (fun s ps _ =>
      (vectorWrites s.nextId [(v.a.d.toNat, ps.map (fun p => (p.t, ringWord v.h.typ.toNat (s.valueAt p))))], s,
        s.memAct ps false (sigFlag v.h.k)))) s

/-- STPI (R197). -/
def execStpi (h : CHdr) (a : OpSet) (t : Tail) (s : State) : Out :=
  execRing (.stpi h a t) (fun v s0 =>
    s0.ring v { acc := { wr := true } } (fun s ps w =>
      let act := s.memAct ps true (sigFlag v.h.k)
      let data := ps.map (fun p => (p, (s0.cur.vsrc p.t v.a.d.toNat).toNat % 2 ^ (8 * w)))
      ([], (s.storeAll { acc := { wr := true } } data).countOut act, act))) s

/-- UDF (R192): permanently undefined. -/
def execUdf (_w : BitVec 36) (k : Ctl) (s : State) : Out :=
  .next (s.issue true k {} (some 0x60) (fun s => .wait s))

/-- The permanently undefined C word, and every W6 word the translator refuses (R192, R200). -/
def execUndefinedCWord (k : Ctl) (_w : BitVec 98) (s : State) : Out :=
  .next (s.issue false k {} (some 0x60) (fun s => .wait s))

end Sys2Proof.Machine
end

