-- ==== Sys2Proof/Machine/Dispatch.lean ====
section
/-! DEFINITION. The meaning of every constructor of `Instr`: one direct call each. -/

namespace Sys2Proof.Machine

def exec (i : Instr) (s : State) : Host.Outcome State Fault Refusal :=
  match i with
  | .nop k => Sys2Proof.Machine.execNop k s
  | .add k rd ra rb => Sys2Proof.Machine.execAdd k rd ra rb s
  | .sub k rd ra rb => Sys2Proof.Machine.execSub k rd ra rb s
  | .and k rd ra rb => Sys2Proof.Machine.execAnd k rd ra rb s
  | .or k rd ra rb => Sys2Proof.Machine.execOr k rd ra rb s
  | .xor k rd ra rb => Sys2Proof.Machine.execXor k rd ra rb s
  | .shl k rd ra rb => Sys2Proof.Machine.execShl k rd ra rb s
  | .shr k rd ra rb => Sys2Proof.Machine.execShr k rd ra rb s
  | .sar k rd ra rb => Sys2Proof.Machine.execSar k rd ra rb s
  | .mul k rd ra rb => Sys2Proof.Machine.execMul k rd ra rb s
  | .mulh k rd ra rb => Sys2Proof.Machine.execMulh k rd ra rb s
  | .mulhn k rd ra rb => Sys2Proof.Machine.execMulhn k rd ra rb s
  | .div k rd ra rb => Sys2Proof.Machine.execDiv k rd ra rb s
  | .divn k rd ra rb => Sys2Proof.Machine.execDivn k rd ra rb s
  | .rem k rd ra rb => Sys2Proof.Machine.execRem k rd ra rb s
  | .remn k rd ra rb => Sys2Proof.Machine.execRemn k rd ra rb s
  | .min k rd ra rb => Sys2Proof.Machine.execMin k rd ra rb s
  | .max k rd ra rb => Sys2Proof.Machine.execMax k rd ra rb s
  | .minn k rd ra rb => Sys2Proof.Machine.execMinn k rd ra rb s
  | .maxn k rd ra rb => Sys2Proof.Machine.execMaxn k rd ra rb s
  | .set k rd ra rb cond => Sys2Proof.Machine.execSet k rd ra rb cond s
  | .sel k rd ra rb cond => Sys2Proof.Machine.execSel k rd ra rb cond s
  | .clz k rd ra => Sys2Proof.Machine.execClz k rd ra s
  | .popc k rd ra => Sys2Proof.Machine.execPopc k rd ra s
  | .brev k rd ra => Sys2Proof.Machine.execBrev k rd ra s
  | .addp k rd ra rb => Sys2Proof.Machine.execAddp k rd ra rb s
  | .subp k rd ra rb => Sys2Proof.Machine.execSubp k rd ra rb s
  | .shlp k rd ra rb => Sys2Proof.Machine.execShlp k rd ra rb s
  | .shrp k rd ra rb => Sys2Proof.Machine.execShrp k rd ra rb s
  | .mov k rd ra => Sys2Proof.Machine.execMov k rd ra s
  | .addi k rd ra imm => Sys2Proof.Machine.execAddi k rd ra imm s
  | .andi k rd ra imm => Sys2Proof.Machine.execAndi k rd ra imm s
  | .ori k rd ra imm => Sys2Proof.Machine.execOri k rd ra imm s
  | .xori k rd ra imm => Sys2Proof.Machine.execXori k rd ra imm s
  | .shli k rd ra imm => Sys2Proof.Machine.execShli k rd ra imm s
  | .shri k rd ra imm => Sys2Proof.Machine.execShri k rd ra imm s
  | .sari k rd ra imm => Sys2Proof.Machine.execSari k rd ra imm s
  | .muli k rd ra imm => Sys2Proof.Machine.execMuli k rd ra imm s
  | .seti k rd ra imm => Sys2Proof.Machine.execSeti k rd ra imm s
  | .movhi k rd ra imm => Sys2Proof.Machine.execMovhi k rd ra imm s
  | .addpi k rd ra imm => Sys2Proof.Machine.execAddpi k rd ra imm s
  | .bind k rd bp sp bt off => Sys2Proof.Machine.execBind k rd bp sp bt off s
  | .lea k rd bt sel imm => Sys2Proof.Machine.execLea k rd bt sel imm s
  | .unbind k bt => Sys2Proof.Machine.execUnbind k bt s
  | .ldu k sz rd bp ord imm => Sys2Proof.Machine.execLdu k sz rd bp ord imm s
  | .stu k sz rd bp ord imm => Sys2Proof.Machine.execStu k sz rd bp ord imm s
  | .vld k sz q bt rs nr hint imm => Sys2Proof.Machine.execVld k sz q bt rs nr hint imm s
  | .vst k sz q bt rs nr hint imm => Sys2Proof.Machine.execVst k sz q bt rs nr hint imm s
  | .vldx k sz q bt rs nr hint imm => Sys2Proof.Machine.execVldx k sz q bt rs nr hint imm s
  | .vstx k sz q bt rs nr hint imm => Sys2Proof.Machine.execVstx k sz q bt rs nr hint imm s
  | .amo k rd bp kind scope op rb => Sys2Proof.Machine.execAmo k rd bp kind scope op rb s
  | .cas k rd bp kind scope op rb => Sys2Proof.Machine.execCas k rd bp kind scope op rb s
  | .vamo k rd kind scope op rb bt q => Sys2Proof.Machine.execVamo k rd kind scope op rb bt q s
  | .vcas k rd kind scope op rb bt q => Sys2Proof.Machine.execVcas k rd kind scope op rb bt q s
  | .fence k kind scope => Sys2Proof.Machine.execFence k kind scope s
  | .qpush k q ra => Sys2Proof.Machine.execQpush k q ra s
  | .qpop k rd q => Sys2Proof.Machine.execQpop k rd q s
  | .taglk k rd ra => Sys2Proof.Machine.execTaglk k rd ra s
  | .tagset k ra rb => Sys2Proof.Machine.execTagset k ra rb s
  | .taginv k ra => Sys2Proof.Machine.execTaginv k ra s
  | .tagrd k rd ra => Sys2Proof.Machine.execTagrd k rd ra s
  | .br k off => Sys2Proof.Machine.execBr k off s
  | .bcnd k cond ra off => Sys2Proof.Machine.execBcnd k cond ra off s
  | .call k off => Sys2Proof.Machine.execCall k off s
  | .ret k => Sys2Proof.Machine.execRet k s
  | .jmpr k rd ra => Sys2Proof.Machine.execJmpr k rd ra s
  | .loop k cond ra off => Sys2Proof.Machine.execLoop k cond ra off s
  | .bar k rd ra id scope => Sys2Proof.Machine.execBar k rd ra id scope s
  | .sleept k rd => Sys2Proof.Machine.execSleept k rd s
  | .wfe k => Sys2Proof.Machine.execWfe k s
  | .sev k => Sys2Proof.Machine.execSev k s
  | .exit k => Sys2Proof.Machine.execExit k s
  | .srd k rd idx => Sys2Proof.Machine.execSrd k rd idx s
  | .swr k ra idx => Sys2Proof.Machine.execSwr k ra idx s
  | .cpy k rd ra => Sys2Proof.Machine.execCpy k rd ra s
  | .cpyr k rd ra => Sys2Proof.Machine.execCpyr k rd ra s
  | .cpyg k rd ra => Sys2Proof.Machine.execCpyg k rd ra s
  | .cpyp k rd ra => Sys2Proof.Machine.execCpyp k rd ra s
  | .shadow k rd bp rb ra sp => Sys2Proof.Machine.execShadow k rd bp rb ra sp s
  | .shadowDismiss k ra => Sys2Proof.Machine.execShadowDismiss k ra s
  | .publish k ra scope => Sys2Proof.Machine.execPublish k ra scope s
  | .chdef k ch ra => Sys2Proof.Machine.execChdef k ch ra s
  | .chput k ch rd rs => Sys2Proof.Machine.execChput k ch rd rs s
  | .chget k ch rd rs => Sys2Proof.Machine.execChget k ch rd rs s
  | .chwaitGet k ch rd rs => Sys2Proof.Machine.execChwaitGet k ch rd rs s
  | .chwaitPut k ch rd rs => Sys2Proof.Machine.execChwaitPut k ch rd rs s
  | .gang k ra => Sys2Proof.Machine.execGang k ra s
  | .mma k a c wb kt fa fb g => Sys2Proof.Machine.execMma k a c wb kt fa fb g s
  | .mmag k a c ra kt fa fb g => Sys2Proof.Machine.execMmag k a c ra kt fa fb g s
  | .wbld k sl fs ra bp rb sp => Sys2Proof.Machine.execWbld k sl fs ra bp rb sp s
  | .ralloc k rd ra rb => Sys2Proof.Machine.execRalloc k rd ra rb s
  | .remit k ra q res => Sys2Proof.Machine.execRemit k ra q res s
  | .rtake k q wi n => Sys2Proof.Machine.execRtake k q wi n s
  | .rdone k q => Sys2Proof.Machine.execRdone k q s
  | .snap k => Sys2Proof.Machine.execSnap k s
  | .snapc k rd cl => Sys2Proof.Machine.execSnapc k rd cl s
  | .pgreq k ra rb => Sys2Proof.Machine.execPgreq k ra rb s
  | .trap k imm => Sys2Proof.Machine.execTrap k imm s
  | .svc k imm => Sys2Proof.Machine.execSvc k imm s
  | .hvc k imm => Sys2Proof.Machine.execHvc k imm s
  | .moncVerifyImage k => Sys2Proof.Machine.execMoncVerifyImage k s
  | .moncExtendMeasurement k => Sys2Proof.Machine.execMoncExtendMeasurement k s
  | .moncAttestationReport k => Sys2Proof.Machine.execMoncAttestationReport k s
  | .moncConfirmSlot k => Sys2Proof.Machine.execMoncConfirmSlot k s
  | .moncCommitSvn k => Sys2Proof.Machine.execMoncCommitSvn k s
  | .moncUnknownService k imm => Sys2Proof.Machine.execMoncUnknownService k imm s
  | .eret k => Sys2Proof.Machine.execEret k s
  | .bkpt k imm => Sys2Proof.Machine.execBkpt k imm s
  | .tlbinvRange k ra bp rb => Sys2Proof.Machine.execTlbinvRange k ra bp rb s
  | .tlbinvAsid k ra => Sys2Proof.Machine.execTlbinvAsid k ra s
  | .tlbinvAll k => Sys2Proof.Machine.execTlbinvAll k s
  | .cinv k bp rb => Sys2Proof.Machine.execCinv k bp rb s
  | .cwb k bp rb => Sys2Proof.Machine.execCwb k bp rb s
  | .waygtWays k ra rb => Sys2Proof.Machine.execWaygtWays k ra rb s
  | .waygtBanks k ra rb pl => Sys2Proof.Machine.execWaygtBanks k ra rb pl s
  | .halt k => Sys2Proof.Machine.execHalt k s
  | .ctxreqBind k bp => Sys2Proof.Machine.execCtxreqBind k bp s
  | .ctxreqUnbind k bp => Sys2Proof.Machine.execCtxreqUnbind k bp s
  | .ctxreqSwitch k bp => Sys2Proof.Machine.execCtxreqSwitch k bp s
  | .ctxreqStreamOut k bp => Sys2Proof.Machine.execCtxreqStreamOut k bp s
  | .ctxreqStreamIn k bp => Sys2Proof.Machine.execCtxreqStreamIn k bp s
  | .ctxreqReservedOp k bp => Sys2Proof.Machine.execCtxreqReservedOp k bp s
  | .fencei k => Sys2Proof.Machine.execFencei k s
  | .granset k bp rb gr => Sys2Proof.Machine.execGranset k bp rb gr s
  | .udf w k => Sys2Proof.Machine.execUdf w k s
  | .cnop h a t => Sys2Proof.Machine.execCnop h a t s
  | .vadd h a t => Sys2Proof.Machine.execVadd h a t s
  | .vsub h a t => Sys2Proof.Machine.execVsub h a t s
  | .vmul h a t => Sys2Proof.Machine.execVmul h a t s
  | .vmulh h a t => Sys2Proof.Machine.execVmulh h a t s
  | .vmad h a t => Sys2Proof.Machine.execVmad h a t s
  | .vand h a t => Sys2Proof.Machine.execVand h a t s
  | .vor h a t => Sys2Proof.Machine.execVor h a t s
  | .vxor h a t => Sys2Proof.Machine.execVxor h a t s
  | .vshl h a t => Sys2Proof.Machine.execVshl h a t s
  | .vshr h a t => Sys2Proof.Machine.execVshr h a t s
  | .vsar h a t => Sys2Proof.Machine.execVsar h a t s
  | .vmin h a t => Sys2Proof.Machine.execVmin h a t s
  | .vmax h a t => Sys2Proof.Machine.execVmax h a t s
  | .vabs h a t => Sys2Proof.Machine.execVabs h a t s
  | .vcmp h a t => Sys2Proof.Machine.execVcmp h a t s
  | .vsel h a t => Sys2Proof.Machine.execVsel h a t s
  | .vclz h a t => Sys2Proof.Machine.execVclz h a t s
  | .vpopc h a t => Sys2Proof.Machine.execVpopc h a t s
  | .fadd h a t => Sys2Proof.Machine.execFadd h a t s
  | .fsub h a t => Sys2Proof.Machine.execFsub h a t s
  | .fmul h a t => Sys2Proof.Machine.execFmul h a t s
  | .ffma h a t => Sys2Proof.Machine.execFfma h a t s
  | .fmin h a t => Sys2Proof.Machine.execFmin h a t s
  | .fmax h a t => Sys2Proof.Machine.execFmax h a t s
  | .frcp h a t => Sys2Proof.Machine.execFrcp h a t s
  | .frsq h a t => Sys2Proof.Machine.execFrsq h a t s
  | .fsqrt h a t => Sys2Proof.Machine.execFsqrt h a t s
  | .fexp2 h a t => Sys2Proof.Machine.execFexp2 h a t s
  | .flog2 h a t => Sys2Proof.Machine.execFlog2 h a t s
  | .fcmp h a t => Sys2Proof.Machine.execFcmp h a t s
  | .fclass h a t => Sys2Proof.Machine.execFclass h a t s
  | .plop h a t => Sys2Proof.Machine.execPlop h a t s
  | .pfrom h a t => Sys2Proof.Machine.execPfrom h a t s
  | .pto h a t => Sys2Proof.Machine.execPto h a t s
  | .shfl h a t => Sys2Proof.Machine.execShfl h a t s
  | .vote h a t => Sys2Proof.Machine.execVote h a t s
  | .ballot h a t => Sys2Proof.Machine.execBallot h a t s
  | .scan h a t => Sys2Proof.Machine.execScan h a t s
  | .redux h a t => Sys2Proof.Machine.execRedux h a t s
  | .cvt h a t => Sys2Proof.Machine.execCvt h a t s
  | .cvti h a t => Sys2Proof.Machine.execCvti h a t s
  | .pack h a t => Sys2Proof.Machine.execPack h a t s
  | .unpk h a t => Sys2Proof.Machine.execUnpk h a t s
  | .vmov h a t => Sys2Proof.Machine.execVmov h a t s
  | .vmovi h a t => Sys2Proof.Machine.execVmovi h a t s
  | .vbcast h a t => Sys2Proof.Machine.execVbcast h a t s
  | .expr h e => Sys2Proof.Machine.execExpr h e s
  | .meld h a t => Sys2Proof.Machine.execMeld h a t s
  | .mend h a t => Sys2Proof.Machine.execMend h a t s
  | .mloop h a t => Sys2Proof.Machine.execMloop h a t s
  | .mbrk h a t => Sys2Proof.Machine.execMbrk h a t s
  | .cbr h a t => Sys2Proof.Machine.execCbr h a t s
  | .cjoin h a t => Sys2Proof.Machine.execCjoin h a t s
  | .cloop h a t => Sys2Proof.Machine.execCloop h a t s
  | .ccall h a t => Sys2Proof.Machine.execCcall h a t s
  | .ccallPair h a t => Sys2Proof.Machine.execCcallPair h a t s
  | .cret h a t => Sys2Proof.Machine.execCret h a t s
  | .cexit h a t => Sys2Proof.Machine.execCexit h a t s
  | .qzero h a t => Sys2Proof.Machine.execQzero h a t s
  | .qld h a t => Sys2Proof.Machine.execQld h a t s
  | .qst h a t => Sys2Proof.Machine.execQst h a t s
  | .qshape h a t => Sys2Proof.Machine.execQshape h a t s
  | .qmul h a t => Sys2Proof.Machine.execQmul h a t s
  | .qmad h a t => Sys2Proof.Machine.execQmad h a t s
  | .qadd h a t => Sys2Proof.Machine.execQadd h a t s
  | .qtrn h a t => Sys2Proof.Machine.execQtrn h a t s
  | .qchol h a t => Sys2Proof.Machine.execQchol h a t s
  | .qlup h a t => Sys2Proof.Machine.execQlup h a t s
  | .qsolv h a t => Sys2Proof.Machine.execQsolv h a t s
  | .qmv h a t => Sys2Proof.Machine.execQmv h a t s
  | .qdiagGet h a t => Sys2Proof.Machine.execQdiagGet h a t s
  | .qdiagSet h a t => Sys2Proof.Machine.execQdiagSet h a t s
  | .qdiagAdd h a t => Sys2Proof.Machine.execQdiagAdd h a t s
  | .ldpi h a t => Sys2Proof.Machine.execLdpi h a t s
  | .stpi h a t => Sys2Proof.Machine.execStpi h a t s
  | .undefinedCWord k w => Sys2Proof.Machine.execUndefinedCWord k w s
  | .fixedLatencyCommit who id => Sys2Proof.Machine.execFixedLatencyCommit who id s
  | .flagWorkComplete who id => Sys2Proof.Machine.execFlagWorkComplete who id s
  | .promiseWrite who id => Sys2Proof.Machine.execPromiseWrite who id s
  | .copyStart wall ch => Sys2Proof.Machine.execCopyStart wall ch s
  | .copyEntryConsumed wall ch => Sys2Proof.Machine.execCopyEntryConsumed wall ch s
  | .copyComplete wall ch => Sys2Proof.Machine.execCopyComplete wall ch s
  | .remoteSignal wall ch => Sys2Proof.Machine.execRemoteSignal wall ch s
  | .gangIssue wall plane lid gid => Sys2Proof.Machine.execGangIssue wall plane lid gid s
  | .engineFire wall => Sys2Proof.Machine.execEngineFire wall s
  | .engineEntryConsumed wall member => Sys2Proof.Machine.execEngineEntryConsumed wall member s
  | .engineOperationComplete wall => Sys2Proof.Machine.execEngineOperationComplete wall s
  | .wbldComplete who id => Sys2Proof.Machine.execWbldComplete who id s
  | .chdefReplace who id => Sys2Proof.Machine.execChdefReplace who id s
  | .snapcCommit who id => Sys2Proof.Machine.execSnapcCommit who id s
  | .tlbinvComplete who id => Sys2Proof.Machine.execTlbinvComplete who id s
  | .sleeptWake who => Sys2Proof.Machine.execSleeptWake who s
  | .trapRecordWrite who => Sys2Proof.Machine.execTrapRecordWrite who s
  | .eventEntry core => Sys2Proof.Machine.execEventEntry core s
  | .courseRetire who => Sys2Proof.Machine.execCourseRetire who s
  | .placementPass die => Sys2Proof.Machine.execPlacementPass die s
  | .headAgeExpire queue => Sys2Proof.Machine.execHeadAgeExpire queue s
  | .launchComplete n => Sys2Proof.Machine.execLaunchComplete n s
  | .launchCertify n => Sys2Proof.Machine.execLaunchCertify n s
  | .kilnTimerExpire n node => Sys2Proof.Machine.execKilnTimerExpire n node s
  | .kilnLaunch n node => Sys2Proof.Machine.execKilnLaunch n node s
  | .graphExhausted n => Sys2Proof.Machine.execGraphExhausted n s
  | .planeSwitchComplete wall => Sys2Proof.Machine.execPlaneSwitchComplete wall s
  | .streamOutBegin wall plane => Sys2Proof.Machine.execStreamOutBegin wall plane s
  | .streamOutComplete wall plane => Sys2Proof.Machine.execStreamOutComplete wall plane s
  | .streamInComplete wall plane => Sys2Proof.Machine.execStreamInComplete wall plane s
  | .storageWakeComplete bank unit idx => Sys2Proof.Machine.execStorageWakeComplete bank unit idx s
  | .promiseMature die => Sys2Proof.Machine.execPromiseMature die s
  | .lqbellWrite q => Sys2Proof.Machine.execLqbellWrite q s
  | .pgansWrite v => Sys2Proof.Machine.execPgansWrite v s
  | .trackRetry desc idx => Sys2Proof.Machine.execTrackRetry desc idx s
  | .trackSkip desc idx => Sys2Proof.Machine.execTrackSkip desc idx s
  | .trackTerminate desc idx => Sys2Proof.Machine.execTrackTerminate desc idx s
  | .lqrstWrite q => Sys2Proof.Machine.execLqrstWrite q s
  | .lifeselWrite v => Sys2Proof.Machine.execLifeselWrite v s
  | .swpbaseWrite hi v => Sys2Proof.Machine.execSwpbaseWrite hi v s
  | .sweep die => Sys2Proof.Machine.execSweep die s
  | .stallSample wall lset => Sys2Proof.Machine.execStallSample wall lset s
  | .w6FillTranslate who addr => Sys2Proof.Machine.execW6FillTranslate who addr s
  | .copyFailure wall ch code written => Sys2Proof.Machine.execCopyFailure wall ch code written s
  | .engineOperationCancel wall => Sys2Proof.Machine.execEngineOperationCancel wall s
  | .pageWalk who va => Sys2Proof.Machine.execPageWalk who va s
  | .plumbDrain bay => Sys2Proof.Machine.execPlumbDrain bay s
  | .plumbScanPass wall => Sys2Proof.Machine.execPlumbScanPass wall s
  | .plumbScanFail wall pattern => Sys2Proof.Machine.execPlumbScanFail wall pattern s
  | .wallRetire wall => Sys2Proof.Machine.execWallRetire wall s
  | .bayCacheWriteback bay sector => Sys2Proof.Machine.execBayCacheWriteback bay sector s
  | .bayCacheFill bay sector ecc => Sys2Proof.Machine.execBayCacheFill bay sector ecc s
  | .clockChange die mhz => Sys2Proof.Machine.execClockChange die mhz s
  | .peerTimeout who id => Sys2Proof.Machine.execPeerTimeout who id s
  | .atomicRequest who n => Sys2Proof.Machine.execAtomicRequest who n s
  | .pairCompare who match_ => Sys2Proof.Machine.execPairCompare who match_ s
  | .pairPartnerTimeout who => Sys2Proof.Machine.execPairPartnerTimeout who s
  | .clientAccess vf va rq => Sys2Proof.Machine.execClientAccess vf va rq s
  | .fgoWrite vf v => Sys2Proof.Machine.execFgoWrite vf v s
  | .facceptWrite vf word v => Sys2Proof.Machine.execFacceptWrite vf word v s
  | .windowRegisterWrite link r v => Sys2Proof.Machine.execWindowRegisterWrite link r v s
  | .qbellWrite vf q => Sys2Proof.Machine.execQbellWrite vf q s
  | .boot fabric dev => Sys2Proof.Machine.execBoot fabric dev s
  | .slotUpdate imgs => Sys2Proof.Machine.execSlotUpdate imgs s
  | .lifeCounterUpdate => Sys2Proof.Machine.execLifeCounterUpdate s
  | .openMsg conn seq asid => Sys2Proof.Machine.execOpenMsg conn seq asid s
  | .proveMsg conn seq key sig => Sys2Proof.Machine.execProveMsg conn seq key sig s
  | .closeMsg conn seq => Sys2Proof.Machine.execCloseMsg conn seq s
  | .pingMsg conn seq => Sys2Proof.Machine.execPingMsg conn seq s
  | .debugHalt conn seq name => Sys2Proof.Machine.execDebugHalt conn seq name s
  | .resumeMsg conn seq name => Sys2Proof.Machine.execResumeMsg conn seq name s
  | .stepMsg conn seq name stream => Sys2Proof.Machine.execStepMsg conn seq name stream s
  | .stepBlocked => Sys2Proof.Machine.execStepBlocked s
  | .setbp conn seq name stream cmp pc => Sys2Proof.Machine.execSetbp conn seq name stream cmp pc s
  | .clrbp conn seq name stream cmp => Sys2Proof.Machine.execClrbp conn seq name stream cmp s
  | .readMsg conn seq name area off len => Sys2Proof.Machine.execReadMsg conn seq name area off len s
  | .writeMsg conn seq name area off bytes => Sys2Proof.Machine.execWriteMsg conn seq name area off bytes s
  | .tstart conn seq name base pages => Sys2Proof.Machine.execTstart conn seq name base pages s
  | .tstop conn seq name => Sys2Proof.Machine.execTstop conn seq name s
  | .tack conn seq name n => Sys2Proof.Machine.execTack conn seq name n s
  | .reservedDebugMessage conn seq opcode => Sys2Proof.Machine.execReservedDebugMessage conn seq opcode s
  | .breakpointMatch who compute => Sys2Proof.Machine.execBreakpointMatch who compute s
  | .debugSessionTimeout asid => Sys2Proof.Machine.execDebugSessionTimeout asid s
  | .managementLinkDrop => Sys2Proof.Machine.execManagementLinkDrop s
  | .powerLoss cut => Sys2Proof.Machine.execPowerLoss cut s
  | .peerRequestArrival dev pa rq => Sys2Proof.Machine.execPeerRequestArrival dev pa rq s
  | .managementPortImage img => Sys2Proof.Machine.execManagementPortImage img s

end Sys2Proof.Machine
end

