-- ==== Sys2Proof/Machine/Select.lean ====
section
/-! DEFINITION. What the device does next: which stream issues (R33, R41, R343, R344), what falls due in a cycle (R35, R113, R349,
R351), what the units may do by themselves, and how a cycle passes (R4, R350). `run` is the meaning of an instruction. -/

namespace Sys2Proof.Machine

/-! One stream. -/

/-- The row of a `CTXREQ` word: the operation byte of its request block decides (R311). -/
def State.resolve (s : State) (i : Instr) : Instr :=
  match i with
  | .ctxreqReservedOp k bp =>
    (match s.loadNat (s.cur.S64 (2 * bp.toNat)).toNat 1 with
     | 1 => .ctxreqBind k bp
     | 2 => .ctxreqUnbind k bp
     | 3 => .ctxreqSwitch k bp
     | 4 => .ctxreqStreamOut k bp
     | 5 => .ctxreqStreamIn k bp
     | _ => i)
  | _ => i

/-- Whether the focused agent's next word has issued, trapped, halted its agent or taken its hold. -/
def acted (a b : State) : Bool :=
  b.nextId != a.nextId || b.cur.trap != a.cur.trap || b.cur.halted != a.cur.halted || b.cur.hold != a.cur.hold ||
  b.cur.pcA != a.cur.pcA || b.cur.sys != a.cur.sys

/-- What follows an attempt to issue: the trace packets of an issue (R345), and the end of a step under way once its stream has issued; a
stream that trapped, halted or took its hold without issuing is halted again, and its step goes on (R344; log entry 106, DEDUCED). -/
def State.after (s old : State) (st : Stream) (i : Instr) (stepped : Bool) : State :=
  let s := s.tracePackets old.cur st i
  if !stepped then s
  else if s.cur.lastIssue st != old.cur.lastIssue st then s.stepped st
  else s.modC (fun c => { c with halted := true })

/-- Whether a word that would issue awaits the second member of its redundant pair: both must issue an instruction with an effect beyond
their own registers and queues, and the two issues be compared, before it acts (R387); one that traps takes its trap in both alike. -/
def State.awaitsPair (s g : State) (st : Stream) (i : Instr) : Bool :=
  s.cur.twin.isSome && external i && g.cur.trap == s.cur.trap && !(s.cur.pair st).matched

/-- The first member of the focused pair has issued: from then on it awaits the other (R387). -/
def State.pairIssue (s : State) (st : Stream) (i : Instr) : State :=
  s.modC (fun c => c.setPair st { c.pair st with since := some s.now, issue := some (s.issueOf i) })

/-- What a word comes to in a pair: its first member's issue, or, once the issues have matched, the issue itself, which leaves the
comparison of the next one to begin anew. -/
def State.pairOrIssue (s g : State) (st : Stream) (i : Instr) : State :=
  if s.awaitsPair g st i then s.pairIssue st i else if s.cur.twin.isSome then g.modC (fun c => c.unpaired st) else g

/-- The next word of a stream of the focused agent issues, or traps, or halts its agent before it: what it comes to; none while it may
not issue. A stream that a debug step names may issue though its agent is halted (R344); a word that would read storage of its course with an
uncorrectable error traps (R380). -/
def State.attempt (run : Instr → State → Out) (s : State) (st : Stream) : Option Out :=
  let stepped := s.cur.halted && s.isStepped s.cur.ident st
  let s := if stepped then s.modC (fun c => { c with halted := false }) else s
  if !s.frontReady st 0 || s.fetchStalls st then none
  else match s.nextWord st with
    | (.bad k t, f) =>
      if f.frontReady st k.dist.toNat then some (.next ((f.trapAt st t).after f st (.exit ⟨0, 0, 0⟩) stepped)) else none
    | (.lost, f) => some (.next ((f.unheard (f.cur.pc st).toNat 0 none st).after f st (.exit ⟨0, 0, 0⟩) stepped))
    | (.instr i, f) =>
      let i := f.resolve i
      match run i f with
      | .next g =>
        if !acted f g || (f.cur.pairHeld st && f.awaitsPair g st i) then none
        else if !stepped && f.bpHit st then some (.next (f.haltHere st))
        else if g.cur.trap == f.cur.trap && f.readsDamaged g i then some (.next ((f.trapAt st { code := 0x0C }).after f st i stepped))
        else some (.next ((f.pairOrIssue g st i).after f st i stepped))
      | o => some o

/-- The focused system core enters an enabled pending event (R302). -/
def Course.entersEvent (c : Course) : Bool :=
  match c.sys with
  | some y => y.ie && y.lvl.toNat ≤ 1 && y.evpend &&& y.even != 0 && c.awake && !c.halted
  | none => false

/-! Selection (R41). -/

/-- A stream that may issue: its front end, its agent, and what it comes to. -/
structure Ready where
  front : Nat
  who   : DWord
  st    : Stream
  slot  : Nat
  age   : Nat
  /-- its word fails a check of R183, or its stream can never be ready (R40): its trap awaits no selector -/
  illegal : Bool
  out   : Out

/-- Whether an attempt has ended in a trap that awaits no selector: that of an illegal word (R183, R352), or of one whose queue can never
serve it, which no stream that is ready meets (R33, R40, R41, R196). -/
def illegalWord (before : Option TrapInfo) (o : Out) : Bool :=
  match o with
  | .next t => (match t.cur.trap with
    | some x => t.cur.trap != before && ((0x60 ≤ x.code.toNat && x.code.toNat ≤ 0x64) || x.code == 0x67)
    | none => false)
  | _ => false

/-- The front end of a stream of an agent: of its wall, or of its core (R15). -/
def Course.frontKey (c : Course) (st : Stream) : Nat :=
  match c.sys with
  | some y => 2048 + y.core
  | none => 8 * c.wall + c.front st

/-- The cycles for which a stream has been ready without issuing (R41). -/
def Course.age (c : Course) : Stream → Nat
  | .addr => c.ageA
  | .comp => c.ageC

/-- The streams of an agent that may have a next word: a unified course has one stream (R196). -/
def Course.streams (c : Course) : List Stream :=
  if c.retired then [] else if c.unified then [.comp] else [.addr, .comp]

/-- Whether a stream has missed its turn in this cycle: of two issues in one cycle that of the address stream comes first (R345). -/
def State.tooLate (s : State) (st : Stream) : Bool :=
  st == .addr && !s.cur.unified && s.cur.lastC == some s.cycle

/-- The streams of one agent that may issue now. -/
def State.readyOf (run : Instr → State → Out) (s : State) (c : Course) : List Ready :=
  match s.focus c.ident with
  | none => []
  | some f => c.streams.filterMap (fun st => if f.tooLate st then none else
      (f.attempt run st).map (fun o => ⟨c.frontKey st, c.ident, st, c.slot, c.age st, illegalWord f.cur.trap o, o⟩))

/-- All streams that may issue now. -/
def State.ready (run : Instr → State → Out) (s : State) : List Ready := s.agents.flatMap (s.readyOf run)

/-- The choice of one front end among its ready courses (R41); `last` is the slot after the one it chose last. -/
def choose (last : Nat) (rs : List Ready) : Option Ready :=
  let old := rs.foldl (fun m r => max m r.age) 0
  let least (rs : List Ready) : Option Ready :=
    rs.foldl (fun o r => match o with | none => some r | some b => if r.slot < b.slot then some r else o) none
  if 64 ≤ old then least (rs.filter (fun r => r.age == old))
  else match least (rs.filter (fun r => decide (last ≤ r.slot))) with
    | some r => some r
    | none => least rs

/-- The slot after the one that a front end chose last. -/
def State.lastChoice (s : State) (front : Nat) : Nat :=
  if 2048 ≤ front then 0 else (Sparse.get (s.wall (front / 8)).fronts (front % 8) (0, 0)).2

/-- The front ends with a ready stream that may choose now: the address front end of a lane set goes before its compute front end
(R345). -/
def openFronts (rs : List Ready) : List Nat :=
  let fs := (rs.map (fun r => r.front)).dedup
  fs.filter (fun f => decide (2048 ≤ f) || f % 8 < 4 || !fs.contains (f - 4))

/-- The courses that one front end passed over have been ready for one cycle more (R41). -/
def State.passedOver (s : State) (rs : List Ready) (r : Ready) : State :=
  s.modAll (fun c =>
    if c.ident != r.who && rs.any (fun o => o.front == r.front && o.who == c.ident) then
      (match r.st with | .addr => { c with ageA := c.ageA + 1 } | .comp => { c with ageC := c.ageC + 1 })
    else c)

/-- A front end of a wall has made its choice in this cycle, whatever came of it: the course issued, trapped, halted or took its hold
(R41). -/
def State.chose (s : State) (r : Ready) : State :=
  if 2048 ≤ r.front then s
  else
    let n := r.front / 8
    let w := s.wall n
    let now := s.cycleOf (dieOf n)
    let fronts := Sparse.set w.fronts (r.front % 8) (now + 1, r.slot + 1) (0, 0)
    let lanes := if r.front % 8 < 4 then w.lanes else Sparse.set w.lanes (r.front % 4) (max (now + 1) (Sparse.get w.lanes (r.front % 4) 0)) 0
    s.setWall n { w with fronts := fronts, lanes := lanes }

/-- The choice of a front end among streams that are ready. -/
def State.frontChoice (s : State) (rs : List Ready) (f : Nat) : Option Ready :=
  choose (s.lastChoice f) (rs.filter (fun r => r.front == f && !r.illegal))

/-- The address stream of an agent whose compute word raises a trap that awaits no selector, if that stream would trap in the same cycle:
its trap is the one raised then (R353). -/
def State.trapsFirst (s : State) (rs : List Ready) (r : Ready) : Option Ready :=
  match rs.find? (fun o => o.st == .addr && r.st == .comp && o.who == r.who) with
  | none => none
  | some o =>
    let traps := match o.out with | .next t => t.cur.trap.isSome | _ => false
    if traps && ((s.frontChoice rs o.front).any (fun x => x.who == o.who)) then some o else none

/-- One stream issues, if one may: of several front ends a free choice decides which goes first (log entry 29, DESIGN CHOICE). The trap of an
illegal word waits for no selector and takes no turn of it (R183). -/
def State.issueNext (run : Instr → State → Out) (s : State) : Option Out :=
  let rs := s.ready run
  let take (n : Nat) (r : Ready) : Out := match r.out with
    | .next t => .next { (t.chose r).passedOver rs r with free := t.free + n }
    | o => o
  let go (n : Nat) (f : Nat) : Option Out := (s.frontChoice rs f).map (take n)
  match rs.find? (fun r => r.illegal) with
  | some r => some (match s.trapsFirst rs r with | some o => take 0 o | none => r.out)
  | none =>
    match openFronts rs with
    | [] => none
    | [f] => go 0 f
    | f :: fs => go 1 ((f :: fs).getD (Config.freeNat s.free % (fs.length + 1)) f)

/-! What a cycle brings. -/

/-- The agents that run on a die's clock (R4). -/
def State.agentsOn (s : State) (die : Nat) : List Course := s.agents.filter (fun c => c.die == die)

/-- Register results and promises that are due on a die, in order of issue (R35, R111, R249). -/
def State.dueWork (s : State) (die : Nat) : List Instr :=
  let now := s.cycleOf die
  (s.agentsOn die).flatMap (fun c => c.work.filterMap (fun k =>
    match k.due, k.late with
    | some d, _ => if d ≤ now then some (if k.act = .promise then .promiseWrite c.ident k.id else .fixedLatencyCommit c.ident k.id) else none
    | none, some l => if l ≤ now then some (.flagWorkComplete c.ident k.id) else none
    | none, none => none))

/-- The agents of a die whose sleep is over (R226). -/
def State.dueWakes (s : State) (die : Nat) : List Instr :=
  (s.agentsOn die).filterMap (fun c => if s.sleepOver c then some (.sleeptWake c.ident) else none)

/-- Whether a count passed a multiple of a period between two values. -/
def passedMultiple (period a b : Nat) : Bool := period != 0 && a / period != b / period

/-- The sweeps and samples that a cycle of a die brings: `old` is the die's count before it (R349, R351). -/
def State.dueSamples (s : State) (die old : Nat) : List Instr :=
  let now := (s.count die).toNat
  let sweeps := if passedMultiple (s.dreg 0x874).toNat old now then [Instr.sweep die] else []
  let walls := if !passedMultiple (s.dreg 0x87B).toNat old now then [] else
    (List.range Config.walls).filter (fun w => dieOf w == die && s.planesIn w .active != [])
  sweeps ++ walls.flatMap (fun w => (List.range 4).map (Instr.stallSample w))

/-- Blocked heads and node timers that come of age (R172, R177). -/
def State.dueAges (s : State) : List Instr :=
  s.queues.filterMap (fun e => if s.shut e.1 e.2 then some (.headAgeExpire e.1) else none) ++
  s.launches.zipIdx.flatMap (fun l => l.1.nodes.filterMap (fun e =>
    if s.timedOut e.2 ∧ !e.2.expired then some (.kilnTimerExpire l.2 e.1) else none))

/-- A cycle of a die ends: its counter, which counts 2,400 ticks in a microsecond, advances by the ticks of one of `mhz` cycles in a
microsecond (R4). -/
def Die.ticked (d : Die) : Die :=
  let acc := d.acc + 2400
  if d.mhz = 0 then d
  else { d with cycle := d.cycle + 1, cnt := d.cnt + BitVec.ofNat 64 (acc / d.mhz), acc := acc % d.mhz }

/-- A course's cycle in its launch's accounts (R350). -/
def Launch.cycled (l : Launch) (c : Course) (active : Bool) : Launch :=
  { l with cycActive := satAdd l.cycActive (if active then 1 else 0),
           cycHeld := satAdd l.cycHeld (match c.hold with | .latch _ => 1 | .bar _ _ _ _ _ _ => 1 | _ => 0),
           cycHalt := satAdd l.cycHalt (if c.halted then 1 else 0) }

/-- The accounts and counters of the cycle of a die that ends (R348, R350). -/
def State.accounts (s : State) (die : Nat) : State :=
  let s := (s.agentsOn die).foldl (fun (s : State) (c : Course) =>
    if c.sys.isNone && !c.retired then s.modLaunch c.launch (fun l => l.cycled c (s.active c)) else s) s
  if s.ctrCodes = [] then s
  else
    let s := s.planes.foldl (fun (s : State) (e : Nat × Plane) =>
      if dieOf (e.1 / 3) == die && e.2.engine.any (fun o => o.fired) then s.countEvent (e.1 / 3) 11 1 else s) s
    s.walls.foldl (fun (s : State) (e : Nat × Wall) =>
      if dieOf e.1 == die && (e.2.service == .drained || e.2.service == .retest) then s.countEvent e.1 15 1 else s) s

/-- Sessions whose step is blocked or whose time is over (R338, R344). -/
def State.sessionsDue (s : State) : State :=
  let s := match execStepBlocked s with | .next t => t | _ => s
  (s.sessions.filter (fun x => decide (sessionTicks ≤ (s.count 0 - x.lastMsg).toNat))).foldl State.endSession s

/-- When the cycle of a die ends, in units of one `mhz`-th of a tick: the die's own count, as it stands to that of die 0, and 2,400 more. -/
def State.cycleEnd (s : State) (die : Nat) : Nat :=
  let d := s.die die
  (d.cnt - s.count 0 + 2 ^ 63).toNat * d.mhz + d.acc + 2400

/-- Whether the cycle of one die ends before that of another: their counters count at one rate, each die's cycles at its own (R4). -/
def State.endsBefore (s : State) (a b : Nat) : Bool :=
  decide (s.cycleEnd a * (s.die b).mhz < s.cycleEnd b * (s.die a).mhz)

/-- The die whose cycle ends next: of several at once, that of the lowest number. -/
def State.nextDie (s : State) : Nat := [1, 2, 3].foldl (fun a d => if s.endsBefore d a then d else a) 0

/-- A cycle of one die passes: its counter advances, the cycle's accounts are made, and what falls due in the new cycle is put on the
agenda, register results first (R4, R35). Log entry 44, DESIGN CHOICE. -/
def State.tick (s : State) : State :=
  let die := s.nextDie
  let s := s.accounts die
  let old := (s.count die).toNat
  let s := (s.setDie die (s.die die).ticked).sessionsDue
  let s := if die == 0 && passedMultiple (2 ^ 32) old (s.count 0).toNat then s.lifeSave else s
  s.later (s.dueSamples die old ++ s.dueWork die ++ s.dueWakes die ++ s.dueAges)

/-! What the units may do by themselves: each event has its own conditions, and changes nothing where they do not hold. -/

/-- Events of an agent's work in flight, and its own. -/
def Course.mayDo (c : Course) : List (State → Out) :=
  [execTrapRecordWrite c.ident, execCourseRetire c.ident] ++
  (if (c.pairHeld .addr || c.pairHeld .comp) && c.trap.isNone then [execPairCompare c.ident true, execPairCompare c.ident false, execPairPartnerTimeout c.ident] else []) ++
  (c.work.filter (fun k => k.due.isNone)).flatMap (fun k =>
    [execFlagWorkComplete c.ident k.id, execWbldComplete c.ident k.id, execChdefReplace c.ident k.id,
     execSnapcCommit c.ident k.id, execTlbinvComplete c.ident k.id, execPeerTimeout c.ident k.id])

/-- Events of a Hod channel. -/
def State.chanMay (s : State) (w ch : Nat) : List (State → Out) :=
  [execCopyStart w ch, execCopyEntryConsumed w ch, execCopyComplete w ch, execRemoteSignal w ch] ++
  (match ((s.chan w ch).job.map (fun j => s.copyFault w ch j)).getD none with
   | some f => [execCopyFailure w ch f.code (Config.freeNat s.free)]
   | none => []) ++
  (match (s.chan w ch).job with
   | some j => if s.copyTimedOut w ch j then [execCopyFailure w ch 0x10 (Config.freeNat s.free)] else []
   | none => [])

/-- Events of a wall and its planes. -/
def State.wallMay (s : State) (w : Nat) : List (State → Out) :=
  (s.wall w).chans.flatMap (fun e => s.chanMay w e.1) ++
  [execEngineFire w, execEngineOperationComplete w, execEngineOperationCancel w, execPlaneSwitchComplete w, execPlumbScanPass w] ++
  (List.range 32).map (execEngineEntryConsumed w) ++
  [0, 1, 2].flatMap (fun p =>
    [execStreamOutBegin w p, execStreamOutComplete w p, execStreamInComplete w p] ++
    (s.plane w p).gangs.map (fun g => execGangIssue w p g.lid g.gid) ++
    ((List.range 64).filter (fun b => (s.plane w p).waking.getLsbD b)).map (fun b => execStorageWakeComplete true (3 * w + p) b))

/-- Events of a launch. -/
def Launch.mayDo (l : Launch) (n : Nat) : List (State → Out) :=
  [execLaunchComplete n, execLaunchCertify n, execGraphExhausted n] ++ l.nodes.map (fun e => execKilnLaunch n e.1)

/-- Everything that a unit of the device may do now by itself. -/
def State.mayDo (s : State) : List (State → Out) :=
  s.agents.flatMap Course.mayDo ++ (List.range Config.walls).flatMap s.wallMay ++
  s.launches.zipIdx.flatMap (fun e => e.1.mayDo e.2) ++
  (List.range 4).flatMap (fun d => [execPlacementPass d, execPromiseMature d, execClockChange d (Config.freeNat (s.free + 1))]) ++
  (List.range 48).flatMap (fun b => execPlumbDrain b :: (List.range 8).map (execStorageWakeComplete false b)) ++
  s.lines.flatMap (fun e => (maskSectors e.2.line e.2.dirty).map (execBayCacheWriteback (e.1 / (16 * baySets)))) ++
  [execBayCacheFill (Config.freeNat (s.free + 1) % 48) (Config.freeNat (s.free + 2)) .clean, execStorageError] ++
  s.vfs.map (fun e => negotiate e.1) ++ s.stalled.map peerProceeds ++ s.peerKeyers.map peerForgotten

/-- With no stream to issue, a unit acts by itself or the cycle ends, as a free choice decides (log entry 29, DESIGN CHOICE). Log entry 74, DESIGN CHOICE. -/
def State.idle (s : State) : Out :=
  let es := s.mayDo
  let s' := { s with free := s.free + 3 }
  match es[Config.freeNat s.free % (es.length + 1)]? with
  | some e => e s'
  | none => .next s'.tick

/-! One step. -/

/-- Whether a row is an event or input rather than an instruction. -/
def Instr.isEvent (i : Instr) : Bool := i.ctl.isNone

/-- Whether an agenda entry is the power-up. -/
def Instr.powersUp : Instr → Bool
  | .boot _ _ => true
  | _ => false

/-- The next step of the device (log entry 1, DESIGN CHOICE): the agenda first; then a core that enters an event; then a stream that issues; then
the units and the clock. Without power nothing happens but power-up. Log entry 51, DESIGN CHOICE. -/
def State.advance (run : Instr → State → Out) (s : State) : Out :=
  match s.agenda with
  | i :: rest =>
    let s' := { s with agenda := rest }
    if !s.powered && !Instr.powersUp i then .fault .powerOff
    else if Instr.isEvent i then run i s' else .next s'
  | [] =>
    if !s.powered then .fault .powerOff
    else if s.sessions.any (fun x => x.stepping.isNone && x.waiting != []) then .next s.serveWaiting
    else match s.agents.find? Course.entersEvent with
      | some c => execEventEntry ((c.sys.map (fun y => y.core)).getD 0) s
      | none =>
        match s.issueNext run with
        | some o => o
        | none => s.idle

end Sys2Proof.Machine
end

