-- ==== Sys2Proof/Machine/Step.lean ====
section
/-! DEFINITION. The step of the device, and a state whose next step runs a given word. -/

namespace Sys2Proof.Machine

/-- One step of the device: `State.advance` with the meanings of `exec`. -/
def step (s : State) : Host.Outcome State Fault Refusal := s.advance exec

/-- Where the code of `State.withFetchWord` lies, and its tables: ASID table, partition windows, page tables. -/
abbrev codeAt : Nat := 0x100000

/-- The physical bytes that `State.withFetchWord` places: an ASID table that binds ASID 0, a window of all of HBM for partition 0, a
walk of three tables to one 512 MiB leaf with every permission, and the code. -/
def fetchBytes (code : List Byte) : List (Nat × List Byte) :=
  [(0x10000, bytesLE 8 0x30001), (0x20008, bytesLE 8 (2 ^ 40)), (0x30000, bytesLE 8 0x31001), (0x31000, bytesLE 8 0x32001),
   (0x32000, bytesLE 8 0x13F), (codeAt, code)]

/-- The course of `State.withFetchWord`: one thread on wall 0, in slot 0 of its Active plane 0; the address stream has issued in this very
cycle if the word is not for it. -/
def fetchCourse (unified aWord : Bool) (cycle : Nat) : Course :=
  { Course.blank with
    ident := 1, nthr := 1, live := 1, w := [(29, 1)], resident := true, unified := unified
    pcA := BitVec.ofNat 64 codeAt, pcC := BitVec.ofNat 64 codeAt
    lastA := if aWord then none else some cycle }

/-- Wall 0 of `State.withFetchWord`: the lane set's compute front end is busy if the word is for the address stream. -/
def fetchWall (aWord : Bool) (cycle : Nat) : Wall := { Wall.zero with lanes := if aWord then [(0, cycle + 1)] else [] }

/-- The state in which a course placed on wall 0 fetches the given word next (log entry 30, DESIGN CHOICE). -/
def State.withFetchWord (s : State) (nbits w : Nat) : State :=
  let aWord := decide (nbits ≤ 64)
  let opc := bits 10 (w % 2 ^ nbits) 98
  let unified := !aWord && decide (0x200 ≤ opc ∧ opc < 0x3FF)
  let code := bytesLE (if aWord then 8 else 16) (w % 2 ^ nbits)
  let mem := (fetchBytes code).foldl (fun m e => Memory.store m e.1 e.2) s.mem
  { s with
    powered := true, agenda := [], cur := fetchCourse unified aWord (s.cycleOf 0), parked := [], mem := mem, did := 0, tlb := [], poison := []
    dregs := Sparse.set (Sparse.set (Sparse.set (Sparse.set s.dregs 0x830 0x10000 0) 0x831 0 0) 0x832 0x20000 0) 0x833 0 0
    walls := Sparse.set [] 0 (fetchWall aWord (s.cycleOf 0)) Wall.zero, granule := [], sessions := [], shadows := []
    planes := Sparse.set s.planes 0 { Plane.zero with st := .active, asid := some 0 } Plane.zero }

end Sys2Proof.Machine
end

