-- ==== Sys2Proof/Safety.lean ====
section
/-! DEFINITION. The terms in which claims speak of a run: when an instruction issues, and what every reachable state keeps. -/

namespace Sys2Proof.Machine

/-- An instruction with these control fields and queue entries is the next word of its stream and issues in this cycle: the
conditions of R33, no queue it can never use (R40), no flag overflow (R34), no cancelled operation among the flags it names (R367). -/
def State.Issues (s : State) (aFormat : Bool) (k : Ctl) (io : QueueUse) : Prop :=
  s.frontReady (s.cur.streamOf aFormat) k.dist.toNat = true ∧ s.cur.flagsClear k.wait = true ∧
  s.cur.cancelled.any (fun f => k.wait.getLsbD f) = false ∧ s.cur.starved io = none ∧ s.cur.queuesReady io = true ∧
  s.cur.flagFull (sigFlag k) = false

/-- Nothing that a copy released waits to be acquired by a flag the instruction names (R131). -/
def State.Quiet (s : State) (k : Ctl) : Prop := s.cur.copyRels.filter (fun e => k.wait.getLsbD e.1) = []

/-- An instruction may issue now, and acquires nothing by doing so. -/
def State.Ready (s : State) (aFormat : Bool) (k : Ctl) (io : QueueUse) : Prop := s.Issues aFormat k io ∧ s.Quiet k

/-- An instruction completes: its own part leaves `s'`, and it issues with this plan. -/
def Answers (i : Instr) (s : State) (aFormat : Bool) (k : Ctl) (io : QueueUse) (s' : State) (p : Plan) : Prop :=
  exec i s = .next (s'.issued (s.cur.streamOf aFormat) (sigFlag k) io p)

/-- An instruction of the A format completes by writing registers after `lat` cycles, and does nothing else. -/
def Writes (i : Instr) (s : State) (k : Ctl) (lat : Nat) (ws : List RegWrite) : Prop :=
  Answers i s true k {} s { lat := some lat, writes := ws }

/-- An instruction raises a trap at its own place, from the state `s'`. -/
def Traps (i : Instr) (s : State) (aFormat : Bool) (s' : State) (t : Trp) : Prop :=
  exec i s = .next (s'.trapAt (s.cur.streamOf aFormat) t)

/-- Where a uniform access reaches memory (R210): along route 1 through the translation registers, else through the TLBs. -/
def State.uniformAt (s : State) (route1 : Bool) (va w : Nat) (h : How) : Reach :=
  let s := if route1 then s.refreshAll else s
  s.reach { s.cur.ctx with w := w, acc := h.acc } (if route1 then s.coveredBy va w else none) h
    (uniformLanes (s.cur.sys.isSome && !h.atomic) va w)

/-- Where a uniform atomic reaches memory (R216): along route 1; `f` gives what it writes from the old value. -/
def State.atomicAt (s : State) (va w : Nat) (h : How) (f : Nat → Option Nat) : Reach :=
  let s := s.refreshAll
  s.reachW { s.cur.ctx with w := w, acc := h.acc } (s.coveredBy va w) h (uniformLanes (s.cur.sys.isSome && !h.atomic) va w)
    (fun s ps => planWrites (s.rmwPlan (fun _ => f) ps))

/-- The lanes of a vector access through the translation register it names, re-translated first if it is stale (R156, R157). -/
def State.vectorAt (s : State) (bt : BitVec 3) (w : Nat) (h : How) (lanes : BReg → List (Nat × Nat)) : Reach :=
  let s := s.refresh bt.toNat
  s.reach s.cur.ctx (some (s.cur.B bt.toNat)) h ((lanes (s.cur.B bt.toNat)).map (fun l => ⟨l.1, l.2, w⟩))

/-! Words of the C format. -/

/-- A C-format word issues now: its view, the checks that depend on the course (R183), and the conditions of issue. -/
def State.ReadyC (s : State) (faces : Option Mask → BitVec 2 → Bool) (extra : Bool) (i : Instr) (v : CView) : Prop :=
  i.cview = some v ∧ ∃ sh, i.shape = some sh ∧ courseChecks faces sh v extra s.cur = none ∧ s.Ready false v.h.k (portUse sh v)

/-- A C-format instruction completes with this plan. -/
def AnswersC (i : Instr) (s : State) (v : CView) (s' : State) (p : Plan) : Prop :=
  ∃ sh, i.shape = some sh ∧ Answers i s false v.h.k (portUse sh v) s' p

/-- The plan of a word that writes registers, for the beats it takes (R25). -/
def Course.planC (c : Course) (v : CView) (lat : Option Nat) (ws : List RegWrite) : Plan :=
  { lat := lat, writes := ws, beats := (c.beats v).length, skipped := c.skipped v }

/-- The writes of one word for each thread acted on, or for the course under `UNI` (R231, R232). -/
def State.wordWrites (s : State) (v : CView) (f : OpSet → Nat → Word) : List RegWrite :=
  if v.h.uni = 1 then uniformWrites s.nextId v.a.d.toNat (f v.a 0)
  else vectorWrites s.nextId ((s.cur.groups v).map (fun g => (g.1.d.toNat, g.2.map (fun t => (t, f g.1 t)))))

/-- The writes of one predicate for each thread acted on. -/
def State.predWrites (s : State) (v : CView) (f : OpSet → Nat → Bool) : List RegWrite :=
  (s.cur.groups v).map (fun g => .p g.1.d.toNat (maskOf g.2) (maskOf (g.2.filter (f g.1))))

/-- A C-format instruction completes, from its own part's state `s'`, by one word for each thread. -/
def GivesWords (i : Instr) (s s' : State) (v : CView) (lat : Option Nat) (f : OpSet → Nat → Word) : Prop :=
  AnswersC i s v s' (s.cur.planC v lat (s.wordWrites v f))

/-- A C-format instruction completes by one predicate for each thread. -/
def GivesPreds (i : Instr) (s : State) (v : CView) (lat : Nat) (f : OpSet → Nat → Bool) : Prop :=
  AnswersC i s v s (s.cur.planC v (some lat) (s.predWrites v f))

/-- A word raises a trap of the compute stream, from the state `s'`. -/
def TrapsC (i : Instr) (s s' : State) (t : Trp) : Prop := exec i s = .next (s'.trapAt .comp t)

/-- A control instruction completes: its writes commit 2 cycles later, its front end is busy until then, and the stream goes on at the target
or at the next word (R67); a target that is no multiple of the stream's word size traps instead, with nothing done (R181). -/
def Controls (i : Instr) (s : State) (v : CView) (ws : List RegWrite) (target : Option DWord) : Prop :=
  (target.any (s.cur.misaligned .comp) = false → AnswersC i s v s { lat := some 2, writes := ws, target := target, busy := 2 }) ∧
  (target.any (s.cur.misaligned .comp) = true → TrapsC i s s { code := 0x66 })

/-- No place of an access is a register of region 11. -/
def State.PlainPlaces (s : State) (ps : List Place) : Prop := ∀ p ∈ ps, s.regPlace p = none

/-- The focused agent belongs to no launch with an open snapshot domain, so that it stores where its places stand (R179). -/
def State.NoDomain (s : State) : Prop := ∀ l, s.launchOf = some l → l.snapOpen = false

/-- A host has written a byte of client memory without snooping, and a cache still holds it back (R307). -/
def State.HostWrote (s : State) (a : Nat) : Prop := ∃ c ∈ s.hostMem, c.1 = a

/-- A byte lies in the memory event ring (R364). -/
def State.InEventRing (s : State) (a : Nat) : Prop := s.dreg64 0x890 ≤ a ∧ a < s.dreg64 0x890 + 64 * (s.dreg 0x892).toNat

/-- A byte lies in a place. -/
def Place.Covers (p : Place) (a : Nat) : Prop := p.pa ≤ a ∧ a < p.pa + p.w

/-- Nothing but the places of its accesses decides what the focused course's accesses come to: it is no core, its launch has no open
snapshot domain (R179), no shadow buffer is declared (R138), no host has written unsnooped (R307), and no way pair of its bay wakes (R120). -/
def State.Undisturbed (s : State) : Prop :=
  s.cur.sys = none ∧ s.NoDomain ∧ s.shadows = [] ∧ (s.plane s.cur.wall s.cur.plane).shadows = [] ∧ s.hostMem = [] ∧
    s.bayWaking (bayOf s.cur.wall) = false

/-- An access of `w` bytes at a physical address meets none of the faults that its place decides (R354): it stays in one sector, its bank is on
and awake (R120, R368), its bytes are not poisoned where it reads (R366), and it does not race where it is checked (R142). -/
def State.Open (s : State) (h : How) (pa w : Nat) (chk : Bool) : Prop :=
  pa % 32 + w ≤ 32 ∧ s.gatedAt pa = false ∧ s.stalls pa = false ∧ (h.acc.rd = true → s.poisoned pa = false) ∧
    (chk = true → s.raceOn s.cur.ident s.cur.sync (pa / 32) h.acc.wr h.atomic h.scope = none)

/-- The physical address of a virtual one through a translation register that covers it (R98, R156). -/
def State.through (s : State) (r : BReg) (va : Nat) : Nat :=
  let o := r.frame.toNat + (BitVec.ofNat 64 va - r.base).toNat
  if r.mode then s.scratch s.cur.wall s.cur.plane o else o

/-- A lane reaches its place through a translation register: the register is fresh, covers the lane, permits the access, and leads to local HBM
or the plane's scratchpad (R98, R145, R156, R157). -/
def State.Reaches (s : State) (r : BReg) (h : How) (va w : Nat) : Prop :=
  va < 2 ^ 56 ∧ r.base.toNat < 2 ^ 56 ∧ r.stale = false ∧ (BitVec.ofNat 64 va - r.base).toNat + w ≤ r.lim.toNat ∧
    (h.acc.rd = true → r.rd = true) ∧ (h.acc.wr = true → r.w = true) ∧ (r.mode = false → s.isHbm (s.through r va) = true) ∧
    (r.mode = true → r.frame.toNat + (BitVec.ofNat 64 va - r.base).toNat + w ≤ 2 ^ 20) ∧
    s.Open h (s.through r va) w (r.mode || r.chk)

/-- The focused course can read `n` bytes of its plane's scratchpad at an offset (R107, R256). -/
def State.SpReads (s : State) (off n : Nat) : Prop :=
  off + n ≤ 2 ^ 20 ∧ ∀ i < n, s.Open { acc := { rd := true } } (s.scratch s.cur.wall s.cur.plane (off + i)) 1 true

/-- The completion record of slot `f` once a copy has ended with a status, from the course as it stood (R114, R373): its status, which is the
failure's code too, its channel, the bytes and the bitmap's place; a success leaves a failure standing. -/
def Course.Recorded (c d : Course) (f : Nat) (status : Code) (chan bytes bmap : Nat) : Prop :=
  let word (x : Course) (n : Nat) : Word := Sparse.get x.recs (4 * f + n) 0
  let e := c.settleRecord f
  if status = 0 ∧ (word e 0).extractLsb' 0 8 ≠ 0 then ∀ n < 4, word d n = word e n
  else
    (word d 0).extractLsb' 0 8 = status ∧ (word d 0).extractLsb' 8 8 = BitVec.ofNat 8 chan ∧ (word d 0).extractLsb' 16 8 = status ∧
    word d 1 = BitVec.ofNat 32 bytes ∧ word d 2 = BitVec.ofNat 32 bmap ∧ word d 3 = BitVec.ofNat 32 (bmap / 2 ^ 32)

/-- What every state keeps: memory stands in its canonical form (log entry 5, DEDUCED). -/
def State.Inv (s : State) : Prop := Memory.wf s.mem = true

end Sys2Proof.Machine
end

