-- ==== Sys2Proof/Certificates/Slice0/Obligations.lean ====
section
/-! DEFINITION. The statements about the C9, for the provers. Each says which rules it formalises, and where it rests on a choice of the
model it names the log entry. -/

open Sys2Proof Sys2Proof.Machine

/-! Register arithmetic of the address stream. -/

/-- R203, R204: what the three-register and unary instructions write, and when. -/
def Claims.ScalarArithmetic : Prop :=
  ∀ (s : State) (k : Ctl) (rd ra rb : BitVec 6), s.Ready true k {} →
    let x := s.cur.S ra.toNat
    let y := s.cur.S rb.toNat
    let w (v : Word) : List RegWrite := [.s rd.toNat v]
    Writes (.nop k) s k 1 [] ∧
    Writes (.add k rd ra rb) s k 1 (w (x + y)) ∧ Writes (.sub k rd ra rb) s k 1 (w (x - y)) ∧
    Writes (.and k rd ra rb) s k 1 (w (x &&& y)) ∧ Writes (.or k rd ra rb) s k 1 (w (x ||| y)) ∧
    Writes (.xor k rd ra rb) s k 1 (w (x ^^^ y)) ∧
    Writes (.mul k rd ra rb) s k 3 (w (x * y)) ∧
    Writes (.mulh k rd ra rb) s k 3 (w (BitVec.ofInt 32 (x.toInt * y.toInt / 2 ^ 32))) ∧
    Writes (.mulhn k rd ra rb) s k 3 (w (BitVec.ofNat 32 (x.toNat * y.toNat / 2 ^ 32))) ∧
    Writes (.min k rd ra rb) s k 1 (w (if x.sle y then x else y)) ∧ Writes (.max k rd ra rb) s k 1 (w (if x.sle y then y else x)) ∧
    Writes (.minn k rd ra rb) s k 1 (w (if x ≤ y then x else y)) ∧ Writes (.maxn k rd ra rb) s k 1 (w (if x ≤ y then y else x)) ∧
    (∀ c : BitVec 4, Writes (.set k rd ra rb c) s k 1 (w (if Machine.cond c.toNat x y then 1 else 0)) ∧
      Writes (.sel k rd ra rb c) s k 1 (w (if Machine.cond c.toNat x y then x else y))) ∧
    Writes (.clz k rd ra) s k 1 (w (BitVec.ofNat 32 (if x = 0 then 32 else 31 - Nat.log2 x.toNat))) ∧
    Writes (.popc k rd ra) s k 1 (w (BitVec.ofNat 32 ((List.range 32).countP (fun i => x.getLsbD i)))) ∧
    (∃ r : Word, Writes (.brev k rd ra) s k 1 (w r) ∧ ∀ i < 32, r.getLsbD i = x.getLsbD (31 - i)) ∧
    Writes (.mov k rd ra) s k 1 (w x)

/-- R187: the condition codes on two words; where each body takes x and y from; the codes 11 to 15, and a `BR` whose code is not 10 or whose
register is not `s0`, are illegal instructions. -/
def Obligations.ConditionCodes : Prop :=
  (∀ x y : Word,
    (Machine.cond 0 x y = true ↔ x = y) ∧ (Machine.cond 1 x y = true ↔ x ≠ y) ∧ (Machine.cond 2 x y = true ↔ x.toInt < y.toInt) ∧
    (Machine.cond 3 x y = true ↔ x.toInt ≥ y.toInt) ∧ (Machine.cond 4 x y = true ↔ x.toNat < y.toNat) ∧ (Machine.cond 5 x y = true ↔ x.toNat ≥ y.toNat) ∧
    (Machine.cond 6 x y = true ↔ x.toInt > y.toInt) ∧ (Machine.cond 7 x y = true ↔ x.toInt ≤ y.toInt) ∧ (Machine.cond 8 x y = true ↔ x.toNat > y.toNat) ∧
    (Machine.cond 9 x y = true ↔ x.toNat ≤ y.toNat) ∧ Machine.cond 10 x y = true) ∧
  (∀ (s : State) (k : Ctl) (rd ra rb : BitVec 6) (c : BitVec 4) (off : BitVec 26), s.Ready true k {} →
    let x := s.cur.S ra.toNat
    let y := s.cur.S rb.toNat
    let a := s.cur.pc (s.cur.streamOf true) + off.signExtend 64 * 8
    Writes (.set k rd ra rb c) s k 1 [.s rd.toNat (if Machine.cond c.toNat x y then 1 else 0)] ∧
    Writes (.sel k rd ra rb c) s k 1 [.s rd.toNat (if Machine.cond c.toNat x y then x else y)] ∧
    (a.toNat % s.cur.wordBytes (s.cur.streamOf true) = 0 → Machine.cond c.toNat x 0 = true →
      Answers (.bcnd k c ra off) s true k {} s { lat := some 1, target := some a }) ∧
    (Machine.cond c.toNat x 0 = false → Writes (.bcnd k c ra off) s k 1 [])) ∧
  (∀ (k : Ctl) (rd ra rb : BitVec 6) (c : BitVec 4) (off : BitVec 26), k.sigOk = true → 10 < c.toNat → DecErr.reserved.code = 0x63 ∧
    ∀ i ∈ [Instr.set k rd ra rb c, .sel k rd ra rb c, .bcnd k c ra off, .loop k c ra off], decodeA (encode i) = .error .reserved) ∧
  (∀ w : Nat, bits 8 w 36 = 0x70 → bits 4 w 32 ≠ 10 ∨ bits 6 w 26 ≠ 0 → ∃ e, decodeA w = .error e) ∧
  (∀ (k : Ctl) (off : BitVec 26), k.sigOk = true → bits 4 (encode (.br k off)) 32 = 10 ∧ decodeA (encode (.br k off)) = .ok (.br k off))

/-- R204: shift counts, division by zero and the one quotient that overflows; none of them traps. -/
def Obligations.ShiftAndDivisionEdges : Prop :=
  ∀ (s : State) (k : Ctl) (rd ra rb : BitVec 6), s.Ready true k {} →
    let x := s.cur.S ra.toNat
    let y := s.cur.S rb.toNat
    let n := (y.extractLsb' 0 6).toNat
    let w (v : Word) : List RegWrite := [.s rd.toNat v]
    Writes (.shl k rd ra rb) s k 1 (w (if n < 32 then x <<< n else 0)) ∧
    Writes (.shr k rd ra rb) s k 1 (w (if n < 32 then x >>> n else 0)) ∧
    Writes (.sar k rd ra rb) s k 1 (w (if n < 32 then x.sshiftRight n else if x.msb then 0xFFFFFFFF#32 else 0)) ∧
    Writes (.div k rd ra rb) s k 24 (w (if y = 0 then 0xFFFFFFFF#32 else x.sdiv y)) ∧
    Writes (.divn k rd ra rb) s k 24 (w (if y = 0 then 0xFFFFFFFF#32 else x / y)) ∧
    Writes (.rem k rd ra rb) s k 24 (w (if y = 0 then x else x.srem y)) ∧
    Writes (.remn k rd ra rb) s k 24 (w (if y = 0 then x else x % y)) ∧
    (x = 0x80000000#32 → y = 0xFFFFFFFF#32 →
      Writes (.div k rd ra rb) s k 24 (w 0x80000000#32) ∧ Writes (.rem k rd ra rb) s k 24 (w 0)) ∧
    (Writes (.sel k rd ra rb 2) s k 1 (w (if x.toInt ≤ y.toInt then x else y))) ∧ Writes (.set k rd ra rb 10) s k 1 (w 1)

/-- R205, R206: pairs and immediates. -/
def Claims.PairsAndImmediates : Prop :=
  ∀ (s : State) (k : Ctl) (rd ra rb : BitVec 6) (imm : BitVec 24), s.Ready true k {} →
    let x := s.cur.S ra.toNat
    let i : Word := imm.signExtend 32
    let w (v : Word) : List RegWrite := [.s rd.toNat v]
    let p (v : DWord) : List RegWrite := [.s rd.toNat (lo32 v), .s (rd.toNat + 1) (hi32 v)]
    let X := s.cur.S64 ra.toNat
    let n := (s.cur.S rb.toNat).toNat % 128
    Writes (.addp k rd ra rb) s k 1 (p (X + s.cur.S64 rb.toNat)) ∧ Writes (.subp k rd ra rb) s k 1 (p (X - s.cur.S64 rb.toNat)) ∧
    Writes (.shlp k rd ra rb) s k 1 (p (if n < 64 then X <<< n else 0)) ∧
    Writes (.shrp k rd ra rb) s k 1 (p (if n < 64 then X >>> n else 0)) ∧
    Writes (.addi k rd ra imm) s k 1 (w (x + i)) ∧ Writes (.andi k rd ra imm) s k 1 (w (x &&& i)) ∧
    Writes (.ori k rd ra imm) s k 1 (w (x ||| i)) ∧ Writes (.xori k rd ra imm) s k 1 (w (x ^^^ i)) ∧
    Writes (.muli k rd ra imm) s k 3 (w (x * i)) ∧
    (imm.toNat < 64 →
      Writes (.shli k rd ra imm) s k 1 (w (if imm.toNat < 32 then x <<< imm.toNat else 0)) ∧
      Writes (.shri k rd ra imm) s k 1 (w (if imm.toNat < 32 then x >>> imm.toNat else 0)) ∧
      Writes (.sari k rd ra imm) s k 1 (w (if imm.toNat < 32 then x.sshiftRight imm.toNat else if x.msb then 0xFFFFFFFF#32 else 0))) ∧
    Writes (.seti k rd ra imm) s k 1 (w (if Machine.cond (imm.extractLsb' 20 4).toNat x ((imm.extractLsb' 0 20).signExtend 32) then 1 else 0)) ∧
    Writes (.movhi k rd 0 imm) s k 1 (w ((imm.setWidth 16).setWidth 32 <<< 16)) ∧
    Writes (.addpi k rd ra imm) s k 1 (p (X + imm.signExtend 64))

/-- R202, R27: `s0` reads zero whatever is written to it; a write to pair 0 writes `s1` alone. -/
def Claims.ZeroRegister : Prop :=
  ∀ (c : Course) (x : Word) (v : DWord),
    (c.write (.s 0 x)) = c ∧ (c.write (.s 0 x)).S 0 = 0 ∧ c.S64 0 = pair64 0 (c.S 1) ∧
    ((pairWrites 0 v).foldl Course.write c).S 0 = 0 ∧ ((pairWrites 0 v).foldl Course.write c).S 1 = hi32 v ∧
    (c.write (.w 0 x)) = c ∧ c.W 0 = 0 ∧ (∀ sel val : Mask, (c.write (.p 0 sel val)) = c) ∧ c.P 0 = BitVec.allOnes 96

/-! Control flow. -/

/-- R221, R222: branches, calls, returns and loops; a target that is no word address of the stream traps at the branch (R181). The
link receives the instruction's own address plus 8, in a unified course too (R195). -/
def Claims.ControlFlow : Prop :=
  ∀ (s : State) (k : Ctl) (ra rd : BitVec 6) (off : BitVec 26) (cc : BitVec 4), s.Ready true k {} →
    let st := s.cur.streamOf true
    let here := s.cur.pc st
    let to_ := here + off.signExtend 64 * 8
    let link (n : Nat) : List RegWrite := [.s n (lo32 (here + 8)), .s (n + 1) (hi32 (here + 8))]
    let x := s.cur.S ra.toNat - 1
    let goes (i : Instr) (a : DWord) (ws : List RegWrite) : Prop :=
      if a.toNat % s.cur.wordBytes st = 0 then Answers i s true k {} s { lat := some 1, writes := ws, target := some a }
      else Traps i s true s { code := 0x66 }
    goes (.br k off) to_ [] ∧ goes (.call k off) to_ (link 56) ∧ goes (.ret k) (s.cur.S64 56) [] ∧
    goes (.jmpr k 0 ra) (s.cur.S64 ra.toNat) [] ∧ (rd ≠ 0 → goes (.jmpr k rd ra) (s.cur.S64 ra.toNat) (link rd.toNat)) ∧
    (Machine.cond cc.toNat (s.cur.S ra.toNat) 0 = true → goes (.bcnd k cc ra off) to_ []) ∧
    (Machine.cond cc.toNat (s.cur.S ra.toNat) 0 = false → Writes (.bcnd k cc ra off) s k 1 []) ∧
    (Machine.cond cc.toNat x 0 = true → goes (.loop k cc ra off) to_ [.s ra.toNat x]) ∧
    (Machine.cond cc.toNat x 0 = false → Writes (.loop k cc ra off) s k 1 [.s ra.toNat x])

/-- R223, R38: `EXIT` ends the address stream and not the compute stream; a unified course has one stream (R196). -/
def Claims.ExitEndsAddressStream : Prop :=
  ∀ (s : State) (k : Ctl), s.Ready true k {} →
    ∃ t, exec (.exit k) s = .next t ∧ t.cur.endA = true ∧ (s.cur.unified = false → t.cur.endC = s.cur.endC) ∧
      (s.cur.unified = true → t.cur.endC = true) ∧ t.cur.s = s.cur.s ∧ t.cur.live = s.cur.live ∧ t.mem = s.mem ∧
      ∀ ds k', ({ t with dies := ds } : State).frontReady (t.cur.streamOf true) k' = false

/-- R209: `UNBIND` sets every field of the register it names to its reset value, and commits at latency 1; its word names the register in bits
[29:27] and is zero elsewhere in its body; a lane through the register as it then stands translates through the TLBs. -/
def Obligations.Unbind : Prop :=
  (∀ (s : State) (k : Ctl) (bt : BitVec 3), s.Ready true k {} → Writes (.unbind k bt) s k 1 [.b bt.toNat BReg.zero]) ∧
  (∀ (c : Course) (bt : BitVec 3), (c.write (.b bt.toNat BReg.zero)).B bt.toNat = BReg.zero ∧ Course.blank.B bt.toNat = BReg.zero ∧
    ∀ n, n ≠ bt.toNat → (c.write (.b bt.toNat BReg.zero)).B n = c.B n) ∧
  (∀ (k : Ctl) (bt : BitVec 3), encode (.unbind k bt) = bt.toNat * 2 ^ 27 + 0x32 * 2 ^ 36 + k.enc 44) ∧
  (∀ (w : Nat) (i : Instr), bits 8 w 36 = 0x32 → decodeA w = .ok i → bits 36 w 0 = bits 3 w 27 * 2 ^ 27) ∧
  (∀ (s : State) (x : Ctx) (h : How) (l : Lane), 0 < l.w → s.lane x (some BReg.zero) h l = s.lane x none h l)

/-! Memory accesses of the address stream. -/

/-- R210: a uniform load or store reaches the bytes at `S64(bp)` plus its offset, along the route that `ord` selects, and a load's
result is the bytes' little-endian value, zero-extended. -/
def Claims.UniformLoadStore : Prop :=
  ∀ (s s1 : State) (k : Ctl) (sz : BitVec 2) (rd : BitVec 6) (bp : BitVec 5) (ord : BitVec 1) (imm : BitVec 24) (ps : List Place)
      (ab : List Nat),
    s.Ready true k {} → s1.PlainPlaces ps →
    let w := 2 ^ sz.toNat
    let va := (s.cur.S64 (2 * bp.toNat) + imm.signExtend 64).toNat
    let x := if w = 8 then (s.cur.S64 rd.toNat).toNat else (s.cur.S rd.toNat).toNat
    let v := ofBytesLE (s1.bytesAt ps)
    (s.uniformAt (ord == 1) va w { acc := { rd := true } } = .ok s1 ps ab →
      Answers (.ldu k sz rd bp ord imm) s true k {} s1
        { lat := none
          writes := if w = 8 then pairWrites rd.toNat (BitVec.ofNat 64 v) else [.s rd.toNat (BitVec.ofNat 32 v)]
          act := s1.memAct ps false (sigFlag k) }) ∧
    (s.uniformAt (ord == 1) va w { acc := { wr := true } } = .ok s1 ps ab →
      let act := s1.memAct ps true (sigFlag k)
      Answers (.stu k sz rd bp ord imm) s true k {} ((s1.storeAll { acc := { wr := true } } (cutValue ps x)).countOut act)
        { lat := none, act := act })

/-- R3, R210, R212: what a store leaves in memory, by an agent whose launch has no open snapshot domain (`Snapshots` says where a store
goes in one). Every byte outside the places stored to reads as before, but for bytes that a host wrote without snooping and that come into
sight as a line leaves a cache (R307); a place that no other place meets holds its value's low bytes, little-endian. -/
def Claims.StoredBytes : Prop :=
  ∀ (s : State) (h : How) (ps : List (Place × Nat)), s.NoDomain →
    (∀ a, (∀ e ∈ ps, ¬ e.1.Covers a) → ¬ s.HostWrote a → (s.storeAll h ps).byte a = s.byte a) ∧
    (ps.Pairwise (fun e f => e.1.pa + e.1.w ≤ f.1.pa ∨ f.1.pa + f.1.w ≤ e.1.pa) →
      ∀ e ∈ ps, (s.storeAll h ps).load e.1.pa e.1.w = bytesLE e.1.w e.2)

/-- R215: the operations of the atomics, on an old value and an operand of `w` bytes. -/
def Claims.AtomicOperations : Prop :=
  ∀ (w o a : Nat), (w = 4 ∨ w = 8) → o < 2 ^ (8 * w) → a < 2 ^ (8 * w) →
    let n := 8 * w
    let O : BitVec n := BitVec.ofNat n o
    let A : BitVec n := BitVec.ofNat n a
    amoNew 0 w o a = a ∧ amoNew 1 w o a = (O + A).toNat ∧ amoNew 2 w o a = (O &&& A).toNat ∧ amoNew 3 w o a = (O ||| A).toNat ∧
    amoNew 4 w o a = (O ^^^ A).toNat ∧ amoNew 5 w o a = (if O.toInt ≤ A.toInt then o else a) ∧
    amoNew 6 w o a = (if O.toInt ≤ A.toInt then a else o) ∧ amoNew 7 w o a = min o a ∧ amoNew 8 w o a = max o a ∧
    amoNew 9 w o a = (if o ≥ a then 0 else o + 1) ∧
    (w = 4 → amoNew 10 w o a = (fadd32 (BitVec.ofNat 32 o) (BitVec.ofNat 32 a)).toNat) ∧ amoNew 12 w o a = a

/-- R215, R216: `AMO` and `CAS` on a word of memory: what they return, what they write, and the bytes they leave alone, but for bytes that a
host wrote without snooping (R307). An atomic whose unit holds 4,096 keys waits (R388). -/
def Claims.UniformAtomics : Prop :=
  ∀ (s s1 : State) (k : Ctl) (rd rb : BitVec 6) (bp : BitVec 5) (kind : BitVec 3) (scope : BitVec 4) (op : BitVec 5) (p : Place),
    s.Ready true k {} → s1.PlainPlaces [p] → s1.NoDomain → p.mem = p.pa →
    let w := if op.getLsbD 4 then 8 else 4
    let o := op.toNat % 16
    let va := (s.cur.S64 (2 * bp.toNat)).toNat
    let reg (n : BitVec 6) : Nat := if w = 8 then (s.cur.S64 n.toNat).toNat else (s.cur.S n.toNat).toNat
    let old := s1.loadNat p.pa w
    let result : List RegWrite := if w = 8 then pairWrites rd.toNat (BitVec.ofNat 64 old) else [.s rd.toNat (BitVec.ofNat 32 old)]
    let acts (i : Instr) (r u ret : Bool) (f : Nat → Option Nat) : Prop :=
      s.atomicAt va w { acc := { rd := r, wr := u }, atomic := true, kind := kind.toNat, scope := scope.toNat } f = .ok s1 [p] [] →
      p.w = w →
      (s1.keysFull [p] = true → exec i s = .next s) ∧
      (s1.keysFull [p] = false → ∃ t pl, Answers i s true k {} t pl ∧ pl.lat = none ∧ pl.target = none ∧
        pl.writes = (if ret then result else []) ∧ (∀ a, ¬ p.Covers a → ¬ s1.HostWrote a → t.byte a = s1.byte a) ∧
        (∀ x, f old = some x → t.loadNat p.pa w = x % 2 ^ (8 * w)) ∧
        (f old = none → (∀ a, p.Covers a → ¬ s1.HostWrote a) → t.loadNat p.pa w = old))
    (o ≤ 10 → acts (.amo k rd bp kind scope op rb) true true true (fun v => some (amoNew o w v (reg rb)))) ∧
    (o = 11 → acts (.amo k rd bp kind scope op rb) true false true (fun _ => none)) ∧
    (o = 12 → acts (.amo k rd bp kind scope op rb) false true false (fun _ => some (reg rb))) ∧
    acts (.cas k rd bp kind scope op rb) true true true (fun v => if v = reg rd then some (reg rb) else none)

/-- R211 to R213: a vector load pushes, for the threads it acts on, their elements zero-extended; with `.nr` a non-resident thread loads
zero, and one more entry says which threads were non-resident. `VLD` acts on the live threads, `VLDX` on those of its index entry. -/
def Claims.VectorLoads : Prop :=
  ∀ (s s1 : State) (k : Ctl) (sz hint : BitVec 2) (q bt : BitVec 3) (rs : BitVec 6) (nr : BitVec 1) (imm : BitVec 21)
      (ps : List Place) (ab : List Nat),
    s.cur.sys = none →
    let w := 2 ^ sz.toNat
    let n := if sz = 3 then 2 else 1
    let iq := 4 + rs.toNat / 32
    let idx := s.cur.popped iq 0
    let h : How := { acc := { rd := true }, nr := nr == 1, hint := Hint.of hint }
    let value (t : Nat) : Nat := match ps.find? (fun p => p.t == t) with | some p => s1.valueAt p | none => 0
    let loads (i : Instr) (io : QueueUse) (ts : List Nat) (lanes : BReg → List (Nat × Nat)) : Prop :=
      s.Ready true k io → s.vectorAt bt w h lanes = .ok s1 ps ab →
      Answers i s true k io s1
        { lat := none
          writes := (List.range n).map (fun j => RegWrite.push q.toNat (pushTag s1.nextId j)
              (vecEntry (ts.map (fun t => (t, BitVec.ofNat 32 (value t / 2 ^ (32 * j))))))) ++
            (if nr = 1 then [RegWrite.push q.toNat (pushTag s1.nextId n)
              (vecEntry (ts.map (fun t => (t, if t ∈ ab then 1 else 0))))] else [])
          act := s1.memAct ps false (sigFlag k) }
    loads (.vld k sz q bt rs nr hint imm) { pushes := [(q.toNat, n + nr.toNat)] } (threads s.cur.live)
      (fun r => (threads s.cur.live).map (fun t => (t, (r.base + imm.signExtend 64 + (s.cur.S rs.toNat).setWidth 64 + BitVec.ofNat 64 (t * w)).toNat))) ∧
    loads (.vldx k sz q bt rs nr hint imm) { pops := [(iq, 1)], pushes := [(q.toNat, n + nr.toNat)] } (idx.threads s.cur.live)
      (fun r => (idx.threads s.cur.live).map (fun t => (t, (r.base + imm.signExtend 64 + BitVec.ofNat 64 ((idx.word t).toNat * 2 ^ (rs.toNat % 32))).toNat)))

/-- R211, R212: a vector store writes the low bytes of each thread's data at the thread's address, in rising thread order. -/
def Claims.VectorStores : Prop :=
  ∀ (s s1 : State) (k : Ctl) (sz hint : BitVec 2) (q bt : BitVec 3) (rs : BitVec 6) (nr : BitVec 1) (imm : BitVec 21)
      (ps : List Place) (ab : List Nat),
    s.cur.sys = none →
    let w := 2 ^ sz.toNat
    let dq := 4 + q.toNat
    let iq := 4 + rs.toNat / 32
    let n := if sz = 3 then 2 else 1
    let idx := s.cur.popped iq 0
    let data (t : Nat) : Nat := ((s.cur.popped dq 0).word t).toNat + (if sz = 3 then ((s.cur.popped dq 1).word t).toNat * 2 ^ 32 else 0)
    let stores (i : Instr) (io : QueueUse) (lanes : BReg → List (Nat × Nat)) : Prop :=
      let h : How := { acc := { wr := true }, hint := Hint.of hint }
      s.Ready true k io → s.vectorAt bt w h lanes = .ok s1 ps ab →
      let act := s1.memAct ps true (sigFlag k)
      Answers i s true k io ((s1.storeAll h (ps.map (fun p => (p, data p.t % 2 ^ (8 * w))))).countOut act)
        { lat := none, act := act }
    stores (.vst k sz q bt rs nr hint imm) { pops := [(dq, n)] }
      (fun r => ((s.cur.popped dq 0).threads s.cur.live).map (fun t => (t, (r.base + imm.signExtend 64 + (s.cur.S rs.toNat).setWidth 64 + BitVec.ofNat 64 (t * w)).toNat))) ∧
    stores (.vstx k sz q bt rs nr hint imm) { pops := [(iq, 1), (dq, n)] }
      (fun r => (idx.threads s.cur.live).map (fun t => (t, (r.base + imm.signExtend 64 + BitVec.ofNat 64 ((idx.word t).toNat * 2 ^ (rs.toNat % 32))).toNat)))

/-- R214, R354: an access of which a lane faults has no effect: memory reads as before but for the memory event ring, which poison that a
lane consumed writes to (R367), nothing is pushed, and the popped entries stay in their queues. -/
def Claims.FaultsTakeNoEffect : Prop :=
  ∀ (s s1 : State) (t : Trp) (k : Ctl) (sz hint : BitVec 2) (q bt : BitVec 3) (rs : BitVec 6) (nr : BitVec 1) (imm : BitVec 21),
    s.cur.sys = none →
    let w := 2 ^ sz.toNat
    let n := if sz = 3 then 2 else 1
    let idx := s.cur.popped (4 + rs.toNat / 32) 0
    let stops (i : Instr) (io : QueueUse) (h : How) (lanes : BReg → List (Nat × Nat)) : Prop :=
      s.Ready true k io → s.vectorAt bt w h lanes = .trap s1 t →
      exec i s = .next (s1.trapAt (s.cur.streamOf true) t) ∧ s1.cur.queues = s.cur.queues ∧ s1.cur.work = s.cur.work ∧
      s1.cur.flags = s.cur.flags ∧ s1.cur.s = s.cur.s ∧ s1.cur.v = s.cur.v ∧
      ∀ a, ¬ s.InEventRing a → s1.byte a = s.byte a ∧ (s1.trapAt (s.cur.streamOf true) t).byte a = s.byte a
    let rdH : How := { acc := { rd := true }, nr := nr == 1, hint := Hint.of hint }
    let wrH : How := { acc := { wr := true }, hint := Hint.of hint }
    stops (.vld k sz q bt rs nr hint imm) { pushes := [(q.toNat, n + nr.toNat)] } rdH
      (strideLanes s.cur rs imm w (threads s.cur.live)) ∧
    stops (.vldx k sz q bt rs nr hint imm) { pops := [(4 + rs.toNat / 32, 1)], pushes := [(q.toNat, n + nr.toNat)] }
      rdH (indexLanes imm (rs.toNat % 32) idx (idx.threads s.cur.live)) ∧
    stops (.vst k sz q bt rs nr hint imm) { pops := [(4 + q.toNat, n)] } wrH
      (strideLanes s.cur rs imm w ((s.cur.popped (4 + q.toNat) 0).threads s.cur.live)) ∧
    stops (.vstx k sz q bt rs nr hint imm) { pops := [(4 + rs.toNat / 32, 1), (4 + q.toNat, n)] } wrH
      (indexLanes imm (rs.toNat % 32) idx (idx.threads s.cur.live))

/-- R217, R216: `VAMO` and `VCAS` act on the threads of the offset entry, in rising order, each seeing what the threads before it wrote;
the old values are pushed where the instruction says so. -/
def Claims.VectorAtomics : Prop :=
  ∀ (s s1 : State) (k : Ctl) (rd rb : BitVec 6) (kind bt q : BitVec 3) (scope : BitVec 4) (op : BitVec 5) (ps : List Place) (ab : List Nat),
    s.cur.sys = none → s1.keysFull ps = false → s1.NoDomain →
    let off := s.cur.popped (4 + q.toNat) 0
    let A := s.cur.popped (4 + rb.toNat) 0
    let B := s.cur.popped (4 + rb.toNat) 1
    let r0 := s.refresh bt.toNat
    let r := r0.cur.B bt.toNat
    let ls := (off.threads s.cur.live).map (fun t => Lane.mk t (r.base + BitVec.ofNat 64 (off.word t).toNat).toNat 4)
    let hw : How := { acc := { rd := true, wr := true }, atomic := true, kind := kind.toNat, scope := scope.toNat }
    let acts (i : Instr) (n : Nat) (f : Nat → Nat → Option Nat) : Prop :=
      let io : QueueUse := { pops := [(4 + q.toNat, 1), (4 + rb.toNat, n)], pushes := if 4 ≤ rd.toNat then [(rd.toNat % 4, 1)] else [] }
      s.Ready true k io → r0.reachW r0.cur.ctx (some r) hw ls (fun s ps => planWrites (s.rmwPlan f ps)) = .ok s1 ps ab →
      let es := s1.rmwPlan f ps
      ∃ t pl, Answers i s true k io t pl ∧ pl.lat = none ∧
        pl.writes = (if 4 ≤ rd.toNat then [RegWrite.push (rd.toNat % 4) (pushTag s1.nextId 0)
          (vecEntry (es.map (fun e => (e.1.t, BitVec.ofNat 32 e.2.1))))] else []) ∧
        ∀ a, (∀ e ∈ es, e.2.2.isSome → ¬ e.1.Covers a) → ¬ s1.HostWrote a → t.byte a = s1.byte a
    acts (.vamo k rd kind scope op rb bt q) 1 (fun t o => some (amoNew op.toNat 4 o (A.word t).toNat)) ∧
    acts (.vcas k rd kind scope op rb bt q) 2 (fun t o => if o = (A.word t).toNat then some (B.word t).toNat else none)

/-! Translation registers, queues, tags. -/

/-- R155, R207 to R209: `BIND` in scratchpad mode, `UNBIND` and `LEA`; a scratchpad binding reaches no further than the plane's 1 MiB. -/
def Claims.TranslationRegisters : Prop :=
  ∀ (s : State) (k : Ctl) (rd : BitVec 6) (bp : BitVec 5) (bt : BitVec 3) (off : BitVec 20) (imm : BitVec 24), s.Ready true k {} →
    let base := s.cur.S64 (2 * bp.toNat)
    let ext := s.cur.S rd.toNat
    let r := s.cur.B bt.toNat
    let pair (v : DWord) : List RegWrite := [.s rd.toNat (lo32 v), .s (rd.toNat + 1) (hi32 v)]
    (s.cur.sys = none → base.toNat < 2 ^ 56 →
      Answers (.bind k rd bp 1 bt off) s true k {} s
        { lat := none
          writes := [.b bt.toNat ⟨base, BitVec.ofNat 52 off.toNat, 0, true, true, false, 0, false, true,
            BitVec.ofNat 32 (min ext.toNat (2 ^ 20 - off.toNat)), ext⟩] }) ∧
    (s.cur.sys = none → 2 ^ 56 ≤ base.toNat → Traps (.bind k rd bp 1 bt off) s true s { code := 0x06, detail := base }) ∧
    (∀ s1 b, s.bindGlobal s.cur.ctx r base ext = (.ok b, s1) →
      Answers (.bind k rd bp 0 bt off) s true k {} s1 { lat := none, writes := [.b bt.toNat b] }) ∧
    (∀ s1 c, s.bindGlobal s.cur.ctx r base ext = (.error (.fail c), s1) → Traps (.bind k rd bp 0 bt off) s true s1 { code := c, detail := base }) ∧
    Writes (.unbind k bt) s k 1 [.b bt.toNat BReg.zero] ∧
    Writes (.lea k rd bt 0 imm) s k 1 (pair (r.base + imm.signExtend 64)) ∧
    Writes (.lea k rd bt 1 imm) s k 1 (pair (r.lim.setWidth 64)) ∧ Writes (.lea k rd bt 2 imm) s k 1 (pair (r.ext.setWidth 64)) ∧
    Writes (.lea k rd bt 3 imm) s k 1 (pair (BitVec.ofNat 64 r.attr))

/-- R219, R31: `QPUSH` reserves an entry that its commit fills with a uniform word; `QPOP` takes the oldest entry, read as a uniform
word. -/
def Claims.QueueMoves : Prop :=
  ∀ (s : State) (k : Ctl) (q rd ra : BitVec 6), s.cur.sys = none →
    (s.Ready true k { pushes := [(q.toNat, 1)] } →
      Answers (.qpush k q ra) s true k { pushes := [(q.toNat, 1)] } s
        { lat := some 1, writes := [.push q.toNat (pushTag s.nextId 0) (.uni (s.cur.S ra.toNat))] } ∧
      (s.cur.moveQueues { pushes := [(q.toNat, 1)] } s.nextId).queue q.toNat = s.cur.queue q.toNat ++ [⟨pushTag s.nextId 0, none⟩]) ∧
    (s.Ready true k { pops := [(4 + q.toNat, 1)] } →
      Answers (.qpop k rd q) s true k { pops := [(4 + q.toNat, 1)] } s
        { lat := some 1, writes := [.s rd.toNat (s.cur.popped (4 + q.toNat) 0).uniform] } ∧
      (s.cur.moveQueues { pops := [(4 + q.toNat, 1)] } s.nextId).queue (4 + q.toNat) = (s.cur.queue (4 + q.toNat)).tail)

/-- R101, R102, R220: the tag table. A written entry is found again under its key, in the way it was written to, and an invalidated key
is not; the entry is valid, with bits [55:9] of the key as its tag. A lookup gives the lowest way that holds the key and its slot; without
one, bit 31 and the victim, which is the lowest invalid way, or else the way that the replacement pointer names. -/
def Claims.TagTable : Prop :=
  ∀ (s : State) (k : Ctl) (rd ra rb : BitVec 6), s.cur.sys = none → s.Ready true k {} →
    let key := s.cur.S64 ra.toNat
    let set := key.toNat % 512
    let way := ((s.cur.S rb.toNat).toNat / 2 ^ 16) % 4
    let slot := (s.cur.S rb.toNat).toNat % 2 ^ 16
    let plane (t : State) : Plane := t.plane s.cur.wall s.cur.plane
    let other (t : State) : Prop := t.mem = s.mem ∧ t.cur.s = s.cur.s ∧ ∀ i, i / 4 ≠ set → Sparse.get (plane t).tags i 0 = Sparse.get (plane s).tags i 0
    (∃ t, exec (.tagset k ra rb) s = .next t ∧ other t ∧
      Sparse.get (plane t).tags (4 * set + way) 0 = BitVec.ofNat 64 (2 ^ 63 + key.toNat / 2 ^ 9 % 2 ^ 47 * 2 ^ 16 + slot) ∧
      Sparse.get (plane t).rptr set 0 = (if Sparse.get (plane s).rptr set 0 = way then (way + 1) % 4 else Sparse.get (plane s).rptr set 0) ∧
      ((plane t).lookup key).getLsbD 31 = false) ∧
    (∃ t, exec (.taginv k ra) s = .next t ∧ other t ∧ ((plane t).lookup key).getLsbD 31 = true) ∧
    (∃ t pl, Answers (.taglk k rd ra) s true k {} t pl ∧ pl.writes = [.s rd.toNat ((plane s).lookup key)] ∧ t.mem = s.mem ∧ plane t = plane s) ∧
    Answers (.tagrd k rd ra) s true k {} s
      { lat := none, writes := pairWrites rd.toNat (Sparse.get (plane s).tags ((s.cur.S ra.toNat).toNat % 2048) 0) } ∧
    ∀ w < 4,
      let e (n : Nat) : DWord := Sparse.get (plane s).tags (4 * set + n) 0
      let hits (n : Nat) : Prop := (e n).getLsbD 63 = true ∧ (e n).toNat / 2 ^ 16 % 2 ^ 47 = key.toNat / 2 ^ 9 % 2 ^ 47
      (hits w → (∀ n < w, ¬ hits n) → (plane s).lookup key = BitVec.ofNat 32 (w * 2 ^ 16 + (e w).toNat % 2 ^ 16)) ∧
      ((∀ n < 4, ¬ hits n) → (e w).getLsbD 63 = false → (∀ n < w, (e n).getLsbD 63 = true) →
        (plane s).lookup key = BitVec.ofNat 32 (2 ^ 31 + w * 2 ^ 16)) ∧
      ((∀ n < 4, ¬ hits n) → (∀ n < 4, (e n).getLsbD 63 = true) → Sparse.get (plane s).rptr set 0 = w →
        (plane s).lookup key = BitVec.ofNat 32 (2 ^ 31 + w * 2 ^ 16))

/-- R133, R218: a fence issues at once, writes no register and no memory, and its release part is in force for the agent's later relaxed
stores; its flag falls once no store or remote access that its agent issued earlier is outstanding. -/
def Claims.Fences : Prop :=
  ∀ (s : State) (k : Ctl) (kind : BitVec 3) (scope : BitVec 4), s.Ready true k {} →
    (∃ t, Answers (.fence k kind scope) s true k {} t { lat := none, act := .fence } ∧ t.cur = (s.fenceC kind.toNat scope.toNat).cur ∧
      t.mem = s.mem ∧ (scope ≠ 9 → t = s.fenceC kind.toNat scope.toNat)) ∧
    (∀ id j, s.cur.workOf id = some j → j.act = .fence → j.due = none → j.early ≤ s.cycle →
      (s.cur.storesOut.all (fun n => decide (id ≤ n)) = true → exec (.flagWorkComplete s.cur.ident id) s = .next (s.modC (fun c => c.finish j))) ∧
      (∀ n ∈ s.cur.storesOut, n < id → exec (.flagWorkComplete s.cur.ident id) s = .next s)) ∧
    (s.fenceC kind.toNat scope.toNat).mem = s.mem ∧ (s.fenceC kind.toNat scope.toNat).cur.s = s.cur.s ∧
    ((kind = 3 ∨ kind = 4) → (s.fenceC kind.toNat scope.toNat).cur.sync.rc = s.cur.sync.rc + 1 ∧
      scope.toNat ∈ (s.fenceC kind.toNat scope.toNat).cur.relFences ∧
      ∀ sc ∈ s.cur.relFences, sc ∈ (s.fenceC kind.toNat scope.toNat).cur.relFences) ∧
    (kind = 2 → (s.fenceC 2 scope.toNat).cur.relFences = s.cur.relFences)

/-! Special registers. -/

/-- R29, R76, R228, R300: what `SRD` reads in a course, and that it writes one register a cycle later; `SWR` of a course reaches its
completion records alone, and every other index traps. -/
def Claims.CourseSpecialRegisters : Prop :=
  ∀ (s : State) (k : Ctl) (rd ra : BitVec 6), s.cur.sys = none → s.Ready true k {} →
    let c := s.cur
    let reads (i : BitVec 12) (x : Word) : Prop :=
      Answers (.srd k rd i) s true k {} (s.modC (fun c => c.latched i.toNat (hi32 s.now))) { lat := some 1, writes := [.s rd.toNat x] }
    reads 0x001 c.cid ∧ reads 0x002 (BitVec.ofNat 32 c.wall) ∧ reads 0x003 (BitVec.ofNat 32 (c.wall / 4)) ∧
    reads 0x004 (BitVec.ofNat 32 (c.wall / 12)) ∧ reads 0x005 (BitVec.ofNat 32 s.did) ∧ reads 0x006 c.nid ∧ reads 0x007 c.lid ∧
    reads 0x008 (BitVec.ofNat 32 c.nthr) ∧ reads 0x009 c.gcnt ∧ reads 0x010 (lo32 (s.count (c.wall / 48))) ∧
    reads 0x011 (c.latch.getD (hi32 (s.count (c.wall / 48)))) ∧ reads 0x020 c.gang ∧ reads 0x030 c.meldState ∧
    (∀ n : Fin 12, reads (BitVec.ofNat 12 (0x40 + n)) (BitVec.ofNat 32 (c.flag n))) ∧
    (∀ n : Fin 8, reads (BitVec.ofNat 12 (0x100 + 16 * n)) (c.slotWord n 0 &&& 0x3FFF#32) ∧
      reads (BitVec.ofNat 12 (0x101 + 16 * n)) (c.slotWord n 1) ∧ reads (BitVec.ofNat 12 (0x102 + 16 * n)) 0 ∧
      reads (BitVec.ofNat 12 (0x103 + 16 * n)) 0) ∧
    (∀ (n : Fin 12) (j : Fin 4), reads (BitVec.ofNat 12 (0x200 + 16 * n + j)) (Sparse.get c.recs (4 * n + j) 0) ∧
      Writes (.swr k ra (BitVec.ofNat 12 (0x200 + 16 * n + j))) s k 1 [.record (4 * n + j) (c.S ra.toNat)]) ∧
    (∀ i : BitVec 12, ¬ (0x200 ≤ i.toNat ∧ i.toNat ≤ 0x2BF ∧ i.toNat % 16 < 4) → Traps (.swr k ra i) s true s { code := 0x64 })

/-- R300, R301, R228: the registers of a system core as `SRD` reads them at level 2, and what `SWR` changes there at its latency of 1: one
register, with the bits that read zero kept zero (of `VBASE` and `ESAVE` log entry 34, DEDUCED). -/
def Claims.CoreSpecialRegisters : Prop :=
  ∀ (s : State) (k : Ctl) (rd ra : BitVec 6) (y : SysRegs), s.cur.sys = some y → y.lvl = 2 → s.cur.hold = .none →
    s.Ready true k {} →
    let x := s.cur.S ra.toNat
    let reads (i : BitVec 12) (v : Word) : Prop := ∃ t, Answers (.srd k rd i) s true k {} t { lat := some 1, writes := [.s rd.toNat v] } ∧
      t.mem = s.mem ∧ t.dregs = s.dregs ∧ t.cur.sys = s.cur.sys
    let sets (i : BitVec 12) (z : SysRegs) : Prop :=
      Answers (.swr k ra i) s true k {} s { lat := some 1, act := .swr i.toNat x } ∧
      let t := s.actNow (.swr i.toNat x)
      t.cur.sys = some z ∧ t.mem = s.mem ∧ t.dregs = s.dregs ∧ t.cur.s = s.cur.s
    reads 0x800 (BitVec.ofNat 32 (y.lvl.toNat + if y.ie then 4 else 0)) ∧ reads 0x801 y.asidr ∧ reads 0x802 (BitVec.ofNat 32 y.core) ∧
    reads 0x810 (lo32 y.sup.vbase) ∧ reads 0x811 (hi32 y.sup.vbase) ∧ reads 0x812 (lo32 y.sup.epc) ∧ reads 0x813 (hi32 y.sup.epc) ∧
    reads 0x814 y.sup.ecause ∧ reads 0x815 y.sup.einfo ∧ reads 0x816 y.sup.esave ∧
    reads 0x818 (lo32 y.hyp.vbase) ∧ reads 0x81C y.hyp.ecause ∧
    reads 0x860 (lo32 y.evpend) ∧ reads 0x861 (hi32 y.evpend) ∧ reads 0x862 (lo32 y.even) ∧ reads 0x863 (hi32 y.even) ∧
    sets 0x800 { y with ie := x.getLsbD 2 } ∧ sets 0x801 { y with asidr := x } ∧
    sets 0x810 { y with sup := { y.sup with vbase := pair64 (x &&& ~~~63#32) (hi32 y.sup.vbase) } } ∧
    sets 0x812 { y with sup := { y.sup with epc := pair64 x (hi32 y.sup.epc) } } ∧
    sets 0x816 { y with sup := { y.sup with esave := x &&& 7 } } ∧
    sets 0x81C { y with hyp := { y.hyp with ecause := x } } ∧
    sets 0x860 { y with evpend := y.evpend &&& ~~~(pair64 x 0) } ∧ sets 0x862 { y with even := pair64 x (hi32 y.even) } ∧
    Answers (.swr k ra 0x830) s true k {} s { lat := some 1, act := .swr 0x830 x } ∧
    (s.actNow (.swr 0x830 x)).dreg 0x830 = x ∧ (∀ i, i ≠ 0x830 → (s.actNow (.swr 0x830 x)).dreg i = s.dreg i) ∧
    (∀ id j d, s.cur.workOf id = some j → j.due = some d → d ≤ s.cycle → (∃ i v, j.act = .swr i v) →
      exec (.fixedLatencyCommit s.cur.ident id) s = .next ((s.modC (fun c => c.finish j)).actNow j.act))

/-- R315, R300, R354: an access of a system core that reaches region 11 reads or writes one register of a core; one that is no aligned word of
4 bytes, that names no register, or that its level may not access so, is a physical-range fault with nothing done. R315 says that of another width
and of a reserved index; of the level and the alignment it is the model's reading (log entry 36, DEDUCED), as is the 0x64 of a store that R357 forbids
(log entry 136, DEDUCED). -/
def Claims.RegisterSpace : Prop :=
  (∀ (s s1 : State) (k : Ctl) (rd : BitVec 6) (bp : BitVec 5) (ord : BitVec 1) (imm : BitVec 24) (p : Place) (n i : Nat),
    s.Ready true k {} → s1.regPlace p = some (n, i) → p.w = 4 →
    let va := (s.cur.S64 (2 * bp.toNat) + imm.signExtend 64).toNat
    (s.uniformAt (ord == 1) va 4 { acc := { rd := true } } = .ok s1 [p] [] →
      Answers (.ldu k 2 rd bp ord imm) s true k {} s1
        { lat := none, writes := [.s rd.toNat (BitVec.ofNat 32 (s1.peek p))], act := s1.memAct [p] false (sigFlag k) }) ∧
    (s.uniformAt (ord == 1) va 4 { acc := { wr := true } } = .ok s1 [p] [] →
      let bad := i = 0x884 ∧ ∃ y, s1.cur.sys = some y ∧ s1.trackBad y (s.cur.S rd.toNat) = true
      (bad → Traps (.stu k 2 rd bp ord imm) s true s { code := 0x64 }) ∧
      (¬ bad → ∃ t, exec (.stu k 2 rd bp ord imm) s = .next t ∧ t.mem = s1.mem ∧ (i = 0x831 → t.dreg 0x831 = s.cur.S rd.toNat)))) ∧
  (∀ (s : State) (y : SysRegs) (k : Ctl) (sz : BitVec 2) (rd : BitVec 6) (bp : BitVec 5) (imm : BitVec 24), s.Ready true k {} →
    s.cur.sys = some y → y.lvl = 2 → s.shadows = [] →
    let va := (s.cur.S64 (2 * bp.toNat) + imm.signExtend 64).toNat
    let x (a : Acc) : Ctx := { s.cur.ctx with w := szBytes sz, acc := a }
    va < 2 ^ 52 → rgn va = 3 → s.noPeer va = false → crosses va (szBytes sz) = false →
    ((x { rd := true }).regBad va = true → Traps (.ldu k sz rd bp 0 imm) s true s { code := 0x07, detail := BitVec.ofNat 64 va }) ∧
    ((x { wr := true }).regBad va = true → Traps (.stu k sz rd bp 0 imm) s true s { code := 0x07, detail := BitVec.ofNat 64 va })) ∧
  (∀ (x : Ctx) (pa : Nat), let i := rgnOff pa % 2 ^ 16 / 4
    (x.w ≠ 4 ∨ pa % 4 ≠ 0 ∨ x.dev = false ∨ (0x800 ≤ i ∧ srAccess i = none) ∨ (i < 0x800 ∧ x.acc.wr = true ∧ (i < 0x200 ∨ 0x2BF < i)) →
      x.regBad pa = true) ∧
    (∀ r w, x.w = 4 → pa % 4 = 0 → x.dev = true → rgnOff pa / 2 ^ 20 < 4 → rgnOff pa / 2 ^ 16 % 16 < 4 → 0x800 ≤ i → srAccess i = some (r, w) →
      (x.acc = { rd := true } → (x.regBad pa = true ↔ x.lvl < r)) ∧
      (x.acc = { wr := true } → (x.regBad pa = true ↔ ∀ l, w = some l → x.lvl < l))))

/-! Barriers, sleeping, events. -/

/-- R224: a barrier at course scope departs at once; at a wider scope the arrival that completes the generation departs, with the
epoch advanced by one and status 0, and an arrival before it is held with its stream still at the `BAR`. A count of 0 or above 65,535
traps. -/
def Claims.Barriers : Prop :=
  ∀ (s : State) (k : Ctl) (rd ra : BitVec 6) (id scope : BitVec 4), s.cur.sys = none → s.Ready true k {} →
    let n := (s.cur.S ra.toNat).toNat
    let b (u : Nat) (t : State) : Barrier := t.barrier s.cur.lid scope.toNat u id.toNat
    ((n = 0 ∨ 65535 < n) → Traps (.bar k rd ra id scope) s true s { code := 0x65 }) ∧
    (0 < n → n ≤ 65535 → s.cur.barUnit scope.toNat = none →
      ∃ t, Answers (.bar k rd ra id scope) s true k {} t { lat := some 1, writes := [.s rd.toNat 0] } ∧ t.cur.hold = s.cur.hold ∧ t.mem = s.mem) ∧
    (∀ u, 0 < n → n ≤ 65535 → s.cur.barUnit scope.toNat = some u → (∀ l, s.launchOf = some l → l.abandoned = false) →
      (scope = 3 → (b u s).count = 0 ∨ (b u s).lid = s.cur.lid) → ((b u s).count = 0 ∨ (b u s).n = n) →
      ((b u s).count + 1 = n → ∃ t, Answers (.bar k rd ra id scope) s true k {} t { lat := some 1, writes := [.s rd.toNat 0] } ∧
        (b u t).count = 0 ∧ (b u t).epoch = (b u s).epoch + 1 ∧ t.mem = s.mem) ∧
      ((b u s).count + 1 < n → ∃ t, exec (.bar k rd ra id scope) s = .next t ∧ (b u t).count = (b u s).count + 1 ∧ (b u t).n = n ∧
        t.cur.hold = .bar scope.toNat u id.toNat ((b u s).epoch + 1) rd.toNat none ∧ t.cur.pc (s.cur.streamOf true) = s.cur.pc (s.cur.streamOf true) ∧
        t.mem = s.mem ∧ t.cur.s = s.cur.s)) ∧
    (∀ u, 0 < n → n ≤ 65535 → s.cur.barUnit scope.toNat = some u → (∀ l, s.launchOf = some l → l.abandoned = false) →
      (scope = 3 → (b u s).lid = s.cur.lid) → (b u s).count ≠ 0 → (b u s).n ≠ n → Traps (.bar k rd ra id scope) s true s { code := 0x65 }) ∧
    (∀ u, 0 < n → n ≤ 65535 → scope = 3 → s.cur.barUnit 3 = some u → (∀ l, s.launchOf = some l → l.abandoned = false) →
      (b u s).count ≠ 0 → (b u s).lid ≠ s.cur.lid → exec (.bar k rd ra id scope) s = .next s)

/-- R226, R227, R113: `SLEEPT` holds the address stream until the die's counter reaches the pair's value; `SLEEPT_WAKE` ends the hold then and
not before. Where copies of the course are late by then, one trap 0x42 covers them all, at the instruction after `SLEEPT`. `WFE` goes on with
the event bit cleared, or holds; `SEV` sets the bit in every course of the Active plane. -/
def Claims.SleepAndEvents : Prop :=
  ∀ (s : State) (k : Ctl) (rd : BitVec 6), s.Ready true k {} →
    Answers (.sleept k rd) s true k {} { s with cur := { s.cur with hold := .sleep (s.cur.S64 rd.toNat) } } { lat := some 1 } ∧
    (s.cur.event = true → Answers (.wfe k) s true k {} { s with cur := { s.cur with event := false } } { lat := some 1 }) ∧
    (s.cur.event = false → Answers (.wfe k) s true k {} { s with cur := { s.cur with hold := .wfe } } { lat := some 1 }) ∧
    (∃ t, Answers (.sev k) s true k {} t { lat := some 1 } ∧ t.mem = s.mem ∧ (s.cur.hold = .none → t.cur.event = true)) ∧
    (∀ (t : State) (v : DWord), t.cur.hold = .sleep v → t.cur.sys = none → t.cur.trap = none → t.active t.cur = true →
      let st := t.cur.streamOf true
      (v.toNat ≤ t.now.toNat → (∀ p ∈ t.cur.promises, t.now.toNat < p.2.toNat) →
        exec (.sleeptWake t.cur.ident) t = .next { t with cur := { t.cur with hold := .none } }) ∧
      (v.toNat ≤ t.now.toNat → ∀ p ∈ t.cur.promises, p.2.toNat ≤ t.now.toNat →
        ∃ u x, exec (.sleeptWake t.cur.ident) t = .next u ∧ u.cur.trap = some x ∧ x.code = 0x42 ∧ x.stream = st ∧ x.pc = t.cur.pc st ∧
          u.cur.hold = .none ∧ u.cur.pc st = t.cur.pc st ∧ u.cur.s = t.cur.s ∧ u.cur.promises = t.cur.promises ∧ u.cur.work = t.cur.work) ∧
      (t.now.toNat < v.toNat → exec (.sleeptWake t.cur.ident) t = .next t))

/-! The compute stream. -/

/-- R65, R44: the threads a word acts on, each with its operand set: the active ones in an unmelded course; by `FACE` on the region
predicate's two sides in a melded one. The guard takes those where its predicate, negated or not, holds. -/
def Claims.ThreadsActedOn : Prop :=
  ∀ (c : Course) (v : CView),
    (partition c.meld = none → c.acted v = [(v.a, c.mask)]) ∧
    (∀ fa, partition c.meld = some fa →
      (v.h.face = 0 → c.acted v = [(v.a, c.mask)]) ∧ (v.h.face = 1 → c.acted v = [(v.a, c.mask &&& fa)]) ∧
      (v.h.face = 2 → c.acted v = [(v.a, c.mask &&& ~~~fa)]) ∧
      (∀ b, v.h.face = 3 → v.t.second = some b → c.acted v = [(v.a, c.mask &&& fa), (b, c.mask &&& ~~~fa)])) ∧
    (∀ t < 96, (c.guard v.h).getLsbD t = ((c.P v.h.grd.toNat).getLsbD t != (v.h.gneg == 1))) ∧
    (∀ e ∈ c.groups v, ∃ m, (e.1, m) ∈ c.acted v ∧ e.2 = threads (m &&& c.guard v.h))

/-- R231, R232, R66: what the results of a word write once they commit. A thread that is not acted on keeps its registers; the two faces
of a melded word write in one step, each its own destination; a uniform word writes one `w` register; destination 127 writes nothing; a
push port receives one entry. -/
def Claims.WordResults : Prop :=
  ∀ (s : State) (v : CView) (f : OpSet → Nat → Word),
    let c := s.cur
    let t' : Course := (s.wordWrites v f).foldl Course.write c
    (v.h.uni = 0 → ∀ m, c.acted v = [(v.a, m)] →
      (v.a.d.toNat < 120 → t'.s = c.s ∧ t'.w = c.w ∧ t'.p = c.p ∧ t'.qe = c.qe ∧ t'.queues = c.queues ∧
        ∀ n, ∀ t < 96, t'.V t n = if n = v.a.d.toNat ∧ (m &&& c.guard v.h).getLsbD t then f v.a t else c.V t n) ∧
      (v.a.d = 127 → t' = c) ∧
      (v.a.d = 124 ∨ v.a.d = 125 → s.wordWrites v f = [.push (v.a.d.toNat - 120) (pushTag s.nextId 0)
        (vecEntry ((threads (m &&& c.guard v.h)).map (fun t => (t, f v.a t))))])) ∧
    (v.h.uni = 0 → ∀ b ma mb, c.acted v = [(v.a, ma), (b, mb)] → ma &&& mb = 0 → v.a.d.toNat < 120 → b.d.toNat < 120 →
      ∀ n, ∀ t < 96, t'.V t n =
        if n = v.a.d.toNat ∧ (ma &&& c.guard v.h).getLsbD t then f v.a t
        else if n = b.d.toNat ∧ (mb &&& c.guard v.h).getLsbD t then f b t else c.V t n) ∧
    (v.h.uni = 1 →
      (0 < v.a.d.toNat → v.a.d.toNat < 29 → t'.v = c.v ∧ t'.s = c.s ∧
        ∀ n, t'.W n = if n = v.a.d.toNat then f v.a 0 else c.W n) ∧
      (v.a.d = 0 → t' = c) ∧
      (v.a.d = 124 ∨ v.a.d = 125 → s.wordWrites v f = [.push (v.a.d.toNat - 120) (pushTag s.nextId 0) (.uni (f v.a 0))]))

/-- R187, R231: what the predicates of a word write: its destination, in the threads acted on alone; `p0` is never written. -/
def Claims.PredicateResults : Prop :=
  ∀ (s : State) (v : CView) (f : OpSet → Nat → Bool) (m : Mask), s.cur.acted v = [(v.a, m)] →
    let t' : Course := (s.predWrites v f).foldl Course.write s.cur
    t'.v = s.cur.v ∧ t'.w = s.cur.w ∧ t'.s = s.cur.s ∧ t'.qe = s.cur.qe ∧
    ∀ n, ∀ t < 96, (t'.P n).getLsbD t =
      if n = v.a.d.toNat ∧ n ≠ 0 ∧ (m &&& s.cur.guard v.h).getLsbD t then f v.a t else (s.cur.P n).getLsbD t

/-- R234: the integer instructions of the compute stream, with their latencies; a count is the low 6 bits of the second source. -/
def Claims.IntegerVectors : Prop :=
  ∀ (s : State) (h : CHdr) (a : OpSet) (t : Tail) (v : CView),
    let u := h.uni == 1
    let x (b : OpSet) (n : Nat) : Word := s.cur.src u n b.s1.toNat
    let y (b : OpSet) (n : Nat) : Word := s.cur.src2 v b n
    let z (b : OpSet) (n : Nat) : Word := s.cur.src u n b.s3.toNat
    let count (b : OpSet) (n : Nat) : Nat := ((y b n).extractLsb' 0 6).toNat
    let unsigned : Bool := h.typ == 14
    let gives (i : Instr) (lat : Nat) (f : OpSet → Nat → Word) : Prop :=
      s.ReadyC faceBad false i v → GivesWords i s s v (some lat) f
    gives (.vadd h a t) 4 (fun b n => x b n + y b n) ∧ gives (.vsub h a t) 4 (fun b n => x b n - y b n) ∧
    gives (.vmul h a t) 5 (fun b n => x b n * y b n) ∧
    gives (.vmulh h a t) 5 (fun b n => if unsigned then BitVec.ofNat 32 ((x b n).toNat * (y b n).toNat / 2 ^ 32)
      else BitVec.ofInt 32 ((x b n).toInt * (y b n).toInt / 2 ^ 32)) ∧
    gives (.vmad h a t) 5 (fun b n => x b n * y b n + z b n) ∧
    gives (.vand h a t) 4 (fun b n => x b n &&& y b n) ∧ gives (.vor h a t) 4 (fun b n => x b n ||| y b n) ∧
    gives (.vxor h a t) 4 (fun b n => x b n ^^^ y b n) ∧
    gives (.vshl h a t) 4 (fun b n => if count b n < 32 then x b n <<< count b n else 0) ∧
    gives (.vshr h a t) 4 (fun b n => if count b n < 32 then x b n >>> count b n else 0) ∧
    gives (.vsar h a t) 4 (fun b n => if count b n < 32 then (x b n).sshiftRight (count b n)
      else if (x b n).msb then 0xFFFFFFFF#32 else 0) ∧
    gives (.vmin h a t) 4 (fun b n => if unsigned then (if (x b n).toNat ≤ (y b n).toNat then x b n else y b n)
      else if (x b n).toInt ≤ (y b n).toInt then x b n else y b n) ∧
    gives (.vmax h a t) 4 (fun b n => if unsigned then (if (x b n).toNat ≤ (y b n).toNat then y b n else x b n)
      else if (x b n).toInt ≤ (y b n).toInt then y b n else x b n) ∧
    gives (.vabs h a t) 4 (fun b n => BitVec.ofInt 32 |(x b n).toInt|) ∧
    gives (.vclz h a t) 4 (fun b n => BitVec.ofNat 32 (if x b n = 0 then 32 else 31 - Nat.log2 (x b n).toNat)) ∧
    gives (.vpopc h a t) 4 (fun b n => BitVec.ofNat 32 ((List.range 32).countP (fun i => (x b n).getLsbD i)))

/-- R235, R236, R91: a floating instruction flushes and modifies its sources, computes exactly, scales, rounds once and clamps; under
stochastic rounding the generator of the lane set has stepped (`StochasticSteps` says how). -/
def Claims.FloatVectors : Prop :=
  ∀ (s : State) (h : CHdr) (a : OpSet) (t : Tail) (v : CView),
    let r := (s.rounding v).1
    let bf := h.typ == 1
    let sub := r.slot.sub
    let x (b : OpSet) (n : Nat) : XVal := s.cur.fsrc1 v sub b n
    let y (b : OpSet) (n : Nat) : XVal := s.cur.fsrc2 v sub b n
    let z (b : OpSet) (n : Nat) : XVal := s.cur.fsrc3 v sub b n
    let gives (i : Instr) (lat : Nat) (f : OpSet → Nat → XVal) : Prop :=
      s.ReadyC faceBad false i v → GivesWords i s (s.rounding v).2 v (some lat)
        (fun b n => clampWord b.clmp (roundTyp bf (r.at n) ((f b n).shift b.scl.toInt)))
    gives (.fadd h a t) 6 (fun b n => XVal.add r.mode (x b n) (y b n)) ∧
    gives (.fsub h a t) 6 (fun b n => XVal.add r.mode (x b n) (y b n).negate) ∧
    gives (.fmul h a t) 6 (fun b n => (x b n).mul (y b n)) ∧
    gives (.ffma h a t) 6 (fun b n => XVal.add r.mode ((x b n).mul (y b n)) (z b n)) ∧
    gives (.fmin h a t) 4 (fun b n => XVal.minmax false (x b n) (y b n)) ∧
    gives (.fmax h a t) 4 (fun b n => XVal.minmax true (x b n) (y b n)) ∧
    gives (.frcp h a t) 12 (fun b n => (x b n).rcp) ∧ gives (.frsq h a t) 12 (fun b n => (x b n).rsq) ∧
    gives (.fsqrt h a t) 12 (fun b n => (x b n).sqrt) ∧ gives (.fexp2 h a t) 12 (fun b n => (x b n).exp2) ∧
    gives (.flog2 h a t) 12 (fun b n => (x b n).log2) ∧
    (s.rounding v).2.cur = s.cur ∧ (s.rounding v).2.mem = s.mem ∧ (r.mode ≠ 4 → (s.rounding v).2 = s)

/-- R91, R93: a rounding instruction whose mode resolves to stochastic steps the generator of its lane set once in each beat, by three shifts;
the first beat after reset or a plane change loads it from the slot's seed and the place of the lane set, a zero replaced by 1. Lane l of a beat
takes its word rotated left by 5l modulo 32. Of a redundant pair the beats of the second member, which stands on another wall, step its own lane
set's generator likewise (R387); the words are the first member's (log entry 20, DESIGN CHOICE, the model's choice). No other generator moves. -/
def Claims.StochasticSteps : Prop :=
  ∀ (s : State) (v : CView), (∀ p, s.cur.second = some p → p.1 ≠ s.cur.wall) →
    let c := s.cur
    let r := (s.rounding v).1
    let s' := (s.rounding v).2
    let step (x : Word) : Word :=
      let x := x ^^^ (x <<< 13)
      let x := x ^^^ (x >>> 17)
      x ^^^ (x <<< 5)
    let gen (t : State) (w l : Nat) : Word × Bool := Sparse.get (t.wall w).gens l (0, false)
    let x0 (w l : Nat) : Word :=
      let loaded := c.slotWord v.h.slot.toNat 1 ^^^ BitVec.ofNat 32 (4 * w + l)
      if (gen s w l).2 then (gen s w l).1 else if loaded = 0 then 1 else loaded
    let bs := c.beats v
    let stepped (w l : Nat) : Prop := gen s' w l = (if bs = [] then gen s w l else (step^[bs.length] (x0 w l), true))
    (v.h.ro = 0 → r.mode = ((c.slotWord v.h.slot.toNat 0).extractLsb' 8 3).toNat) ∧ (v.h.ro = 3 → r.mode = 4) ∧
    (v.h.ro = 1 ∨ v.h.ro = 2 → r.mode ≠ 4) ∧
    (v.h.uni = 1 → bs = [0]) ∧ (v.h.uni ≠ 1 → ∀ k, k ∈ bs ↔ k < 3 ∧ maskWord (c.actedMask v) k ≠ 0) ∧ bs.Nodup ∧
    (r.mode ≠ 4 → s' = s) ∧
    (r.mode = 4 →
      (∀ i k, bs[i]? = some k → ∀ t < 96, t / 32 = k → (r.at t).word = (step^[i + 1] (x0 c.wall c.lset)).rotateLeft (5 * (t % 32) % 32)) ∧
      stepped c.wall c.lset ∧ (∀ p, c.second = some p → stepped p.1 c.twinSet) ∧
      ∀ w l, (w, l) ≠ (c.wall, c.lset) → (∀ p, c.second = some p → (w, l) ≠ (p.1, c.twinSet)) → gen s' w l = gen s w l) ∧
    step 1 = 0x00042021#32

/-- R237, R238, R235: the special operands of the floating functions: each column of the table of R237, the rules of `FMIN`, `FMAX`
and `FCMP` for NaN and the zeros, and what `CLMP` makes of NaN and of -0. -/
def Claims.FloatSpecials : Prop :=
  let pz := XVal.zero false
  let nz := XVal.zero true
  (XVal.inf true).rcp = nz ∧ nz.rcp = .inf true ∧ pz.rcp = .inf false ∧ (XVal.inf false).rcp = pz ∧ XVal.nan.rcp = .nan ∧
  (XVal.inf true).rsq = .nan ∧ nz.rsq = .inf true ∧ pz.rsq = .inf false ∧ (XVal.inf false).rsq = pz ∧ XVal.nan.rsq = .nan ∧
  (XVal.inf true).sqrt = .nan ∧ nz.sqrt = nz ∧ pz.sqrt = pz ∧ (XVal.inf false).sqrt = .inf false ∧ XVal.nan.sqrt = .nan ∧
  (XVal.inf true).exp2 = pz ∧ nz.exp2 = .one ∧ pz.exp2 = .one ∧ (XVal.inf false).exp2 = .inf false ∧ XVal.nan.exp2 = .nan ∧
  (XVal.inf true).log2 = .nan ∧ nz.log2 = .inf true ∧ pz.log2 = .inf true ∧ (XVal.inf false).log2 = .inf false ∧
  XVal.nan.log2 = .nan ∧ XVal.one.log2 = pz ∧
  (∀ m e st, m ≠ 0 → (XVal.fin true m e st).rsq = .nan ∧ (XVal.fin true m e st).sqrt = .nan ∧ (XVal.fin true m e st).log2 = .nan) ∧
  (∀ w x, XVal.minmax w .nan x = x ∧ XVal.minmax w x .nan = x) ∧
  XVal.minmax false nz pz = nz ∧ XVal.minmax false pz nz = nz ∧ XVal.minmax true nz pz = pz ∧ XVal.minmax true pz nz = pz ∧
  (∀ x, (∀ c, fcond c .nan x = (c == 1 || 7 ≤ c)) ∧ ∀ c, fcond c x .nan = (c == 1 || 7 ≤ c)) ∧ fcond 0 nz pz = true ∧ fcond 2 nz pz = false ∧
  clampWord 1 0x7FC00000#32 = 0 ∧ clampWord 1 0x80000000#32 = 0 ∧ clampWord 2 0x7FC00000#32 = 0 ∧ clampWord 2 0x80000000#32 = 0x80000000#32

/-- R234, R238 to R240: comparisons, selection, classification, predicates and moves. -/
def Claims.PredicatesAndMoves : Prop :=
  ∀ (s : State) (h : CHdr) (a : OpSet) (t : Tail) (v : CView),
    let c := s.cur
    let P (n : BitVec 7) (j : Nat) : Bool := (c.P n.toNat).getLsbD j
    let sub := (c.slotOf h).sub
    let gives (i : Instr) (lat : Nat) (f : OpSet → Nat → Word) : Prop :=
      s.ReadyC faceBad false i v → GivesWords i s s v (some lat) f
    let holds (i : Instr) (lat : Nat) (f : OpSet → Nat → Bool) : Prop := s.ReadyC faceBad false i v → GivesPreds i s v lat f
    holds (.vcmp h a t) 4 (fun b n => Machine.cond b.s3.toNat (c.vsrc n b.s1.toNat) (c.src2 v b n)) ∧
    gives (.vsel h a t) 4 (fun b n => if P b.s3 n then c.vsrc n b.s1.toNat else c.src2 v b n) ∧
    holds (.fcmp h a t) 4 (fun b n => fcond b.s3.toNat (c.fsrc1 v sub b n) (c.fsrc2 v sub b n)) ∧
    gives (.fclass h a t) 4 (fun b n =>
      let w := c.src (h.uni == 1) n b.s1.toNat
      1 <<< classOf (val32 (if h.typ == 1 then w &&& 0xFFFF0000#32 else w))) ∧
    holds (.plop h a t) 2 (fun b n => b.s3.getLsbD ((if P b.s1 n then 1 else 0) + (if P b.s2 n then 2 else 0))) ∧
    holds (.pfrom h a t) 2 (fun b n => c.vsrc n b.s1.toNat ≠ 0) ∧
    gives (.pto h a t) 2 (fun b n => if P b.s1 n then 1 else 0) ∧
    gives (.vmov h a t) 4 (fun b n => c.src (h.uni == 1) n b.s1.toNat) ∧
    (∀ x, t.immed = some x → gives (.vmovi h a t) 4 (fun _ _ => x)) ∧
    gives (.vbcast h a t) 4 (fun b _ => c.usrc b.s1.toNat)

/-- R245 to R247: the lane operations. `SHFL` reads its source thread's value where that thread takes part, and its own where it does
not; `VOTE` gives every participant one answer; `BALLOT` writes three `w` registers; `REDUX` and `SCAN` fold the participants in
ascending order. -/
def Claims.LaneOperations : Prop :=
  ∀ (s : State) (h : CHdr) (a : OpSet) (t : Tail) (v : CView),
    let c := s.cur
    let issues (i : Instr) (q : State → List RegWrite → Prop) : Prop :=
      s.ReadyC faceBad false i v → ∃ s1 ws, AnswersC i s v s1 (c.planC v (some 8) ws) ∧ s1.mem = s.mem ∧ s1.cur = c ∧ q s1 ws
    let words (f : OpSet → List Nat → Nat → Word) : List RegWrite :=
      vectorWrites s.nextId ((c.groups v).map (fun g => (g.1.d.toNat, g.2.map (fun j => (j, f g.1 g.2 j)))))
    let from_ (b : OpSet) (ps : List Nat) (u j : Nat) : Word := c.vsrc (if u ∈ ps then u else j) b.s1.toNat
    issues (.shfl h a t) (fun s1 ws => s1 = s ∧ ws = words (fun b ps j =>
      let k := (c.src2 v b j).toNat
      match b.s3.toNat with
      | 0 => from_ b ps k j
      | 1 => if k ≤ j then from_ b ps (j - k) j else c.vsrc j b.s1.toNat
      | 2 => from_ b ps (j + k) j
      | _ => from_ b ps (j ^^^ (k % 128)) j)) ∧
    issues (.vote h a t) (fun s1 ws => s1 = s ∧ ws = (c.groups v).map (fun g =>
      let P (j : Nat) : Bool := (c.P g.1.s1.toNat).getLsbD j
      .p g.1.d.toNat (maskOf g.2) (if (match g.1.s3.toNat with
        | 0 => g.2.any P
        | 1 => g.2.all P
        | _ => g.2.all P || g.2.all (fun j => !P j)) then maskOf g.2 else 0))) ∧
    issues (.ballot h a t) (fun s1 ws => s1 = s ∧ ∀ m, c.acted v = [(v.a, m)] →
      let b := maskOf (threads (m &&& c.guard v.h)) &&& c.P v.a.s1.toNat
      let d := v.a.d.toNat
      ws = [.w d (b.extractLsb' 0 32), .w (d + 1) (b.extractLsb' 32 32), .w (d + 2) (b.extractLsb' 64 32)]) ∧
    issues (.redux h a t) (fun s1 ws => s1 = (s.foldRounding v).2 ∧
      ws = words (fun b ps _ => foldThreads c v (s.foldRounding v).1 b (b.s3.toNat % 8) ps)) ∧
    issues (.scan h a t) (fun s1 ws => s1 = (s.foldRounding v).2 ∧
      ws = words (fun b ps j => foldThreads c v (s.foldRounding v).1 b (b.s3.toNat % 8)
        (ps.filter (fun u => u < j ∨ (u = j ∧ b.s3.getLsbD 3 = false)))))

/-- R246: the fold of `REDUX` and `SCAN` over whole numbers: sums modulo 2^32, minima and maxima, from the lowest thread's value on; the
fold of no thread is the operation's identity. -/
def Claims.IntegerFolds : Prop :=
  ∀ (c : Course) (v : CView) (r : Rounding) (a : OpSet) (ts : List Nat),
    let x (t : Nat) : Word := c.vsrc t a.s1.toNat
    foldThreads c v r a 0 ts = (ts.map x).sum ∧
    foldThreads c v r a 1 [] = 0x7FFFFFFF#32 ∧ foldThreads c v r a 2 [] = 0x80000000#32 ∧ foldThreads c v r a 3 [] = 0xFFFFFFFF#32 ∧
    foldThreads c v r a 4 [] = 0 ∧ foldThreads c v r a 5 [] = 0 ∧
    (∀ t ∈ ts, (foldThreads c v r a 1 ts).toInt ≤ (x t).toInt ∧ (x t).toInt ≤ (foldThreads c v r a 2 ts).toInt ∧
      (foldThreads c v r a 3 ts).toNat ≤ (x t).toNat ∧ (x t).toNat ≤ (foldThreads c v r a 4 ts).toNat) ∧
    (ts ≠ [] → ∀ op ∈ [1, 2, 3, 4], ∃ t ∈ ts, foldThreads c v r a op ts = x t)

/-- R241 to R244: conversions and packed strings. A pairing that `CVT` or `CVTI` forbids is illegal. `PACK` works on the 96 threads' values,
zero for a thread it does not act on; `UNPK` reads whatever the threads hold. -/
def Claims.Conversions : Prop :=
  ∀ (s : State) (h : CHdr) (a : OpSet) (t : Tail) (v : CView),
    let c := s.cur
    let r := (s.rounding v).1
    let fmt := h.typ.toNat
    let src := (c.slotOf h).fmt
    let conv (ints : Bool) (i : Instr) : Prop :=
      (pairingBad ints src fmt = false → s.ReadyC faceBad false i v → GivesWords i s (s.rounding v).2 v (some 6) (fun b n =>
        let x := (decodeElem src (elemBits src (c.src (h.uni == 1) n b.s1.toNat))).shift b.scl.toInt
        elemWord fmt (roundElem fmt (r.at n true) (intOf src).isSome (if (fmtOf src).isSome then x.flush r.slot.sub else x)))) ∧
      (pairingBad ints src fmt = true → i.cview = some v →
        s.frontReady .comp h.k.dist.toNat = true → TrapsC i s s { code := 0x63 })
    conv false (.cvt h a t) ∧ conv true (.cvti h a t) ∧
    (s.ReadyC noMeld false (.pack h a t) v →
      let b := (blockOf r.slot fmt).1
      let ts := (c.groups v).flatMap (fun g => g.2)
      let x (n : Nat) : XVal := if n ∈ ts then (val32 (c.vsrc n a.s1.toNat)).flush r.slot.sub else XVal.zero false
      let block (j : Nat) : List Word := packBlock r.slot fmt (fun i => r.at (j * b + i) true)
        (Config.freeByte (s.rounding v).2.free).toNat ((List.range b).map (fun i => x (j * b + i)))
      let s1 : State := { (s.rounding v).2 with free := (s.rounding v).2.free + 1 }
      GivesWords (.pack h a t) s s1 v (some 4)
        (fun _ n => (((List.range (96 / b)).map block).getD (n / b) []).getD (n % b) 0)) ∧
    (s.ReadyC noMeld false (.unpk h a t) v →
      let l := c.slotOf h
      let b := (blockOf l fmt).1
      let w := (blockOf l fmt).2
      let word (n : Nat) : Word := c.vsrc n a.s1.toNat
      let block (j : Nat) : List Word := unpackBlock l fmt ((List.range w).map (fun i => word (j * b + i))) (word (j * b + w))
      GivesWords (.unpk h a t) s s v (some 4) (fun _ n => (((List.range (96 / b)).map block).getD (n / b) []).getD (n % b) 0))

/-- R248, R249: `EXPR` evaluates its program over its four inputs, rounding each operator's result to FP32, and commits between 6 and
6 + 12k cycles after issue for k operators. -/
def Claims.FusedExpressions : Prop :=
  ∀ (s : State) (h : CHdr) (e : ExprBody) (r : Rnd) (ins st : List XVal) (x y : XVal),
    let v := exprView h e
    let c := s.cur
    let g := s.rounding v
    let q (z : XVal) : XVal := val32 (round32 r z)
    let k := (e.prog.filter (fun t => 4 ≤ t)).length
    (courseChecks (fun part f => faceBad part f || f == 3) exprShape v false c = none → ¬ (c.vcnt ≤ e.s4.toNat ∧ e.s4.toNat < 120) →
      s.Ready false h.k (exprIo h e) →
      Answers (.expr h e) s false h.k (exprIo h e) g.2
        { c.planC v none (s.wordWrites v (fun _ n =>
            let ins := [e.s1, e.s2, e.s3, e.s4].map (fun f =>
              (val32 (if h.typ == 1 then c.vsrc n f.toNat &&& 0xFFFF0000#32 else c.vsrc n f.toNat)).flush g.1.slot.sub)
            roundTyp (h.typ == 1) (g.1.at n) ((e.prog.foldl (exprStep (g.1.at n) ins) []).headD .nan)))
          with window := (6, some (6 + 12 * k)) }) ∧
    (∀ n : Fin 4, exprStep r ins st n = (ins[n]?).getD .nan :: st) ∧
    exprStep r ins (y :: x :: st) 4 = q (XVal.add r.mode x y) :: st ∧ exprStep r ins (y :: x :: st) 5 = q (XVal.add r.mode x y.negate) :: st ∧
    exprStep r ins (y :: x :: st) 6 = q (x.mul y) :: st ∧ exprStep r ins (y :: x :: st) 7 = q (XVal.minmax true x y) :: st ∧
    exprStep r ins (y :: x :: st) 8 = q (XVal.minmax false x y) :: st ∧ exprStep r ins (x :: st) 9 = q x.negate :: st ∧
    exprStep r ins (x :: st) 10 = q x.abs :: st ∧ exprStep r ins (x :: st) 11 = q x.exp2 :: st ∧ exprStep r ins (x :: st) 12 = q x.log2 :: st ∧
    exprStep r ins (x :: st) 13 = q x.rcp :: st ∧ exprStep r ins (x :: st) 14 = q x.rsq :: st

/-- R69, R67: the meld instructions: what they push or pop, the mask they leave, and where the stream goes. The write of the stack comes
first, so that the mask is bounded by the region entered (R74). That `MEND` traps at a misaligned start is log entry 135, DEDUCED (the model's choice). -/
def Claims.Melds : Prop :=
  ∀ (s : State) (h : CHdr) (a : OpSet) (t : Tail) (v : CView),
    let c := s.cur
    let n := v.a.s1.toNat
    let ready (faces : Option Mask → BitVec 2 → Bool) (i : Instr) : Prop := s.ReadyC faces false i v
    let enter := match partition c.meld, h.face.toNat with
      | some fa, 1 => c.mask &&& fa
      | some fa, 2 => c.mask &&& ~~~fa
      | _, _ => c.mask
    (ready meldFaces (.meld h a t) → c.meld.length < 4 →
      Controls (.meld h a t) s v (.meld (.meld c.mask (enter &&& c.P n) n (h.face == 2) :: c.meld) :: maskWrites enter) none) ∧
    (ready meldFaces (.meld h a t) → 4 ≤ c.meld.length → TrapsC (.meld h a t) s s { code := 0x69 }) ∧
    (ready loopFaces (.mloop h a t) → c.meld.length < 4 → partition c.meld = none →
      ∃ cnt : Sparse Word, (∀ j < 96, Sparse.get cnt j 0 = if c.mask.getLsbD j then c.vsrc j n else 0) ∧
        Controls (.mloop h a t) s v (.meld (.loop c.mask none (c.nextPc .comp) cnt :: c.meld) :: maskWrites (maskOf (cnt.map Prod.fst))) none) ∧
    (ready loopFaces (.mloop h a t) → 4 ≤ c.meld.length → TrapsC (.mloop h a t) s s { code := 0x69 }) ∧
    (∀ saved fa p enc rest, c.meld = .meld saved fa p enc :: rest → c.openBranch = false → ready onlyPlain (.mend h a t) →
      Controls (.mend h a t) s v (.meld rest :: maskWrites (saved &&& c.live)) none) ∧
    (∀ saved fa start cnt rest, c.meld = .loop saved fa start cnt :: rest → c.openBranch = false → ready onlyPlain (.mend h a t) →
      let run := maskOf ((countDown cnt).map Prod.fst) &&& c.live
      (run ≠ 0 → Controls (.mend h a t) s v (.meld (.loop saved fa start (countDown cnt) :: rest) :: maskWrites run) (some start)) ∧
      (run = 0 → Controls (.mend h a t) s v (.meld rest :: maskWrites (saved &&& c.live)) none)) ∧
    (∀ saved fa start cnt rest, c.meld = .loop saved fa start cnt :: rest → ready splitFaces (.mbrk h a t) →
      let gone := enter &&& c.guard v.h
      Controls (.mbrk h a t) s v
        (.meld (.loop saved fa start (cnt.filter (fun e => !gone.getLsbD e.1)) :: rest) :: maskWrites (c.mask &&& ~~~gone)) none)

/-- R37, R38, R71, R72, R181, R250 to R253: the compute-control instructions; each traps where it would go on at a misaligned address. -/
def Claims.ComputeControl : Prop :=
  ∀ (s : State) (h : CHdr) (a : OpSet) (t : Tail) (v : CView) (off : Word),
    let c := s.cur
    let to_ := c.pcC + off.signExtend 64 * BitVec.ofNat 64 (c.wordBytes .comp)
    let next := c.nextPc .comp
    let ready (faces : Option Mask → BitVec 2 → Bool) (i : Instr) : Prop := s.ReadyC faces false i v
    let taken := c.mask &&& c.guard v.h
    let rest := c.mask &&& ~~~taken
    let depth := c.meld.length
    (ready onlyPlain (.cnop h a t) → AnswersC (.cnop h a t) s v s { lat := some 1, beats := 0 }) ∧
    (ready onlyPlain (.cbr h a t) → v.t = .off off →
      (16 ≤ c.recon.length → TrapsC (.cbr h a t) s s { code := 0x68 }) ∧
      (c.recon.length < 16 → rest = 0 → Controls (.cbr h a t) s v (.recon (⟨c.mask, 0, 0, depth⟩ :: c.recon) :: maskWrites taken) (some to_)) ∧
      (c.recon.length < 16 → rest ≠ 0 →
        Controls (.cbr h a t) s v (.recon (⟨c.mask, taken, to_, depth⟩ :: c.recon) :: maskWrites rest) none)) ∧
    (∀ e r, ready onlyPlain (.cjoin h a t) → v.t = .off off → c.recon = e :: r → e.depth = depth →
      (e.pending ≠ 0 →
        Controls (.cjoin h a t) s v (.recon (⟨e.saved, 0, e.pc, e.depth⟩ :: r) :: maskWrites (e.pending &&& c.live)) (some e.pc)) ∧
      (e.pending = 0 → Controls (.cjoin h a t) s v (.recon r :: maskWrites (e.saved &&& c.live)) (some to_))) ∧
    (ready onlyPlain (.cloop h a t) → v.t = .off off →
      let n := c.W v.a.s1.toNat - 1
      Controls (.cloop h a t) s v [.w v.a.s1.toNat n] (if n ≠ 0 then some to_ else none)) ∧
    (ready onlyPlain (.ccall h a t) → v.t = .off off →
      (c.meld = [] → Controls (.ccall h a t) s v [.w 26 (lo32 next), .w 27 (hi32 next)] (some to_)) ∧
      (0 < depth → depth < 4 → Controls (.ccall h a t) s v [.meld (.suspend next :: c.meld)] (some to_)) ∧
      (4 ≤ depth → TrapsC (.ccall h a t) s s { code := 0x69 })) ∧
    (∀ fa b, ready (fun part f => faceBad part f) (.ccallPair h a t) → partition c.meld = some fa → v.t.second = some b → depth < 4 →
      let ta := c.pcC + (c.usrc v.a.s1.toNat).signExtend 64
      let tb := c.pcC + (c.usrc b.s1.toNat).signExtend 64
      let ma := c.mask &&& fa
      let mb := c.mask &&& ~~~fa
      (c.mask = 0 → Controls (.ccallPair h a t) s v [] none) ∧
      (ma ≠ 0 →
        Controls (.ccallPair h a t) s v (.meld (.pair c.mask fa tb next false :: c.meld) :: maskWrites ma) (some ta)) ∧
      (ma = 0 → mb ≠ 0 →
        Controls (.ccallPair h a t) s v (.meld (.pair c.mask fa tb next true :: c.meld) :: maskWrites mb) (some tb))) ∧
    (ready onlyPlain (.cret h a t) →
      (c.meld = [] →
        Controls (.cret h a t) s v [] (some (pair64 (c.W 26) (c.W 27)))) ∧
      (∀ ret r, c.meld = .suspend ret :: r → c.openBranch = false → Controls (.cret h a t) s v [.meld r] (some ret)) ∧
      (∀ saved fa tb ret runB r, c.meld = .pair saved fa tb ret runB :: r → c.openBranch = false →
        let mb := saved &&& ~~~fa &&& c.live
        (runB = false → mb ≠ 0 →
          Controls (.cret h a t) s v (.meld (.pair saved fa tb ret true :: r) :: maskWrites mb) (some tb)) ∧
        (runB = true ∨ mb = 0 → Controls (.cret h a t) s v (.meld r :: maskWrites (saved &&& c.live)) (some ret)))) ∧
    (ready splitFaces (.cexit h a t) → Controls (.cexit h a t) s v [.exit (c.faceMask h.face &&& c.guard v.h)] none) ∧
    (∀ m, let d := c.write (.exit m)
      d.live = c.live &&& ~~~m ∧ (c.live &&& ~~~m = 0 → d.endC = true) ∧ (c.live &&& ~~~m ≠ 0 → d.endC = c.endC) ∧
      (c.unified = false → d.endA = c.endA) ∧ d.s = c.s ∧ d.v = c.v)

/-- R286, R289: shapes, loads, stores, transposes and diagonals of the small-matrix registers; a thread whose operand has the wrong shape
makes the whole word trap with code 0x6B. -/
def Claims.SmallMatrixShapes : Prop :=
  ∀ (s : State) (h : CHdr) (a : OpSet) (t : Tail) (v : CView),
    let c := s.cur
    let lanes := (c.groups v).flatMap (fun g => g.2.map (fun j => (g.1, j)))
    let ready (i : Instr) : Prop := s.ReadyC faceBad false i v
    let gives (i : Instr) (lat : Nat) (ok : OpSet → Nat → Bool) (ws : List RegWrite) : Prop :=
      ready i →
      ((∀ e ∈ lanes, ok e.1 e.2 = true) → AnswersC i s v s (c.planC v (some lat) ws)) ∧
      ((∃ e ∈ lanes, ok e.1 e.2 = false) →
        TrapsC i s s { code := 0x6B, fmask := maskOf ((lanes.filter (fun e => !ok e.1 e.2)).map Prod.snd) })
    let each (f : OpSet → Nat → List RegWrite) : List RegWrite := lanes.flatMap (fun e => f e.1 e.2)
    let any_ (_ : OpSet) (_ : Nat) : Bool := true
    let has (n : OpSet → BitVec 7) (b : OpSet) (j : Nat) : Bool := c.shaped j (n b).toNat
    gives (.qzero h a t) 2 any_ (each (fun b j => matWrites b.d.toNat j b.s2.toNat b.s3.toNat (fun _ _ => 0))) ∧
    gives (.qshape h a t) 2 any_ (each (fun b j => matWrites b.d.toNat j b.s2.toNat b.s3.toNat (fun r k => c.Q j b.d.toNat (6 * r + k)))) ∧
    gives (.qld h a t) 4 any_ (each (fun b j => (List.range b.s3.toNat).flatMap (fun k =>
      let e := b.s2.toNat + k
      let n := c.qcols j b.d.toNat
      if e < c.qrows j b.d.toNat * n then [.qe b.d.toNat j (6 * (e / n) + e % n) (c.vsrc j (b.s1.toNat + k))] else []))) ∧
    gives (.qst h a t) 4 (has OpSet.s1) (vectorWrites s.nextId ((c.groups v).flatMap (fun g =>
      (List.range g.1.s3.toNat).map (fun k => (g.1.d.toNat + k, g.2.map (fun j =>
        let e := g.1.s2.toNat + k
        let n := c.qcols j g.1.s1.toNat
        (j, if e < c.qrows j g.1.s1.toNat * n then c.Q j g.1.s1.toNat (6 * (e / n) + e % n) else 0))))))) ∧
    gives (.qtrn h a t) 4 (has OpSet.s1) (each (fun b j =>
      matWrites b.d.toNat j (c.qcols j b.s1.toNat) (c.qrows j b.s1.toNat) (fun r k => c.Q j b.s1.toNat (6 * k + r)))) ∧
    gives (.qdiagGet h a t) 4 (has OpSet.s1) (each (fun b j => (List.range 6).map (fun k =>
      .v (b.d.toNat + k) j (if k < c.diag j b.s1.toNat then c.Q j b.s1.toNat (7 * k) else 0)))) ∧
    gives (.qdiagSet h a t) 4 (has OpSet.d) (each (fun b j => (List.range (c.diag j b.d.toNat)).map (fun k =>
      .qe b.d.toNat j (7 * k) (c.V j (b.s1.toNat + k))))) ∧
    (∀ (d : Course) (n j r k : Nat) (f : Nat → Nat → Word), j < 96 → r ≤ 6 → k ≤ 6 →
      let d' := (matWrites n j r k f).foldl Course.write d
      d'.qrows j n = r ∧ d'.qcols j n = k ∧
      ∀ x < 6, ∀ y < 6, d'.Q j n (6 * x + y) = if x < r ∧ y < k then f x y else 0)

/-- R286, R290: sums and products of small matrices, every operation of a dot product rounded in order. -/
def Claims.SmallMatrixArithmetic : Prop :=
  ∀ (s : State) (h : CHdr) (a : OpSet) (t : Tail) (v : CView),
    let c := s.cur
    let r := (s.rounding v).1
    let lanes := (c.groups v).flatMap (fun g => g.2.map (fun j => (g.1, j)))
    let gives (i : Instr) (lat : Nat) (ok : OpSet → Nat → Bool) (f : OpSet → Nat → List RegWrite) : Prop :=
      s.ReadyC faceBad false i v →
      ((∀ e ∈ lanes, ok e.1 e.2 = true) →
        AnswersC i s v (s.rounding v).2 (c.planC v (some lat) (lanes.flatMap (fun e => f e.1 e.2)))) ∧
      ((∃ e ∈ lanes, ok e.1 e.2 = false) →
        TrapsC i s s { code := 0x6B, fmask := maskOf ((lanes.filter (fun e => !ok e.1 e.2)).map Prod.snd) })
    let R (j : Nat) (n : BitVec 7) : Nat := c.qrows j n.toNat
    let C (j : Nat) (n : BitVec 7) : Nat := c.qcols j n.toNat
    let q (j : Nat) (n : BitVec 7) (x y : Nat) : XVal := (val32 (c.Q j n.toNat (6 * x + y))).flush (r.at j).sub
    let w (j n : Nat) : XVal := (val32 (c.V j n)).flush (r.at j).sub
    let rn (j : Nat) (x : XVal) : XVal := val32 (round32 (r.at j) x)
    let add (j : Nat) (x y : XVal) : XVal := XVal.add (r.at j).mode x y
    let out (x : XVal) : Word := round32 rne x
    let sh (j : Nat) (n : BitVec 7) : Bool := c.shaped j n.toNat
    let sgn (n : BitVec 1) (x : XVal) : XVal := if n = 1 then x.negate else x
    let dot (j len : Nat) (x y : Nat → XVal) : XVal :=
      ((List.range len).drop 1).foldl (fun acc k => rn j (add j acc ((x k).mul (y k)))) (rn j ((x 0).mul (y 0)))
    gives (.qdiagAdd h a t) 6 (fun b j => sh j b.s1) (fun b j => matWrites b.d.toNat j (R j b.s1) (C j b.s1) (fun x y =>
      if x = y then out (rn j (add j ((val32 (c.Q j b.s1.toNat (7 * x))).flush (r.at j).sub) (w j (b.s2.toNat + x))))
      else if !(r.at j).sub && (val32 (c.Q j b.s1.toNat (6 * x + y))).tiny then c.Q j b.s1.toNat (6 * x + y) &&& 0x80000000
      else c.Q j b.s1.toNat (6 * x + y))) ∧
    gives (.qadd h a t) 6 (fun b j => sh j b.s1 && c.shape j b.s1.toNat == c.shape j b.s2.toNat)
      (fun b j => matWrites b.d.toNat j (R j b.s1) (C j b.s1) (fun x y =>
        out (rn j (add j (sgn b.n1 (q j b.s1 x y)) (sgn b.n2 (q j b.s2 x y)))))) ∧
    gives (.qmul h a t) 24 (fun b j => sh j b.s1 && sh j b.s2 && C j b.s1 == R j b.s2)
      (fun b j => matWrites b.d.toNat j (R j b.s1) (C j b.s2) (fun x y =>
        out (dot j (C j b.s1) (q j b.s1 x) (fun k => q j b.s2 k y)))) ∧
    gives (.qmad h a t) 24
      (fun b j => sh j b.s1 && sh j b.s2 && C j b.s1 == R j b.s2 && R j b.s3 == R j b.s1 && C j b.s3 == C j b.s2)
      (fun b j => matWrites b.d.toNat j (R j b.s1) (C j b.s2) (fun x y =>
        out ((List.range (C j b.s1)).foldl (fun acc k => rn j (add j acc ((q j b.s1 x k).mul (q j b.s2 k y)))) (q j b.s3 x y)))) ∧
    gives (.qmv h a t) 12 (fun b j => sh j b.s1) (fun b j => (List.range (R j b.s1)).map (fun x =>
      .v (b.d.toNat + x) j (out (dot j (C j b.s1) (q j b.s1 x) (fun k => w j (b.s2.toNat + k))))))

/-- R291 to R293, R295: `QCHOL` and `QLUP` complete as flag-class work, no earlier than 12 and no later than 64 + 4n³ cycles after issue, on
square operands; the status word says which pivot stopped a factorisation and where each row comes from, and a predicate says `BAD` too. The
factor itself is pinned by `FactorSteps`. -/
def Claims.Factorisations : Prop :=
  ∀ (s : State) (h : CHdr) (a : OpSet) (t : Tail) (v : CView),
    let c := s.cur
    let r := (s.rounding v).1
    let lanes := (c.groups v).flatMap (fun g => g.2.map (fun j => (g.1, j)))
    let n (b : OpSet) (j : Nat) : Nat := c.qrows j b.s1.toNat
    let square (b : OpSet) (j : Nat) : Bool := c.shaped j b.s1.toNat && c.qrows j b.s1.toNat == c.qcols j b.s1.toNat
    let factors (i : Instr) (lu : Bool) (f : Rnd → Nat → List XVal → Factor) : Prop :=
      s.ReadyC faceBad false i v →
      let one (b : OpSet) (j : Nat) : Factor := f (r.at j) (n b j) (c.factorIn (r.at j) j b.s1.toNat (!lu))
      ((∀ e ∈ lanes, square e.1 e.2 = true) → ∀ m, c.acted v = [(v.a, m)] → v.a.s2.toNat < 120 →
        let ts := threads (m &&& c.guard v.h)
        let most := (ts.map (n v.a)).foldl max 0
        AnswersC i s v (s.rounding v).2 { c.planC v none
          (ts.flatMap (fun j => matWrites v.a.d.toNat j (n v.a j) (n v.a j) (fun x y => round32 rne (mget (one v.a j).w x y))) ++
            [.p v.a.s3.toNat (maskOf ts) (maskOf (ts.filter (fun j => (one v.a j).stop.isSome)))] ++
            ts.map (fun j => .v v.a.s2.toNat j ((one v.a j).status lu))) with window := (12, some (64 + 4 * most ^ 3)) }) ∧
      ((∃ e ∈ lanes, square e.1 e.2 = false) →
        TrapsC i s s { code := 0x6B, fmask := maskOf ((lanes.filter (fun e => !square e.1 e.2)).map Prod.snd) })
    factors (.qchol h a t) false cholesky ∧ factors (.qlup h a t) true luFactor ∧
    (∀ f : Factor, ((f.status false).getLsbD 0 = f.stop.isSome) ∧
      (∀ p, f.stop = some p → p < 8 → ∀ lu, (f.perm.zipIdx.all (fun e => e.1 < 8 ∧ e.2 < 6)) → (f.status lu).extractLsb' 4 3 = BitVec.ofNat 3 p) ∧
      (∀ lu, f.perm.length = 6 → (∀ p ∈ f.perm, p < 8) → (∀ p, f.stop = some p → p < 8) →
        (f.status lu).getLsbD 0 = f.stop.isSome ∧ (f.status lu).getLsbD 1 = lu ∧
        ∀ i < 6, (f.status lu).extractLsb' (14 + 3 * i) 3 = BitVec.ofNat 3 (f.perm.getD i 0)))

/-- R292, R293: the steps of the two factorisations on the 36 elements of a matrix of order n, and the pivots that stop them. The threshold is
2^-20 of the largest diagonal element that is not NaN. `QCHOL` computes column j from the columns before it; `QLUP` brings the row with the
largest element of column j to row j, the lowest of equals and NaN above all, and eliminates below it. A stop leaves the matrix as it stands. -/
def Claims.FactorSteps : Prop :=
  ∀ (r : Rnd) (n j : Nat) (f : Factor) (thr : XVal), j < n → n ≤ 6 → f.w.length = 36 → f.perm.length = 6 →
    let q (x : XVal) : XVal := val32 (round32 r x)
    let sub (x a b : XVal) : XVal := q (XVal.add r.mode x (a.mul b).negate)
    let bad (x : XVal) : Prop := x = .nan ∨ thr.lt x = false
    let W (i k : Nat) : XVal := mget f.w i k
    (∃ m : XVal, threshold f.w n = m.shift (-20) ∧ (∀ i < n, (W i i).abs ≠ .nan → m.lt (W i i).abs = false) ∧
      (m = XVal.zero false ∨ ∃ i < n, (W i i).abs ≠ .nan ∧ m = (W i i).abs)) ∧
    cholesky r n f.w = (List.range n).foldl (cholColumn r n (threshold f.w n)) ⟨f.w, none, List.range 6⟩ ∧
    luFactor r n f.w = (List.range n).foldl (luColumn r n (threshold f.w n)) ⟨f.w, none, List.range 6⟩ ∧
    (f.stop.isSome → cholColumn r n thr f j = f ∧ luColumn r n thr f j = f) ∧
    (f.stop = none →
      (let p := (List.range j).foldl (fun x k => sub x (W j k) (W j k)) (W j j)
       (bad p → cholColumn r n thr f j = { f with stop := some j }) ∧
       (¬ bad p → let g := cholColumn r n thr f j
        g.stop = none ∧ g.perm = f.perm ∧ ∀ i < 6, ∀ k < 6, mget g.w i k =
          if k = j ∧ i = j then q p.sqrt
          else if k = j ∧ j < i ∧ i < n then q (((List.range j).foldl (fun x k => sub x (W i k) (W j k)) (W i j)).div (q p.sqrt))
          else W i k)) ∧
      (let g := luColumn r n thr f j
       ∃ p, j ≤ p ∧ p < n ∧
        (∀ i, j ≤ i → i < n → (W p j).abs = .nan ∨ ((W i j).abs ≠ .nan ∧ (W p j).abs.lt (W i j).abs = false)) ∧
        (∀ i, j ≤ i → i < p → (W i j).abs ≠ .nan ∧ ((W p j).abs = .nan ∨ (W i j).abs.lt (W p j).abs = true)) ∧
        (∀ i < 6, g.perm.getD i 0 = f.perm.getD (if i = j then p else if i = p then j else i) 0) ∧
        let E (i k : Nat) : XVal := if n ≤ k then W i k else W (if i = j then p else if i = p then j else i) k
        (bad (E j j).abs → g.stop = some j ∧ ∀ i < 6, ∀ k < 6, mget g.w i k = E i k) ∧
        (¬ bad (E j j).abs → let L (i : Nat) : XVal := q ((E i j).div (E j j))
          g.stop = none ∧ ∀ i < 6, ∀ k < 6, mget g.w i k =
            if j < i ∧ i < n ∧ k = j then L i else if j < i ∧ i < n ∧ j < k ∧ k < n then sub (E i k) (L i) (E j k) else E i k)))

/-- R294, R295: `QSOLV` solves forward, then backward, column by column, with the rows in the order that the status word gives; a thread whose
status says `BAD` keeps its destination. It commits no earlier than 12 and no later than 64 + 4n²c cycles after issue, on shapes that fit. -/
def Claims.Solutions : Prop :=
  ∀ (s : State) (h : CHdr) (a : OpSet) (t : Tail) (v : CView), s.ReadyC faceBad false (.qsolv h a t) v →
    let c := s.cur
    let r := (s.rounding v).1
    let lanes := (c.groups v).flatMap (fun g => g.2.map (fun j => (g.1, j)))
    let n (e : OpSet × Nat) : Nat := c.qrows e.2 e.1.s1.toNat
    let cols (e : OpSet × Nat) : Nat := c.qcols e.2 e.1.s2.toNat
    let ok (e : OpSet × Nat) : Bool := c.shaped e.2 e.1.s1.toNat && c.qcols e.2 e.1.s1.toNat == n e && c.shaped e.2 e.1.s2.toNat &&
      c.qrows e.2 e.1.s2.toNat == n e
    let st (e : OpSet × Nat) : Word := c.vsrc e.2 e.1.s3.toNat
    let lu (e : OpSet × Nat) : Bool := (st e).getLsbD 1
    let row (e : OpSet × Nat) (i : Nat) : Nat :=
      let p := ((st e).extractLsb' (14 + 3 * i) 3).toNat
      if lu e = true ∧ p < n e then p else i
    let F (e : OpSet × Nat) (i k : Nat) : XVal := (val32 (c.Q e.2 e.1.s1.toNat (6 * i + k))).flush (r.at e.2).sub
    let b (e : OpSet × Nat) (i j : Nat) : XVal := (val32 (c.Q e.2 e.1.s2.toNat (6 * row e i + j))).flush (r.at e.2).sub
    let q (e : OpSet × Nat) (x : XVal) : XVal := val32 (round32 (r.at e.2) x)
    let sub (e : OpSet × Nat) (x y z : XVal) : XVal := q e (XVal.add (r.at e.2).mode x (y.mul z).negate)
    let most (f : OpSet × Nat → Nat) : Nat := (lanes.map f).foldl max 0
    ((∃ e ∈ lanes, ok e = false) → TrapsC (.qsolv h a t) s s { code := 0x6B, fmask := maskOf ((lanes.filter (fun e => !ok e)).map Prod.snd) }) ∧
    ((∀ e ∈ lanes, ok e = true ∧ n e ≤ 6 ∧ cols e ≤ 6) → ∃ X Y : OpSet × Nat → Nat → Nat → XVal,
      (∀ e ∈ lanes, ∀ j < cols e, ∀ i < n e,
        (let u := (List.range i).foldl (fun u k => sub e u (F e i k) (Y e k j)) (b e i j)
         Y e i j = if lu e then u else q e (u.div (F e i i))) ∧
        X e i j = q e (((List.range' (i + 1) (n e - (i + 1))).foldl
          (fun u k => sub e u (if lu e then F e i k else F e k i) (X e k j)) (Y e i j)).div (F e i i))) ∧
      AnswersC (.qsolv h a t) s v (s.rounding v).2 { c.planC v none (lanes.flatMap (fun e =>
        if (st e).getLsbD 0 then [] else matWrites e.1.d.toNat e.2 (n e) (cols e) (fun i j => round32 rne (X e i j))))
        with window := (12, some (64 + 4 * most n ^ 2 * most cols)) })

/-! Commits and completions. -/

/-- R35, R34: a fixed-latency item commits at its latency and not before; so does the promise of a copy, through its own event. What a
completion does: its writes take effect together, its flag falls by one, it is gone, and work issued before it in its stream loses its
writes to the same registers, so that the later-issued write stands. -/
def Claims.Commits : Prop :=
  ∀ (s f : State) (who : DWord) (id : Nat) (k : Work), s.focus who = some f → f.cur.workOf id = some k →
    (∀ d, k.due = some d → k.act ≠ .promise →
      (d ≤ f.cycle → exec (.fixedLatencyCommit who id) s = .next ((f.modC (fun c => c.finish k)).actNow k.act)) ∧
      (f.cycle < d → exec (.fixedLatencyCommit who id) s = .next s)) ∧
    ((∀ i x, k.act ≠ .swr i x) → (f.modC (fun c => c.finish k)).actNow k.act = f.modC (fun c => c.finish k)) ∧
    (∀ d, k.due = some d → k.act = .promise →
      (d ≤ f.cycle → exec (.promiseWrite who id) s = .next (f.modC (fun c => c.finish k))) ∧
      (f.cycle < d → exec (.promiseWrite who id) s = .next s)) ∧
    (k.due = none → exec (.fixedLatencyCommit who id) s = .next s) ∧
    (let c := f.cur
     let d := c.finish k
     let e := k.writes.foldl Course.write c
     d.s = e.s ∧ d.w = e.w ∧ d.v = e.v ∧ d.p = e.p ∧ d.qe = e.qe ∧ d.b = e.b ∧ d.recs = e.recs ∧ d.queues = e.queues ∧
     d.workOf id = none ∧
     (∀ g, k.sig = some g → d.flag g = c.flag g - 1) ∧ (∀ g, k.sig ≠ some g → d.flag g = c.flag g) ∧
     (∀ o ∈ d.work, o.id < id → o.stream = k.stream → ∀ n x y, .s n x ∈ k.writes → .s n y ∉ o.writes) ∧
     (∀ o ∈ d.work, id < o.id → o ∈ c.work))

/-- R34, R173, R310: flag-class work completes no earlier than its class allows; a store's completion lowers its launch's outstanding
counter, and `FENCEI` completes after the stores before it and discards the fetched words. -/
def Claims.FlagWork : Prop :=
  ∀ (s f : State) (who : DWord) (id : Nat) (k : Work), s.focus who = some f → f.cur.workOf id = some k →
    (f.cycle < k.early → exec (.flagWorkComplete who id) s = .next s) ∧
    (k.due = none → k.early ≤ f.cycle →
      (k.act = .none ∨ (∃ sp, k.act = .store none sp) → exec (.flagWorkComplete who id) s = .next (f.modC (fun c => c.finish k))) ∧
      (∀ w sp, k.act = .store (some w) sp → ∃ t, exec (.flagWorkComplete who id) s = .next t ∧ t.cur = f.cur.finish k ∧ t.mem = s.mem ∧
        ∀ l, f.launches[f.cur.launch]? = some l →
          ∃ l', t.launches[f.cur.launch]? = some l' ∧ Sparse.get l'.outst w 0 = Sparse.get l.outst w 0 - 1) ∧
      (k.act = .fencei → (∃ j ∈ f.cur.storesOut, j < id) → exec (.flagWorkComplete who id) s = .next s) ∧
      (k.act = .fencei → (∀ j ∈ f.cur.storesOut, id ≤ j) → ∃ t, exec (.flagWorkComplete who id) s = .next t ∧
        t.cur.icacheA = [] ∧ t.cur.icacheC = [] ∧ t.cur.workOf id = none ∧ t.mem = s.mem))

/-! Chutes, copies, shadow buffers. -/

/-- R265, R264: the chute instructions check their side and count, and wait as flag-class work, `CHPUT` for its course's incomplete stores
to the chute's entries; `CHDEF` reads and checks its descriptor. -/
def Claims.ChuteIssue : Prop :=
  ∀ (s : State) (k : Ctl) (ch : BitVec 4) (rd rs : BitVec 6), s.cur.sys = none → s.Ready true k {} →
    s.redefining s.cur.wall s.cur.plane ch.toNat = false →
    let q := (s.plane s.cur.wall s.cur.plane).chute ch.toNat
    let n := (s.cur.S rs.toNat).toNat
    let waits (i : Instr) (side op : Nat) (after : List Nat) : Prop :=
      (side = 1 → n ≤ q.cap → Answers i s true k {} s { lat := none, act := .chute s.cur.plane ch.toNat op n rd.toNat after }) ∧
      (side ≠ 1 ∨ q.cap < n → Traps i s true s { code := 0x65 })
    waits (.chput k ch rd rs) q.pside 0 (s.cur.storesTo q) ∧
    (∀ id, id ∈ s.cur.storesTo q ↔ ∃ j ∈ s.cur.work, j.id = id ∧ ∃ w sp, j.act = .store w sp ∧
      ∃ e ∈ sp, e.1 < q.base + q.cap * q.size ∧ q.base < e.1 + e.2) ∧ waits (.chget k ch rd rs) q.cside 1 [] ∧
    waits (.chwaitGet k ch rd rs) q.cside 2 [] ∧ waits (.chwaitPut k ch rd rs) q.pside 3 [] ∧
    (∀ off s1 ps ab d, spOffset (s.cur.S rs.toNat) 32 = some off → s.readSp off 32 = .ok s1 ps ab → parseChute (s1.bytesAt ps) = some d →
      Answers (.chdef k ch rs) s true k {} s1 { lat := none, act := .chdef s.cur.plane ch.toNat (s1.bytesAt ps) }) ∧
    (∀ off s1 ps ab, spOffset (s.cur.S rs.toNat) 32 = some off → s.readSp off 32 = .ok s1 ps ab → parseChute (s1.bytesAt ps) = none →
      Traps (.chdef k ch rs) s true s { code := 0x65 }) ∧
    (spOffset (s.cur.S rs.toNat) 32 = none → Traps (.chdef k ch rs) s true s { code := 0x65 })

/-- R115, R117, R265: a chute operation completes once its condition holds and not before, returns the index it worked from, and moves the
index of its own side alone; a count of 0 has no condition but its turn; `CHDEF_REPLACE` replaces the definition once no operation names the
chute. That `CHWAIT.put` answers its sum modulo twice the capacity is log entry 47, DEDUCED, and the sizes that a definition refuses beside R264 log entry 73, DEDUCED
(DEDUCED). -/
def Claims.ChuteCompletion : Prop :=
  ∀ (s f : State) (who : DWord) (id : Nat) (k : Work), s.focus who = some f → f.cur.workOf id = some k → k.due = none → k.early ≤ f.cycle →
    (∀ plane ch op n rd after, k.act = .chute plane ch op n rd after → op < 4 →
      let q := (f.plane f.cur.wall plane).chute ch
      (n = 0 → (∀ j ∈ f.waitingOps f.cur.wall plane ch (opProduces op), id ≤ j) → f.chuteReady f.cur id plane ch op n after = true) ∧
      (f.chuteReady f.cur id plane ch op n after = false → exec (.flagWorkComplete who id) s = .next s) ∧
      (f.chuteReady f.cur id plane ch op n after = true → ∃ t, exec (.flagWorkComplete who id) s = .next t ∧ t.mem = s.mem ∧
        t.cur.workOf id = none ∧ t.cur.live = f.cur.live ∧
        (let q' := (t.plane f.cur.wall plane).chute ch
         let index := if op = 0 then q.prod else if op = 3 then (q.prod + q.resv) % (2 * q.cap) else q.cons
         (rd ≠ 0 → t.cur.S rd = BitVec.ofNat 32 index) ∧ (∀ m, m ≠ rd → t.cur.S m = f.cur.S m) ∧
         q'.prod = (if op = 0 then (q.prod + n) % (2 * q.cap) else q.prod) ∧ q'.cons = (if op = 1 then (q.cons + n) % (2 * q.cap) else q.cons) ∧
         q'.base = q.base ∧ q'.cap = q.cap ∧ q'.size = q.size))) ∧
    (∀ plane ch desc, k.act = .chdef plane ch desc →
      (f.chuteNamed f.cur.wall plane ch = true → exec (.chdefReplace who id) s = .next s) ∧
      (∀ d, f.chuteNamed f.cur.wall plane ch = false → parseChute desc = some d → ∃ t, exec (.chdefReplace who id) s = .next t ∧
        (t.plane f.cur.wall plane).chute ch = d ∧ d.prod = 0 ∧ d.cons = 0 ∧ t.cur.workOf id = none ∧ t.mem = s.mem ∧
        ∀ j, j ≠ ch → (t.plane f.cur.wall plane).chute j = (f.plane f.cur.wall plane).chute j))

/-- R106, R257, R111, R173: a copy instruction waits while no channel is free and traps on a malformed block; otherwise it takes a channel,
writes its promise to its pair 4 cycles later, a tick after the present one or later, and counts as one outstanding access, or as two with a
remote signal. The promise's value is a free value (log entry 3, DESIGN CHOICE). -/
def Claims.CopyIssue : Prop :=
  ∀ (s s1 : State) (k : Ctl) (rd ra : BitVec 6) (off : Nat) (ps : List Place) (ab : List Nat), s.cur.sys = none → s.Ready true k {} →
    spOffset (s.cur.S ra.toNat) 32 = some off →
    let copies (i : Instr) (kind : CopyKind) : Prop :=
      (s.freeChans s.cur.wall = [] → exec i s = .next s) ∧
      (s.freeChans s.cur.wall ≠ [] → s.readSp off 32 = .ok s1 ps ab →
        (parseBlock kind (s1.bytesAt ps) = none → Traps i s true s { code := 0x40 }) ∧
        (∀ j ch, parseBlock kind (s1.bytesAt ps) = some j →
          (j.dcv && s.redefining s.cur.wall s.cur.plane j.dch || j.scv && s.redefining s.cur.wall s.cur.plane j.sch) = false →
          (s1.chooseChan j = none → Traps i s true s { code := 0x40 }) ∧ (s1.chooseChan j = some none → exec i s = .next s) ∧
          (s1.chooseChan j = some (some ch) →
          let w := s1.cur.wall
          ∃ t p, Answers i s true k {} t { lat := none, act := .copy w ch, side := pairWrites rd.toNat p, sideLat := 4, sideAct := .promise } ∧
            (s1.now.toNat + 1 < 2 ^ 64 → s1.now.toNat < p.toNat) ∧ t.mem = s1.mem ∧ t.cur.s = s1.cur.s ∧
            (∃ j', (t.chan w ch).job = some j' ∧ j'.src = j.src ∧ j'.dst = j.dst ∧ j'.len = j.len ∧ j'.ident = s1.cur.ident ∧
              j'.sig = sigFlag k ∧ j'.started = j.started) ∧
            (∀ l, s1.launches[s1.cur.launch]? = some l → ∃ l', t.launches[s1.cur.launch]? = some l' ∧
              Sparse.get l'.outst w 0 = Sparse.get l.outst w 0 + if j.sigv then 2 else 1))))
    copies (.cpy k rd ra) .cpy ∧ copies (.cpyr k rd ra) .cpy ∧ copies (.cpyg k rd ra) .cpyg ∧ copies (.cpyp k rd ra) .cpyp

/-- R109, R110, R114, R259, R373, R376: the steps of a copy. It starts when its source can be read, with the bytes as they stand then; a source
chute's entries are freed one by one; the remote signal follows the data, and waits for a home directory that is full of keys (R388); the copy
ends with success once all is written, or at a failure it meets, with the failure's code in its completion record. A fabric request fails no
earlier than its time-out. -/
def Claims.CopySteps : Prop :=
  ∀ (s : State) (w ch : Nat) (j : CopyJob), (s.chan w ch).job = some j →
    let q := (s.plane w j.plane).chute j.sch
    let recorded (t : State) (status : Code) (bytes : Nat) : Prop := ∀ g, j.sig = some g → s.cur.ident = j.ident → ch < 8 →
      s.cur.Recorded t.cur g status ch bytes (if j.kind = .cpyg then j.bmap else 0)
    (j.started = true → exec (.copyStart w ch) s = .next s) ∧
    (j.scv = true → q.published < j.len / q.size → exec (.copyStart w ch) s = .next s) ∧
    (∀ x s2, j.started = false → (j.scv = true → j.len / q.size ≤ q.published) →
      (s.primed w ch j).readSource w ch j = (none, x, s2) →
      (s.anyStall w x.places = true → exec (.copyStart w ch) s = .next s) ∧
      (s.anyStall w x.places = false → ∃ y, exec (.copyStart w ch) s = .next y ∧ y.mem = s2.mem ∧
        (y.chan w ch).job = some { j with started := true, data := x.data, nonres := x.nonres, sIdx := q.cons, since := s.count (dieOf w) })) ∧
    (j.started = true → j.scv = true → j.eaten < j.len / q.size → ∃ t, exec (.copyEntryConsumed w ch) s = .next t ∧
      ((t.plane w j.plane).chute j.sch).cons = (q.cons + 1) % (2 * q.cap) ∧ (t.chan w ch).job = some { j with eaten := j.eaten + 1 } ∧
      t.mem = s.mem) ∧
    ((j.sigv = false ∨ j.signalled = true ∨ j.started = false) → exec (.remoteSignal w ch) s = .next s) ∧
    (∀ ps p rest s1 s2, j.sigv = true → j.signalled = false → j.started = true → s.writePlaces w ch j = (none, ps, s1) →
      s.anyStall w ps = false → (s1.deliver w j ps []).sigPlaces w ch j sigHow = (none, p :: rest, s2) → s2.anyStall w [p] = false →
      (s2.signalFull p = true → exec (.remoteSignal w ch) s = .next s) ∧
      (s2.signalFull p = false → ∃ y, exec (.remoteSignal w ch) s = .next y ∧ y.mem = (s2.signalAt w ch j p).mem ∧
        (y.chan w ch).job = some { j with written := true, signalled := true })) ∧
    ((j.started = false ∨ (j.sigv = true ∧ j.signalled = false)) → exec (.copyComplete w ch) s = .next s) ∧
    (j.started = true → j.scv = false → j.sigv = true → j.signalled = true → j.written = true →
      exec (.copyComplete w ch) s = .next (s.endCopy w ch j 0 j.len) ∧ recorded (s.endCopy w ch j 0 j.len) 0 j.len) ∧
    (∀ ps bs s1 s2, j.started = true → j.scv = false → j.sigv = false → j.dcv = false → j.written = false →
      s.writePlaces w ch j = (none, ps, s1) → s1.bitmapPlaces w ch j = (none, bs, s2) → s.anyStall w (ps ++ bs) = false →
      exec (.copyComplete w ch) s = .next ((s2.deliver w j ps bs).endCopy w ch j 0 j.len) ∧
        recorded ((s2.deliver w j ps bs).endCopy w ch j 0 j.len) 0 j.len) ∧
    (∀ code written, (s.copyFault w ch j).map (fun f => f.code) ≠ some code → code ≠ 0x10 ∨ s.copyTimedOut w ch j = false →
      exec (.copyFailure w ch code written) s = .next s) ∧
    (∀ f code written, s.copyFault w ch j = some f → f.code = code →
      let x := (s.copyTrial w ch j).1
      ∃ t, exec (.copyFailure w ch code written) s = .next t ∧ (t.chan w ch).job = none ∧
        recorded t code (keptBytes (cutBytes x.dst j.data) (fun i => x.signal || written.testBit i)).length) ∧
    (∀ written, (s.copyFault w ch j).map (fun f => f.code) ≠ some 0x10 → s.copyTimedOut w ch j = true →
      ∃ t n, exec (.copyFailure w ch 0x10 written) s = .next t ∧ (t.chan w ch).job = none ∧ recorded t 0x10 n)

/-- R114, R227, R228: a completion record: status, channel and failure code in its first word, the bytes, the bitmap's place; a success
leaves a failure standing. It comes after the `SWR`s of its slot that have not committed yet (log entry 82, DEDUCED). The copy's end frees its
channel and lowers its flag. -/
def Claims.CompletionRecords : Prop :=
  ∀ (c : Course) (f : Nat) (status code : Code) (chan bytes bmap : Nat) (s : State) (w ch : Nat) (j : CopyJob),
    f < 12 → chan < 8 → bytes < 2 ^ 32 → bmap < 2 ^ 32 →
    let d := c.record f status code chan bytes bmap
    let e := c.settleRecord f
    let word (c : Course) (n : Nat) : Word := Sparse.get c.recs (4 * f + n) 0
    ((∀ k ∈ c.work, ∀ n x, .record n x ∈ k.writes → n / 4 ≠ f) → e.recs = c.recs) ∧
    (∀ k ∈ d.work, ∀ n x, .record n x ∈ k.writes → n / 4 ≠ f) ∧
    (status = 0 → (word e 0).extractLsb' 0 8 ≠ 0 → d.recs = e.recs) ∧
    (status ≠ 0 ∨ (word e 0).extractLsb' 0 8 = 0 →
      (word d 0).extractLsb' 0 8 = status ∧ (word d 0).extractLsb' 8 8 = BitVec.ofNat 8 chan ∧ (word d 0).extractLsb' 16 8 = code ∧
      word d 1 = BitVec.ofNat 32 bytes ∧ word d 2 = BitVec.ofNat 32 bmap ∧ word d 3 = 0 ∧
      ∀ n, n / 4 ≠ f → Sparse.get d.recs n 0 = Sparse.get e.recs n 0) ∧
    (c.hold = .wfe → d.hold = .none) ∧ (c.hold ≠ .wfe → d.event = true ∧ d.hold = c.hold) ∧
    (let t := s.endCopy w ch j status bytes
     (t.chan w ch).job = none ∧ t.mem = s.mem ∧
     ∀ g k, j.sig = some g → s.cur.ident = j.ident → s.cur.workOf j.workId = some k → k.sig = some g →
       t.cur.flag g = s.cur.flag g - 1 ∧ t.cur.workOf j.workId = none)

/-- R262, R263, R138: `SHADOW` declares a buffer with the copy at its name visible and returns its handle; ranges that are misaligned,
overlap, or meet another buffer trap. The dismissal frees it. `PUBLISH` is a release and exchanges the copies, at its issue or, while rows of
matrix operations issued before it or an earlier `PUBLISH` are still to come, when they have. The lowest free entry is log entry 121, DESIGN CHOICE, the trap where
a range meets another buffer's second copy log entry 65, DEDUCED, and what a `PUBLISH` waits for log entry 83, DEDUCED (the model's choices). -/
def Claims.ShadowBuffers : Prop :=
  ∀ (s : State) (k : Ctl) (rd ra rb : BitVec 6) (bp : BitVec 5) (sp : BitVec 1) (scope : BitVec 4), s.cur.sys = none → s.Ready true k {} →
    let c := s.cur
    let sc := sp == 1
    let name := if sc then (c.S (2 * bp.toNat)).toNat else (c.S64 (2 * bp.toNat)).toNat
    let second := if sc then (c.S rb.toNat).toNat else (c.S64 rb.toNat).toNat
    let len := (c.S ra.toNat).toNat
    let bufs (t : State) (sc : Bool) : Sparse Shadow := if sc then (t.plane c.wall c.plane).shadows else t.shadows
    let bad := shadowBad sc name second len || meetsBuffer (bufs s sc) c.asid name len || meetsBuffer (bufs s sc) c.asid second len
    let slot := freeEntry (bufs s sc) (if sc then 0 else 16 * (c.wall / 12))
    (bad = true ∨ slot = none → Traps (.shadow k rd bp rb ra sp) s true s { code := 0x65 }) ∧
    (∀ e, bad = false → slot = some e → ∃ t,
      Answers (.shadow k rd bp rb ra sp) s true k {} t
        { lat := none, writes := [.s rd.toNat (BitVec.ofNat 32 (if sc then 0x100 + e else e))] } ∧ t.mem = s.mem ∧
        ∀ i, Sparse.get ((bufs t sc).map (fun x => (x.1, some x.2))) i none =
          if i = e then some ⟨c.asid, name, second, len, false, []⟩ else Sparse.get ((bufs s sc).map (fun x => (x.1, some x.2))) i none) ∧
    (s.handle (c.S ra.toNat).toNat = none →
      Traps (.shadowDismiss k ra) s true s { code := 0x65 } ∧ Traps (.publish k ra scope) s true s { code := 0x65 }) ∧
    (∀ g e b, s.handle (c.S ra.toNat).toNat = some (g, e, b) →
      (∃ t, Answers (.shadowDismiss k ra) s true k {} t { lat := none } ∧ (∀ x ∈ bufs t g, x.1 ≠ e) ∧ t.mem = s.mem) ∧
      (scope.toNat < 3 ∨ 8 < scope.toNat ∨ (g = true ∧ scope ≠ 3) → Traps (.publish k ra scope) s true s { code := 0x65 }) ∧
      (3 ≤ scope.toNat → scope.toNat ≤ 8 → (g = true → scope = 3) →
        let q := s.releaseC scope.toNat
        let waits := q.2.publishWaits g e s.nextId b q.1
        (waits = true → Answers (.publish k ra scope) s true k {} q.2 { lat := none, act := .publish g e b.name q.1 } ∧ q.2.mem = s.mem ∧
          q.2.cur.sync.rc = c.sync.rc + 1) ∧
        (waits = false → ∃ t, Answers (.publish k ra scope) s true k {} t { lat := none } ∧ t.mem = s.mem ∧ t.cur.sync.rc = c.sync.rc + 1 ∧
          (e, { b with swap := !b.swap, pub := b.published q.1 }) ∈ bufs t g) ∧ q.1.who = c.ident ∧
        ((g = true → s.myPlane.engine = []) → (∀ a ∈ s.agents, ∀ x ∈ a.work, ∀ g' e' n p, x.act ≠ .publish g' e' n p) → waits = false) ∧
        (∀ o m i, g = true → o ∈ s.myPlane.engine → o.fired = true → m ∈ o.members → m.ident = c.ident → m.rc.toNat ≤ q.1.rc.toNat → i < m.out →
          (s.myPlane.chute m.c).entry (m.cIdx + i) < b.name + b.len → b.name < (s.myPlane.chute m.c).entry (m.cIdx + i) + 512 → waits = true))) ∧
    (∀ f who id x g e name p b, s.focus who = some f → f.cur.workOf id = some x → x.act = .publish g e name p → x.due = none → x.early ≤ f.cycle →
      f.handle (if g then 0x100 + e else e) = some (g, e, b) →
      (b.name ≠ name → exec (.flagWorkComplete who id) s = .next (f.modC (fun c => c.finish x))) ∧
      (b.name = name → f.publishWaits g e x.id b p = true → exec (.flagWorkComplete who id) s = .next f) ∧
      (b.name = name → f.publishWaits g e x.id b p = false → ∃ t, exec (.flagWorkComplete who id) s = .next t ∧ t.cur.workOf id = none ∧ t.mem = s.mem ∧
        (e, { b with swap := !b.swap, pub := b.published p }) ∈
          (if g then (t.plane f.cur.wall f.cur.plane).shadows else t.shadows)))

/-! Exceptions, system calls, returns. -/

/-- R302: `Enter`: what taking an exception on a system core saves in the trap set of the level it enters, and where it goes. -/
def Claims.ExceptionEntry : Prop :=
  ∀ (c : Course) (y : SysRegs) (l : BitVec 2) (cls : Nat) (code : Code) (imm : Nat) (ret : DWord) (info : Option Word),
    c.sys = some y → (l = 1 ∨ l = 2) → cls < 8 → imm < 2 ^ 16 →
    ∃ z, (c.enter l cls code imm ret info).sys = some z ∧ (z.trapSet l).epc = ret ∧
      (z.trapSet l).ecause.toNat = imm * 2 ^ 16 + code.toNat * 2 ^ 8 + cls ∧
      (z.trapSet l).esave.extractLsb' 0 2 = y.lvl ∧ (z.trapSet l).esave.getLsbD 2 = y.ie ∧ z.lvl = l ∧ z.ie = false ∧
      (c.enter l cls code imm ret info).pcA = (y.trapSet l).vbase + BitVec.ofNat 64 (0x40 * cls) ∧
      (z.trapSet l).vbase = (y.trapSet l).vbase ∧ (z.trapSet l).einfo = info.getD (y.trapSet l).einfo ∧
      z.trapSet (3 - l) = y.trapSet (3 - l) ∧ z.asidr = y.asidr ∧ z.core = y.core ∧ z.evpend = y.evpend ∧ z.even = y.even ∧
      (c.enter l cls code imm ret info).s = c.s ∧ (c.enter l cls code imm ret info).flags = c.flags

/-- R302, R303: `TRAP`, `SVC`, `HVC`, `BKPT`, `ERET` and the entry of an enabled event. On a core the entry takes place, with the next
instruction's address saved (its own for `BKPT`); in a course the three are course traps. A level that may not use one, and a return that
would not lower the level, are illegal instructions (0x64). `TRAP`, `SVC` and `BKPT` enter level 1 from
level 2 too (R298; log entry 15, DEDUCED). -/
def Claims.SystemCalls : Prop :=
  ∀ (s : State) (k : Ctl) (imm : BitVec 16),
    let c := s.cur
    let n := imm.toNat
    let enters (i : Instr) (d : Course) : Prop := ∃ t, exec i s = .next t ∧ t.cur.sys = d.sys ∧ t.cur.pcA = d.pcA ∧ t.cur.s = c.s ∧ t.mem = s.mem
    let next := c.nextPc .addr
    let illegal (i : Instr) : Prop := exec i s = .next (s.trapAt (c.streamOf true) { code := 0x64 })
    (∀ y, c.sys = some y → c.unified = false → s.Ready true k {} →
      enters (.trap k imm) (c.enter 1 1 0 n next none) ∧ enters (.svc k imm) (c.enter 1 2 0 n next none) ∧
      (s.sessionOf c.space = none → enters (.bkpt k imm) (c.enter 1 5 0 n c.pcA none)) ∧
      (1 ≤ y.lvl.toNat → enters (.hvc k imm) (c.enter 2 3 0 n next none)) ∧ (y.lvl = 0 → illegal (.hvc k imm)) ∧
      (let t := y.trapSet y.lvl
       (1 ≤ y.lvl.toNat → (t.esave.extractLsb' 0 2).toNat < y.lvl.toNat → t.epc.toNat % 8 = 0 →
         enters (.eret k) { c with sys := some { y with lvl := t.esave.extractLsb' 0 2, ie := t.esave.getLsbD 2 }, pcA := t.epc }) ∧
       (y.lvl = 0 ∨ y.lvl.toNat ≤ (t.esave.extractLsb' 0 2).toNat → illegal (.eret k)))) ∧
    (c.sys = none → s.Ready true k {} → s.sessionOf c.asid = none →
      Traps (.trap k imm) s true s { code := 0x6F, detail := imm.setWidth 64, after := true } ∧
      Traps (.svc k imm) s true s { code := 0x70, detail := imm.setWidth 64, after := true } ∧
      Traps (.bkpt k imm) s true s { code := 0x6E, detail := imm.setWidth 64 } ∧ illegal (.hvc k imm) ∧ illegal (.eret k)) ∧
    (∀ x, s.sessionOf c.space = some x → s.Ready true k {} →
      (s.isStepped c.ident (c.streamOf true) = true → exec (.bkpt k imm) s = .next s) ∧
      (s.isStepped c.ident (c.streamOf true) = false → ∃ t, exec (.bkpt k imm) s = .next t ∧ t.cur.halted = true ∧
        t.cur.pcA = c.pcA ∧ t.cur.s = c.s ∧ t.mem = s.mem)) ∧
    (∀ f y core, s.focusCore core = some f → f.cur.sys = some y →
      (y.ie = true → y.lvl.toNat ≤ 1 → y.evpend &&& y.even ≠ 0 → f.cur.hold = .none → f.cur.halted = false →
        exec (.eventEntry core) s = .next { f with cur := f.cur.enter 1 7 0 0 f.cur.pcA none }) ∧
      (y.ie = false ∨ 1 < y.lvl.toNat ∨ y.evpend &&& y.even = 0 → exec (.eventEntry core) s = .next s))

/-- R353, R356, R358: what a trap leaves. In a course, it is recorded with its code, its word's address, the masks and the tick; nothing of the
course changes but where its stream stands, and neither stream is ready any more. On a core it enters at class 6, at level 2 for 0x05 and
for any fault raised at level 2, with the detail in `EINFO`. -/
def Claims.TrapsAreRecorded : Prop :=
  ∀ (s : State) (st : Stream) (t : Trp),
    let c := s.cur
    let d := (s.trapAt st t).cur
    (∀ y, c.sys = some y → d = c.enter (if y.lvl = 2 ∨ t.code = 0x05 then 2 else 1) 6 t.code 0 c.pcA (some (lo32 t.detail)) ∧
      (s.trapAt st t).mem = s.mem) ∧
    (c.sys = none →
      (∃ i, d.trap = some i ∧ i.code = t.code ∧ i.stream = st ∧ i.detail = t.detail ∧ i.fmask = t.fmask ∧ i.active = c.mask ∧
        i.word = s.word ∧ i.tick = s.now ∧ i.slot = none ∧ (t.after = false → i.pc = c.pc st) ∧ (t.after = true → i.pc = c.nextPc st)) ∧
      d.s = c.s ∧ d.w = c.w ∧ d.v = c.v ∧ d.p = c.p ∧ d.qe = c.qe ∧ d.flags = c.flags ∧ d.queues = c.queues ∧ d.work = c.work ∧ d.b = c.b ∧
      (s.trapAt st t).mem = s.mem ∧ (t.after = false → d.pcA = c.pcA ∧ d.pcC = c.pcC) ∧
      ∀ st' n ds, ({ s.trapAt st t with dies := ds } : State).frontReady st' n = false)

/-- R355, R357: the trap record and its settlement. A record is written once its ring has room, as a release of its course at system scope, and
the ring's head advances; retry lets the course go on where it stands, skip one word further except after `TRAP` and `SVC`, terminate ends both
streams and marks the launch. The record of a streamed-out course no longer says that it is trapped (log entry 108, DEDUCED). A course that stands at the latch of
a gang that has broken takes 0x6D when it goes on (log entry 84, DEDUCED); terminate is stated of a course in no gang. -/
def Claims.TrapSettlement : Prop :=
  ∀ (s f : State) (who : DWord) (t : TrapInfo) (desc idx : Nat),
    (s.focus who = some f → f.cur.trap = some t → t.slot = none →
      let p := f.trapRing f.cur t.code
      let d := f.dreg64 0x880 + 32 * p
      let head := f.loadNat (d + 12) 4
      let free := (head + 2 ^ 32 - f.loadNat (d + 16) 4) % 2 ^ 32 ≠ f.loadNat (d + 8) 4
      (¬ free → exec (.trapRecordWrite who) s = .next s) ∧
      (free → ∃ t', exec (.trapRecordWrite who) s = .next t' ∧ t'.cur.trap = some { t with slot := some (p, head % f.loadNat (d + 8) 4) } ∧
        t'.loadNat (d + 12) 4 = (head + 1) % 2 ^ 32 ∧ t'.cur.s = f.cur.s ∧
        (f.cur.ident = who → t'.cur.sync.rc = f.cur.sync.rc + 1 ∧ t'.cur.sync.table = f.cur.sync.table) ∧
        (f.loadNat d 8 + 128 * (head % f.loadNat (d + 8) 4) + 128 ≤ d ∨ d + 16 ≤ f.loadNat d 8 + 128 * (head % f.loadNat (d + 8) 4) →
          t'.load (f.loadNat d 8 + 128 * (head % f.loadNat (d + 8) 4)) 128 = trapBytes f.cur t))) ∧
    (s.focusTrap desc idx = none → exec (.trackRetry desc idx) s = .next s ∧ exec (.trackSkip desc idx) s = .next s ∧
      exec (.trackTerminate desc idx) s = .next s) ∧
    (s.focusTrap desc idx = some f → f.cur.trap = some t → pairTrap t.code = false → f.traceOf f.cur.ident = none →
      f.latchBroken f.cur = true → f.cur.halted = false →
      ∃ a i, exec (.trackRetry desc idx) s = .next a ∧ a.cur.trap = some i ∧ i.code = 0x6D) ∧
    (s.focusTrap desc idx = some f → f.cur.trap = some t → pairTrap t.code = false → f.traceOf f.cur.ident = none →
      f.latchBroken f.cur = false →
      (∃ a, exec (.trackRetry desc idx) s = .next a ∧ a.cur.trap = none ∧ a.cur.pcA = f.cur.pcA ∧ a.cur.pcC = f.cur.pcC ∧
        a.cur.s = f.cur.s ∧ a.cur.flags = f.cur.flags ∧ (f.cur.savedAt = none → a.mem = s.mem) ∧
        (∀ r, f.cur.savedAt = some r → a.loadNat (r + 32) 4 / 4 % 2 = 0)) ∧
      (∃ a, exec (.trackSkip desc idx) s = .next a ∧ a.cur.trap = none ∧
        a.cur.pc t.stream = (if t.code = 0x6F ∨ t.code = 0x70 then f.cur.pc t.stream else f.cur.nextPc t.stream)) ∧
      (f.cur.gang = 0 → ∃ a, exec (.trackTerminate desc idx) s = .next a ∧ a.cur.trap = none ∧ a.cur.endA = true ∧ a.cur.endC = true ∧
        (f.cur.savedAt = none → a.mem = s.mem) ∧
        ∀ l, f.launches[f.cur.launch]? = some l → ∃ l', a.launches[f.cur.launch]? = some l' ∧ l'.status = if l.status = 0 then t.code else l.status))

/-- R192: a permanently undefined word traps with 0x60 when it issues, whatever its flags and queues; so does a ring access outside unified
mode. -/
def Claims.UndefinedWords : Prop :=
  ∀ (s : State) (k : Ctl) (w : BitVec 36) (w' : BitVec 98) (h : CHdr) (a : OpSet) (t : Tail),
    (s.frontReady (s.cur.streamOf true) k.dist.toNat = true → Traps (.udf w k) s true s { code := 0x60 }) ∧
    (s.frontReady .comp k.dist.toNat = true → TrapsC (.undefinedCWord k w') s s { code := 0x60 }) ∧
    (s.frontReady .comp h.k.dist.toNat = true → s.cur.unified = false →
      TrapsC (.ldpi h a t) s s { code := 0x60 } ∧ TrapsC (.stpi h a t) s s { code := 0x60 })

/-- R197: a ring access of unified mode reads or writes the element at its base plus its offset, thread by thread and modulo the ring's
length; its offset register then holds the offset moved on by the stride, within the ring. A ring of length 0, one that is no whole number of
elements, or an offset outside it traps. -/
def Claims.RingAccesses : Prop :=
  ∀ (s s1 : State) (h : CHdr) (a : OpSet) (t : Tail) (v : CView) (ps : List Place) (ab : List Nat), s.cur.unified = true →
    let c := s.cur
    let w := match h.typ.toNat with | 9 => 2 | 10 => 1 | 13 => 1 | _ => 4
    let j := v.a.s2.toNat
    let off := (c.S j).toNat
    let len := (c.S (j + 1)).toNat
    let ts := (c.groups v).flatMap (fun g => g.2)
    let ls := ts.map (fun n => Lane.mk n (c.S64 v.a.s1.toNat + BitVec.ofNat 64 ((off + n * w) % len)).toNat w)
    let bad := len = 0 ∨ len % w ≠ 0 ∨ len ≤ off
    let next : List RegWrite := [.s j (BitVec.ofInt 32 ((off + (v.t.immed.getD 0).toInt) % len))]
    let value (x : Nat) : Word := match h.typ.toNat with
      | 9 => (BitVec.ofNat 16 x).signExtend 32
      | 10 => (BitVec.ofNat 8 x).signExtend 32
      | _ => BitVec.ofNat 32 x
    (s.ReadyC faceBad false (.ldpi h a t) v → bad → TrapsC (.ldpi h a t) s s { code := 0x65 }) ∧
    (s.ReadyC faceBad false (.stpi h a t) v → bad → TrapsC (.stpi h a t) s s { code := 0x65 }) ∧
    (s.ReadyC faceBad false (.ldpi h a t) v → ¬ bad → s.reach c.ctx none { acc := { rd := true } } ls = .ok s1 ps ab →
      ∃ act, AnswersC (.ldpi h a t) s v s1
        { c.planC v none (vectorWrites s1.nextId [(v.a.d.toNat, ps.map (fun p => (p.t, value (s1.valueAt p))))]) with act := act, side := next }) ∧
    (s.ReadyC faceBad false (.stpi h a t) v → ¬ bad → s.reach c.ctx none { acc := { wr := true } } ls = .ok s1 ps ab →
      ∃ act, AnswersC (.stpi h a t) s v
        ((s1.storeAll { acc := { wr := true } } (ps.map (fun p => (p, (c.vsrc p.t v.a.d.toNat).toNat % 2 ^ (8 * w))))).countOut act)
        { c.planC v none [] with act := act, side := next })

/-! Privileged instructions. -/

/-- R298: who may run what. In a course the privileged instructions are illegal; on a system core every instruction that works on a course's
queues, vector memory, tags, barriers, copies, buffers, chutes, engines and records is, and so is a privileged one below its level and a `BIND`
in scratchpad mode, whatever their operands. -/
def Claims.Privileges : Prop :=
  ∀ (s : State) (k : Ctl) (a b d : BitVec 6) (bp op : BitVec 5) (ch m : BitVec 4) (x y : BitVec 1) (z p : BitVec 2) (q bt n : BitVec 3)
      (kt : BitVec 8) (imm : BitVec 16) (off : BitVec 20) (disp : BitVec 21),
    s.frontReady (s.cur.streamOf true) k.dist.toNat = true →
    let illegal (i : Instr) : Prop := Traps i s true s { code := 0x64 }
    let least (n : Nat) (is : List Instr) : Prop := s.cur.sys = none ∨ s.cur.level < n → ∀ i ∈ is, illegal i
    least 1 [.hvc k imm, .eret k, .tlbinvRange k a bp b, .tlbinvAsid k a, .cinv k bp b, .cwb k bp b, .halt k, .granset k bp b z,
      .ctxreqBind k bp, .ctxreqUnbind k bp, .ctxreqSwitch k bp, .ctxreqStreamOut k bp, .ctxreqStreamIn k bp, .ctxreqReservedOp k bp] ∧
    least 2 [.tlbinvAll k, .waygtWays k a b, .waygtBanks k a b z, .moncVerifyImage k, .moncExtendMeasurement k, .moncAttestationReport k,
      .moncConfirmSlot k, .moncCommitSvn k, .moncUnknownService k imm] ∧
    (s.cur.sys.isSome = true →
      (∀ i ∈ [Instr.vld k z q bt a x p disp, .vst k z q bt a x p disp, .vldx k z q bt a x p disp, .vstx k z q bt a x p disp,
        .vamo k a n m op b bt q, .vcas k a n m op b bt q, .qpush k a b, .qpop k a b, .taglk k a b, .tagset k a b, .taginv k a, .tagrd k a b,
        .bar k a b ch m, .cpy k a b, .cpyr k a b, .cpyg k a b, .cpyp k a b, .shadow k a bp b d x, .shadowDismiss k a, .publish k a m], illegal i) ∧
      (∀ i ∈ [Instr.chdef k ch a, .chput k ch a b, .chget k ch a b, .chwaitGet k ch a b, .chwaitPut k ch a b, .gang k a,
        .mma k ch m a kt q n x, .mmag k ch m a kt q n x, .wbld k a q b bp d x, .ralloc k a b d, .remit k a x y, .rtake k z bp q, .rdone k x,
        .snap k, .snapc k a x, .pgreq k a b, .bind k a bp 1 bt off], illegal i))

/-- R306, R158, R159: `TLBINV` is flag-class work that its completion performs; it names a whole ASID, a range of 16 KiB pages in one, or, at
level 2, everything. When it completes, no entry it hits is left; a translation register that it hits is marked stale, and so is what a `BIND`
in flight will leave in one. -/
def Claims.TlbInvalidation : Prop :=
  ∀ (s : State) (k : Ctl) (ra rb : BitVec 6) (bp : BitVec 5),
    let asid := (s.cur.S ra.toNat).toNat
    let base := (s.cur.S64 (2 * bp.toNat)).toNat
    let n := (s.cur.S rb.toNat).toNat
    let waits (i : Instr) (a : Option Nat) (r : Option (Nat × Nat)) : Prop := Answers i s true k {} s { lat := none, act := .tlbinv a r }
    (∀ y, s.cur.sys = some y → 1 ≤ y.lvl.toNat → s.Ready true k {} →
      (asid < 2 ^ 11 → s.foreign asid = false → waits (.tlbinvAsid k ra) (some asid) none ∧
        (base % 2 ^ 14 = 0 → 0 < n → waits (.tlbinvRange k ra bp rb) (some asid) (some (base, n * 2 ^ 14)))) ∧
      (2 ^ 11 ≤ asid ∨ s.foreign asid = true → Traps (.tlbinvAsid k ra) s true s { code := 0x65 }) ∧
      (2 ^ 11 ≤ asid ∨ base % 2 ^ 14 ≠ 0 ∨ n = 0 ∨ s.foreign asid = true → Traps (.tlbinvRange k ra bp rb) s true s { code := 0x65 }) ∧
      (y.lvl = 2 → waits (.tlbinvAll k) none none)) ∧
    (∀ f who id w a r, s.focus who = some f → f.cur.workOf id = some w → w.act = .tlbinv a r →
      (∀ c ∈ f.agents, ∀ o ∈ c.work, (∀ wall, o.act ≠ .peer wall) ∧ ∀ word va ls wall since, o.act ≠ .lost word va ls wall since) →
      ∃ t, exec (.tlbinvComplete who id) s = .next t ∧ t.cur.workOf id = none ∧ t.mem = s.mem ∧
        (∀ e, e ∈ t.tlb ↔ e ∈ f.tlb ∧ hitBy a r e.asid (e.page * 2 ^ e.size) (2 ^ e.size) = false)) ∧
    (∀ (c : Course) a r j, Sparse.wf c.b BReg.zero = true →
      let x := c.B j
      (c.markStale a r).B j = if x.mode = false ∧ hitBy a r c.space x.base.toNat x.lim.toNat = true ∧ 0 < x.lim.toNat
        then { x with stale := true } else x) ∧
    (∀ (c : Course) a r, ∀ o ∈ (c.markStale a r).work, ∀ j x, RegWrite.b j x ∈ o.writes → x.mode = false →
      hitBy a r c.space x.base.toNat x.lim.toNat = true → 0 < x.lim.toNat → x.stale = true)

/-- R307, R309, R310, R119, R308: `CINV` leaves no sector of its range in a slice or a wall cache, `CWB` no dirty one in a slice; neither changes
a byte of memory but one that a host has written without snooping while a cache held its sector, which `CINV` brings into sight.
`GRANSET` sets the granule of each frame. The gates of a bay's way pairs and of a plane's banks take their masks, at once or, for a plane
that streams, when it has; a bank that goes off reads zero, and so does one that comes on. `HALT` holds the core unless an enabled event is
pending. -/
def Claims.MaintenanceAndGates : Prop :=
  ∀ (s s1 : State) (k : Ctl) (ra rb : BitVec 6) (bp : BitVec 5) (gr pl : BitVec 2) (y : SysRegs),
    s.cur.sys = some y → s.Ready true k {} →
    let c := s.cur
    let va := (c.S64 (2 * bp.toNat)).toNat
    let n := (c.S rb.toNat).toNat
    let x := (c.S ra.toNat).toNat
    let on := c.S64 rb.toNat
    (1 ≤ y.lvl.toNat → ∀ ps, s.rangePieces va n (List.range (n / 2 ^ 14 + 2)) = (.ok ps, s1) →
      let hit (sector : Nat) : Prop := ∃ p ∈ ps, p.1 < 32 * sector + 32 ∧ 32 * sector < p.1 + p.2
      (∃ t, Answers (.cinv k bp rb) s true k {} t { lat := none } ∧ (∀ a, (∀ e ∈ s1.hostMem, e.1 ≠ a) → t.byte a = s1.byte a) ∧
        ∀ m, hit m → (∀ b, t.bayHolds b m = false) ∧ ∀ w, (t.wall w).holds m = false) ∧
      (∃ t, Answers (.cwb k bp rb) s true k {} t { lat := none } ∧ t.mem = s1.mem ∧
        ∀ b m, t.bayHolds b m = s1.bayHolds b m ∧ (hit m → t.bayDirty b m = false))) ∧
    (Answers (.fencei k) s true k {} s { lat := none, act := .fencei }) ∧
    (1 ≤ y.lvl.toNat → va % 2 ^ 14 = 0 → 0 < n → (∀ i < n, s.isHbm (va + i * 2 ^ 14) = true) →
      (y.lvl = 1 → ∀ i < n, s.inPartition s.myPart (va + i * 2 ^ 14) (2 ^ 14) = true) →
      ∃ t, Answers (.granset k bp rb gr) s true k {} t { lat := none } ∧ t.mem = s.mem ∧
        ∀ f, Sparse.get t.granule f 0 = if va / 2 ^ 14 ≤ f ∧ f < va / 2 ^ 14 + n then gr else Sparse.get s.granule f 0) ∧
    (y.lvl = 2 → x ≤ 47 → n < 2 ^ 8 → ∃ t, Answers (.waygtWays k ra rb) s true k {} t { lat := none } ∧ (s.hostMem = [] → t.mem = s.mem) ∧
      Sparse.get t.waysOff x 0 = ~~~(BitVec.ofNat 8 n) ∧
      ((∀ e ∈ s.lines, e.1 / 16 / baySets = x → e.1 = lineKey x e.2.line (e.1 % 16)) → ∀ e, e ∈ t.lines ↔ e ∈ s.lines ∧
        ¬ (e.1 / 16 / baySets = x ∧ n.testBit (e.1 % 16 / 2) = false ∧ (Sparse.get s.waysOff x 0).getLsbD (e.1 % 16 / 2) = false))) ∧
    (y.lvl = 2 → x ≤ 191 → pl ≠ 3 → (s.plane x pl.toNat).st ≠ .streaming → ∃ t,
      Answers (.waygtBanks k ra rb pl) s true k {} t { lat := none } ∧ (t.plane x pl.toNat).off = ~~~on ∧
      ∀ a, t.byte a = let off := (s.plane x pl.toNat).off
        if s.inBanks x pl.toNat ((~~~on &&& ~~~off) ||| (on &&& off)) a then 0 else s.byte a) ∧
    (y.lvl = 2 → x ≤ 191 → pl ≠ 3 → (s.plane x pl.toNat).st = .streaming →
      Answers (.waygtBanks k ra rb pl) s true k {} s { lat := none, act := .gates (3 * x + pl.toNat) on }) ∧
    (1 ≤ y.lvl.toNat → ∃ t, Answers (.halt k) s true k {} t { lat := some 1 } ∧ t.mem = s.mem ∧
      t.cur.hold = if y.evpend &&& y.even = 0 then .halt else .none)

/-- R311: a context request reads its 32-byte block and is handed to the sequencer as flag-class work; a request of level 1 for an ASID of
another partition is handed on marked, and is answered 0x21. A block that is no readable memory traps. That the block is read at issue, and its
zero bytes not at all, is log entry 63, DEDUCED (DEDUCED). -/
def Claims.ContextRequests : Prop :=
  ∀ (s : State) (k : Ctl) (bp : BitVec 5) (y : SysRegs), s.cur.sys = some y → 1 ≤ y.lvl.toNat → s.Ready true k {} →
    let pa := (s.cur.S64 (2 * bp.toNat)).toNat
    let bad (a : Nat) : Bool := 2 ^ 52 ≤ a || s.rangeBad { asid := 0, user := false, path := [], phys := true } a
    let n (off len : Nat) : Nat := s.loadNat (pa + off) len
    let asks (i : Instr) (op : Nat) : Prop := bad pa = false → bad (pa + 31) = false → s.poisoned pa = false → s.poisoned (pa + 31) = false →
      let act : Act := .ctx (if s.foreign (n 2 2) then 256 + op else op) (n 1 1) (n 2 2) (n 4 2) (BitVec.ofNat 64 (n 8 8)) (BitVec.ofNat 64 (n 16 8))
      Answers i s true k {} s { lat := none, act := act }
    asks (.ctxreqBind k bp) 1 ∧ asks (.ctxreqUnbind k bp) 2 ∧ asks (.ctxreqSwitch k bp) 3 ∧ asks (.ctxreqStreamOut k bp) 4 ∧
    asks (.ctxreqStreamIn k bp) 5 ∧ asks (.ctxreqReservedOp k bp) (n 0 1) ∧
    (2 ^ 52 ≤ pa → Traps (.ctxreqBind k bp) s true s { code := 0x06, detail := s.cur.S64 (2 * bp.toNat) })

/-- R304, R332, R335, R337: the monitor's services at level 2, each with the code it leaves in `s2`: an image's verdict, with its measurement
when it is accepted (a partition image is then the one that runs: log entry 88, DEDUCED); a register 6 or 7 extended; a report whose signature is the standard's (log entry 4, DESIGN CHOICE); a confirmed marker; a fuse counter
that never falls; and 0xA4 for any other service. The bytes of the report, registers in order, nonce, signature over both, are log entry 17, DESIGN CHOICE (DESIGN CHOICE). -/
def Claims.MonitorServices : Prop :=
  ∀ (s : State) (k : Ctl) (imm : BitVec 16) (y : SysRegs), s.cur.sys = some y → y.lvl = 2 → s.Ready true k {} →
    let c := s.cur
    let m := s.monitor
    let serves (i : Instr) (code : Code) (q : State → Prop) : Prop :=
      ∃ t, Answers i s true k {} t { lat := some 1, writes := [.s 2 (code.setWidth 32)] } ∧ t.cur = c ∧ q t
    let img := s.load (c.S64 4).toNat (7488 + s.loadNat ((c.S64 4).toNat + 16) 8)
    serves (.moncVerifyImage k) (m.verdict img) (fun t => t.mem = s.mem ∧ (m.verdict img ≠ 0 → t = s) ∧
      (m.verdict img = 0 → t.monitor =
        { m.measure img with runSvn := if imgKind img = 5 then Sparse.set m.runSvn 5 (imgSvn img) 0 else (m.measure img).runSvn })) ∧
    ((c.S 4 = 6 ∨ c.S 4 = 7) → serves (.moncExtendMeasurement k) 0 (fun t => t.mem = s.mem ∧
      ∀ n, t.monitor.reg n = if n = (c.S 4).toNat then Config.sha3 (m.reg n ++ s.load (c.S64 6).toNat 64) else m.reg n)) ∧
    (c.S 4 ≠ 6 → c.S 4 ≠ 7 → serves (.moncExtendMeasurement k) 0xA6 (fun t => t = s)) ∧
    serves (.moncAttestationReport k) 0 (fun t => t.monitor = m ∧
      let body := (List.range 8).flatMap m.reg ++ s.load (c.S64 6).toNat 64
      t = s.unitStore (c.S64 4).toNat (body ++ Config.mldsaSign body)) ∧
    serves (.moncConfirmSlot k) 0 (fun t => t.mem = s.mem ∧ ∃ mk, t.monitor.marker = some mk ∧ mk.slotB = m.runB ∧ mk.trial = false) ∧
    serves (.moncCommitSvn k) 0 (fun t => t.mem = s.mem ∧ ∀ n, Sparse.get t.monitor.svn n 0 =
      if n = (c.S 4).toNat then max (Sparse.get m.svn n 0) (Sparse.get m.runSvn n 0) else Sparse.get m.svn n 0) ∧
    serves (.moncUnknownService k imm) 0xA4 (fun t => t = s)

/-! The matrix engine, gangs, the weight buffer. -/

/-- R267, R268: `GANG` registers the course under its gang number, size and rank, or takes it out of every gang; the value that stands changes
nothing, and a value that breaks a rule traps. -/
def Claims.GangRegistration : Prop :=
  ∀ (s : State) (k : Ctl) (ra : BitVec 6), s.cur.sys = none → s.Ready true k {} →
    let c := s.cur
    let x := c.S ra.toNat
    let gid := x.toNat / 256 % 256
    let size := x.toNat / 16 % 16
    let rank := x.toNat % 16
    let gang (t : State) : Option Gang := (t.plane c.wall c.plane).gang c.lid gid
    (x = c.gang → Answers (.gang k ra) s true k {} s { lat := none }) ∧
    (x ≠ c.gang → c.gang = 0 →
      (2 ^ 16 ≤ x.toNat ∨ size = 1 ∨ 6 < size ∨ (size ≠ 0 ∧ size ≤ rank) → Traps (.gang k ra) s true s { code := 0x65 }) ∧
      (∀ g, gang s = some g → size ≠ 0 → g.size ≠ size ∨ g.ranks.testBit rank = true → Traps (.gang k ra) s true s { code := 0x65 }) ∧
      (x.toNat < 2 ^ 16 → 2 ≤ size → size ≤ 6 → rank < size → gang s = none → (s.plane c.wall c.plane).gangs.length < 16 →
        ∃ t, Answers (.gang k ra) s true k {} t { lat := none } ∧ t.cur.gang = x ∧ t.mem = s.mem ∧
          gang t = some { lid := c.lid, gid := gid, size := size, ranks := 2 ^ rank, arrived := 0, first := none })) ∧
    (x = 0 → c.gang ≠ 0 → ∃ t, Answers (.gang k ra) s true k {} t { lat := none } ∧ t.cur.gang = 0)

/-- R273 to R276, R268: a matrix instruction whose operands pass its checks takes the last place of its plane's engine queue, as flag-class
work; it waits while the queue holds 16 operations. A ganged one arrives at its gang's latch and its stream is held there, its flag not
counted yet. -/
def Claims.MatrixIssue : Prop :=
  ∀ (s s1 : State) (k : Ctl) (a c : BitVec 4) (wb ra : BitVec 6) (kt : BitVec 8) (fa fb : BitVec 3) (st : List (Nat × Nat)),
    s.cur.sys = none → s.Ready true k {} → s.cur.slotBad fa.toNat = false → s.cur.slotBad fb.toNat = false →
    let me := s.cur
    let queue (t : State) : List EngOp := (t.plane me.wall me.plane).engine
    let enters (i : Instr) (rows : RowSpec) : Prop :=
      (16 ≤ (queue s).length → exec i s = .next s) ∧
      ((queue s).length < 16 → s.prepare a.toNat c.toNat rows kt.toNat fa.toNat fb.toNat = .ok s1 st →
        let m : EngMember := ⟨me.ident, s.nextId, sigFlag k, a.toNat, c.toNat, st, 0, 0, 0, me.sync.rc⟩
        let o : EngOp := { members := [m], kt := kt.toNat, fa := me.slotWord fa.toNat 0, fb := me.slotWord fb.toNat 0, fired := false, rows := [] }
        ∃ t, Answers i s true k {} t { lat := none, act := .engine } ∧ t.mem = s1.mem ∧ t.cur = s1.cur ∧
          queue t = (s1.plane me.wall me.plane).engine ++ [o]) ∧
      ((queue s).length < 16 → ∀ t, s.prepare a.toNat c.toNat rows kt.toNat fa.toNat fb.toNat = .trap s1 t → Traps i s true s1 t)
    enters (.mma k a c wb kt fa fb 0) (.slot wb.toNat) ∧ enters (.mmag k a c ra kt fa fb 0) (.table (me.S ra.toNat)) ∧
    (let k' : Ctl := { k with sig := 15 }
     ∀ g, s.Ready true k' {} → me.gangKey.isSome = true → me.gang.toNat / 16 % 16 ≠ 0 →
      (s.plane me.wall me.plane).gang me.lid (me.gang.toNat / 256 % 256) = some g → g.first = none → g.ranks ≠ 0 →
      s.prepare a.toNat c.toNat (.slot wb.toNat) kt.toNat fa.toNat fb.toNat = .ok s1 st →
      ∃ t m, exec (.mma k a c wb kt fa fb 1) s = .next t ∧ t.cur.hold = .latch m ∧ m.sig = sigFlag k ∧ m.steps = st ∧
        t.cur.flags = s1.cur.flags ∧ t.cur.pcA = s1.cur.pcA ∧ t.mem = s1.mem)

/-- R268, R118, R276, R342, R353, R367: the engine's own steps. A gang issues when every rank has arrived, in one step, and not while a member
is trapped; an operation fires when its entries and room are there; its entries are freed one by one, those of the earlier of two members of one
chute first; it completes once all are read and its rows can be written, and its flags fall; one whose access fails is cancelled: no entry is
read or written and no index moves, its flag falls and is noted for the trap 0x43, the launch of one without a flag reports 0x43, and a kind-6
record is written where its ring has room. -/
def Claims.EngineSteps : Prop :=
  ∀ (s : State) (w p : Nat) (o : EngOp) (r : List EngOp) (lid : Word) (gid : Nat),
    let pl := s.plane w p
    (∀ g i n hs lead, pl.gang lid gid = some g → g.first = some (i, n) → (s.heldAt w p lid gid).filter (fun e => g.arrived.testBit e.1.rank) = hs →
      hs.head? = some lead → g.size ≤ hs.length → pl.st = .active → (s.wall w).service = .inService →
      (∀ e ∈ hs, e.1.trap = none ∧ e.1.halted = false ∧ s.redefining w p e.2.a = false ∧ s.redefining w p e.2.c = false ∧
        e.1.flagFull e.2.sig = false ∧ s.breaksAt e.1 (e.1.streamOf true) = false ∧
        pl.chutesBad e.2 (matrixFields i).1 (Slot.of (lead.1.slotWord (matrixFields i).2.1 0) 0) = false) →
      pl.engine.length < 16 →
      ∃ t op, exec (.gangIssue w p lid gid) s = .next t ∧ t.mem = s.mem ∧ op.members.length = hs.length ∧ op.fired = false ∧
        (t.plane w p).engine = pl.engine ++ [op] ∧ (∀ g', (t.plane w p).gang lid gid = some g' → g'.arrived = 0 ∧ g'.first = none)) ∧
    (∀ e, e ∈ s.heldAt w p lid gid → s.breaksAt e.1 (e.1.streamOf true) = true → (∀ g, pl.gang lid gid = some g → g.arrived.testBit e.1.rank = true) →
      ∃ t, exec (.gangIssue w p lid gid) s = .next t ∧ (t.plane w p).engine = pl.engine) ∧
    (∀ g, pl.gang lid gid = some g → (s.heldAt w p lid gid).length < g.size → exec (.gangIssue w p lid gid) s = .next s) ∧
    (∀ g e, pl.gang lid gid = some g → e ∈ s.heldAt w p lid gid → g.arrived.testBit e.1.rank = true → e.1.trap.isSome = true →
      exec (.gangIssue w p lid gid) s = .next s) ∧
    (s.fireable w = none → exec (.engineFire w) s = .next s ∧
      (s.runningPlane w = none → exec (.engineOperationCancel w) s = .next s)) ∧
    (s.fireable w = some (p, o) → ∀ m ∈ o.members,
      ((o.members.filter (fun x => x.a == m.a)).map (fun x => x.need o.kt)).sum ≤ (pl.chute m.a).published ∧
      ((o.members.filter (fun x => x.c == m.c)).map (fun x => x.out)).sum ≤ (pl.chute m.c).room) ∧
    (∀ xs s1, s.fireable w = some (p, o) → s.fireAll w p o.kt o.fa (pl.seatMembers o.kt [] o.members) = (none, xs, false, s1) → s1.planes = s.planes →
      ∃ t o', exec (.engineFire w) s = .next t ∧ t.mem = s1.mem ∧ (t.plane w p).engine = o' :: pl.engine.tail ∧ o'.fired = true ∧
        o'.kt = o.kt ∧ o'.members.map (fun m => m.ident) = o.members.map (fun m => m.ident)) ∧
    (∀ x xs st s1, s.fireable w = some (p, o) → s.fireAll w p o.kt o.fa (pl.seatMembers o.kt [] o.members) = (some x, xs, st, s1) → s1.planes = s.planes →
      let head := s1.dreg 0x893
      let size := (s1.dreg 0x892).toNat
      exec (.engineFire w) s = .next s ∧ ∃ t, exec (.engineOperationCancel w) s = .next t ∧ (t.plane w p).engine = pl.engine.tail ∧
        (∀ n, (t.plane w p).chute n = pl.chute n) ∧ (∀ a, ¬ s.InEventRing a → t.byte a = s.byte a) ∧
        (size ≠ 0 → (head - s1.dreg 0x894).toNat ≠ size →
          t.dreg 0x893 = head + 1 ∧ t.byte (s1.dreg64 0x890 + 64 * (head.toNat % size) + 48) = 6#8) ∧
        (∀ m f, o.members = [m] → m.sig = some f → s.cur.ident = m.ident → (∃ y, s.cur.workOf m.workId = some y ∧ y.sig = some f ∧ y.writes = []) →
          f ∈ t.cur.cancelled ∧ t.cur.flag f = s.cur.flag f - 1 ∧ t.cur.workOf m.workId = none) ∧
        (∀ m l, o.members = [m] → m.sig = none → s.cur.ident = m.ident → s.launches[s.cur.launch]? = some l →
          ∃ l', t.launches[s.cur.launch]? = some l' ∧ l'.status = if l.status = 0 then 0x43 else l.status)) ∧
    (s.runningPlane w = some p → pl.engine = o :: r → o.fired = true →
      (∀ j m, o.members[j]? = some m → m.eaten < m.need o.kt → (∀ x ∈ o.members.take j, x.a = m.a → x.need o.kt ≤ x.eaten) → ∃ t, exec (.engineEntryConsumed w j) s = .next t ∧ t.mem = s.mem ∧
        (t.plane w p).engine = { o with members := o.members.set j { m with eaten := m.eaten + 1 } } :: r ∧
        ((t.plane w p).chute m.a).cons = ((pl.chute m.a).cons + 1) % (2 * (pl.chute m.a).cap)) ∧
      ((∃ m ∈ o.members, m.eaten < m.need o.kt) → exec (.engineOperationComplete w) s = .next s) ∧
      (∀ xs s1, (∀ m ∈ o.members, m.need o.kt ≤ m.eaten) → s.landAll w p o.members = (none, xs, s1) → s.anyStall w xs.flatten = false →
        s1.planes = s.planes → s1.cur = s.cur → s1.parked = s.parked → ∃ t, exec (.engineOperationComplete w) s = .next t ∧ (t.plane w p).engine = r ∧
        ∀ m f, o.members = [m] → m.sig = some f → s.cur.ident = m.ident → (∀ c ∈ s.parked, c.ident ≠ m.ident) →
          (∃ y, s.cur.workOf m.workId = some y ∧ y.sig = some f ∧ y.writes = []) → t.cur.flag f = s.cur.flag f - 1))

/-- R271: `WBLD` checks its operands, reads its source at issue and waits as flag-class work; its completion writes the stream's bytes and the
slot's directory entry, or takes the slot's valid bit away for a malformed stream or a source that failed; the completion record of its flag says
which: status 0x41, or the failure's code twice, or success with the bytes; then the flag falls. R376: a source at a peer that does not answer fails
with 0x10, 2^24 ticks after the issue. -/
def Claims.WeightLoads : Prop :=
  ∀ (s : State) (k : Ctl) (sl ra rb : BitVec 6) (fs : BitVec 3) (bp : BitVec 5) (sp : BitVec 1),
    s.cur.sys = none → s.Ready true k {} → s.cur.slotBad fs.toNat = false →
    let c := s.cur
    let fmt := c.slotWord fs.toNat 0
    let off := (c.S ra.toNat).toNat
    let z := (c.S rb.toNat).toNat
    let tiles := z / 2 ^ 16
    let len := z % 2 ^ 15
    let src := c.S64 (2 * bp.toNat)
    let bad := tiles = 0 ∨ z.testBit 15 = true ∨ len = 0 ∨ 16383 < len ∨ off % 32 ≠ 0 ∨ off < 512 ∨ 524288 < off + 32 * len ∨
      fmtOk (Slot.of fmt 0).fmt = false ∨ (sp = 1 ∧ 0x100000 < (lo32 src).toNat + 32 * len)
    let read := if sp = 1 then s.readSp (lo32 src).toNat (32 * len)
      else s.reach c.ctx none { acc := { rd := true } } ((pieces src.toNat (32 * len)).map (fun p => ⟨0, p.1, p.2⟩))
    (bad → Traps (.wbld k sl fs ra bp rb sp) s true s { code := 0x65 }) ∧
    (¬ bad →
      let put (t : State) (src : Code × List Byte) : Prop :=
        Answers (.wbld k sl fs ra bp rb sp) s true k {} t { lat := none, act := .wbld c.plane sl.toNat fmt off tiles len src t.now }
      match read with
      | .ok t ps _ => put t (0, t.bytesAt ps)
      | .trap t x => put t (x.code, [])
      | .lost t _ _ => put t (0x10, [])
      | .wait => exec (.wbld k sl fs ra bp rb sp) s = .next s) ∧
    (∀ f who id w p slot fmt off tiles len bs since, s.focus who = some f → f.cur.workOf id = some w →
      w.act = .wbld p slot fmt off tiles len (0x10, bs) since → (f.now - since).toNat < 2 ^ 24 → exec (.wbldComplete who id) s = .next s) ∧
    (∀ f who id w p slot fmt off tiles len code bs since, s.focus who = some f → f.cur.workOf id = some w →
      w.act = .wbld p slot fmt off tiles len (code, bs) since → (code = 0x10 → 2 ^ 24 ≤ (f.now - since).toNat) → 8 * slot + 8 ≤ 512 → 512 ≤ off → bs.length = 32 * len →
      (f.plane f.cur.wall p).engine = [] → (∀ l ∈ f.loading f.cur.wall p, id ≤ l.id) →
      let pl := f.plane f.cur.wall p
      let e := loadedEntry fmt off tiles len (code, bs) (pl.slotWord slot)
      ∃ t, exec (.wbldComplete who id) s = .next t ∧ t.mem = s.mem ∧ t.cur.workOf id = none ∧
        (t.plane f.cur.wall p).slotWord slot = e % 2 ^ 64 ∧
        (e.testBit 56 = true → (t.plane f.cur.wall p).wbytes off (32 * len) = bs) ∧
        (e.testBit 56 = false → (t.plane f.cur.wall p).wbytes off (32 * len) = pl.wbytes off (32 * len)) ∧
        (code ≠ 0 → e.testBit 56 = false) ∧
        (∀ g, w.sig = some g → w.writes = [] → t.cur.flag g = f.cur.flag g - 1 ∧
          let word (n : Nat) : Word := Sparse.get t.cur.recs (4 * g + n) 0
          let status : Code := if code ≠ 0 then code else if e.testBit 56 then 0 else 0x41
          (status = 0 → f.cur.Recorded t.cur g 0 0 (32 * len) 0) ∧
          (status ≠ 0 → (word 0).extractLsb' 0 8 = status ∧ (word 0).extractLsb' 8 8 = 0 ∧ (word 0).extractLsb' 16 8 = code ∧
            word 1 = 0 ∧ word 2 = 0 ∧ word 3 = 0)))

/-! Records, snapshots, page requests. -/

/-- R176, R277 to R280, R378, R388: the record instructions in a node course. `RALLOC` reserves, and waits for room; `REMIT` writes each record's
header, which holds its depth, and its payload into the pool and its pool offset into the node's queue memory, in thread order, at new places or
at those reserved before; it waits for room and for a Kiln that is full of keys; `RTAKE` pushes words of the records the threads hold, read from the
pool; `RDONE` frees the records of the threads whose word is not zero. Outside a node course they are illegal; a node that does not exist is
0x25, a record too deep 0x26. Which free part of the pool a record takes is the model's choice (log entry 12, DESIGN CHOICE), and so is that a node
number above 63 names no node (log entry 71, DEDUCED). -/
def Obligations.Records : Prop :=
  ∀ (s : State) (k : Ctl) (rd ra rb : BitVec 6) (q res : BitVec 1) (qt : BitVec 2) (wi : BitVec 5) (n : BitVec 3), s.cur.sys = none →
    let c := s.cur
    let l := s.myLaunch
    let m := (c.S rb.toNat).toNat
    let r0 : QueueUse := {}
    let rq : QueueUse := { pops := [(4 + q.toNat, 1)] }
    let rt : QueueUse := { pushes := [(qt.toNat, n.toNat + 1)] }
    let e := c.popped (4 + q.toNat) 0
    let ts := e.threads c.live
    (c.nid = 0xFFFFFFFF#32 → s.frontReady (c.streamOf true) k.dist.toNat = true →
      Traps (.ralloc k rd ra rb) s true s { code := 0x64 } ∧ Traps (.remit k ra q res) s true s { code := 0x64 } ∧
      Traps (.rtake k qt wi n) s true s { code := 0x64 } ∧ Traps (.rdone k q) s true s { code := 0x64 }) ∧
    (c.nid ≠ 0xFFFFFFFF#32 → s.Ready true k r0 → l.nodeAt (c.S ra.toNat) = none → Traps (.ralloc k rd ra rb) s true s { code := 0x25 }) ∧
    (∀ i x, c.nid ≠ 0xFFFFFFFF#32 → s.Ready true k r0 → l.nodeAt (c.S ra.toNat) = some (i, x) →
      let have_ := x.resvOf c.ident
      let others := (l.nodes.filter (fun e => e.1 != i && e.2.resvOf c.ident != 0)).length
      (x.cap < have_ + m → Traps (.ralloc k rd ra rb) s true s { code := 0x65 }) ∧
      (have_ = 0 → m ≠ 0 → 8 ≤ others → Traps (.ralloc k rd ra rb) s true s { code := 0x65 }) ∧
      (have_ + m ≤ x.cap → 0 < have_ ∨ others < 8 → m ≠ 0 → l.hasRoom i m = false → exec (.ralloc k rd ra rb) s = .next s) ∧
      (have_ + m ≤ x.cap → (0 < have_ ∨ m = 0 ∨ others < 8) → (m = 0 ∨ l.hasRoom i m = true) →
        ∃ t, Answers (.ralloc k rd ra rb) s true k r0 t { lat := none, writes := [.s rd.toNat (BitVec.ofNat 32 (have_ + m))] } ∧ t.mem = s.mem ∧
          ∀ l0, s.launches[c.launch]? = some l0 → ∃ l', t.launches[c.launch]? = some l' ∧ (l'.node i).resvOf c.ident = have_ + m ∧
            (l'.node i).pending = x.pending)) ∧
    (c.nid ≠ 0xFFFFFFFF#32 → s.Ready true k rq → l.nodeAt (c.S ra.toNat) = none → Traps (.remit k ra q res) s true s { code := 0x25 }) ∧
    (∀ i x, c.nid ≠ 0xFFFFFFFF#32 → s.Ready true k rq → l.nodeAt (c.S ra.toNat) = some (i, x) →
      let deep := ∃ t ∈ ts, x.maxDepth < Sparse.get c.depths t 0 + 1
      let bad := x.cap < ts.length ∨ (res = 1 ∧ x.resvOf c.ident < ts.length) ∨ ∃ t ∈ ts, spOffset (e.word t) 32 = none
      (deep → Traps (.remit k ra q res) s true s { code := 0x26 }) ∧
      (¬ deep → bad → Traps (.remit k ra q res) s true s { code := 0x65 }) ∧
      (¬ deep → ¬ bad → (res = 0 ∧ l.hasRoom i ts.length = false) ∨ s.kilnFull x = true → exec (.remit k ra q res) s = .next s)) ∧
    (∀ i x s1 ps ab offs, c.nid ≠ 0xFFFFFFFF#32 → s.Ready true k rq → l.nodeAt (c.S ra.toNat) = some (i, x) → s.launches[c.launch]? = some l →
      (∀ t ∈ ts, Sparse.get c.depths t 0 + 1 ≤ x.maxDepth ∧ (spOffset (e.word t) 32).isSome = true) → ts.length ≤ x.cap → s.kilnFull x = false →
      (if res = 1 then ts.length ≤ x.resvOf c.ident ∧ offs = (x.resvAt c.ident).take ts.length
        else l.hasRoom i ts.length = true ∧ (l.alloc x.bytes ts.length).map Prod.fst = some offs) →
      (∀ u ∈ ts, (s1.bytesAt (ps.filter (fun p => p.t == u))).length = x.size) →
      s.reach c.ctx (some BReg.wholeSp) { acc := { rd := true } } (ts.flatMap (fun t => payloadLanes t (e.word t).toNat x.size)) = .ok s1 ps ab →
      s1.launches = s.launches → s1.cur.launch = c.launch →
      ∃ t l', Answers (.remit k ra q res) s true k rq t { lat := none } ∧ t.launches[c.launch]? = some l' ∧
        (res = 0 → ∀ l1, l.alloc x.bytes ts.length = some (offs, l1) → l'.pool = l1.pool) ∧
        (res = 1 → l'.pool = l.pool ∧ (l'.node i).resvAt c.ident = (x.resvAt c.ident).drop ts.length) ∧
        (l'.node i).pending.map (fun r => r.off) = x.pending.map (fun r => r.off) ++ offs ∧
        (∀ b, (∀ o ∈ offs, b < l.hdr.pool.toNat + o ∨ l.hdr.pool.toNat + o + x.bytes ≤ b) →
          (∀ j < x.cap, b < x.qmem.toNat + 8 * j ∨ x.qmem.toNat + 8 * j + 8 ≤ b) → t.byte b = s1.byte b) ∧
        ((∀ o ∈ offs, o < 2 ^ 64) → offs.Pairwise (fun o p => o + x.bytes ≤ p ∨ p + x.bytes ≤ o) →
          (∀ o ∈ offs, ∀ j < x.cap, x.qmem.toNat + 8 * j + 8 ≤ l.hdr.pool.toNat + o ∨ l.hdr.pool.toNat + o + x.bytes ≤ x.qmem.toNat + 8 * j) →
          ∀ j u o, ts[j]? = some u → offs[j]? = some o →
            t.loadNat (x.qmem.toNat + 8 * ((x.qhead + x.pending.length + j) % x.cap)) 8 = o ∧
            t.load (l.hdr.pool.toNat + o) x.bytes =
              bytesLE 16 (Sparse.get c.depths u 0 + 1) ++ s1.bytesAt (ps.filter (fun p => p.t == u)))) ∧
    (c.nid ≠ 0xFFFFFFFF#32 → s.Ready true k rt →
      ((l.node c.nid.toNat).size / 4 < wi.toNat + (n.toNat + 1) → Traps (.rtake k qt wi n) s true s { code := 0x65 }) ∧
      (wi.toNat + (n.toNat + 1) ≤ (l.node c.nid.toNat).size / 4 → ∃ t, t.mem = s.mem ∧ t.cur.held = c.held ∧
        Answers (.rtake k qt wi n) s true k rt t { lat := none, writes := (List.range (n.toNat + 1)).map (fun j =>
          .push qt.toNat (pushTag s.nextId j) (vecEntry (c.held.map (fun h => (h.1,
            BitVec.ofNat 32 (s.loadNat (l.hdr.pool.toNat + h.2.off + 16 + 4 * (wi.toNat + j)) 4)))))) })) ∧
    (c.nid ≠ 0xFFFFFFFF#32 → s.Ready true k rq → ∃ t, Answers (.rdone k q) s true k rq t { lat := none } ∧ t.mem = s.mem ∧
      ∀ h, h ∈ t.cur.held ↔ h ∈ c.held ∧ ¬ (h.1 ∈ ts ∧ e.word h.1 ≠ 0))

/-- R179, R180, R281, R282, R384: `SNAP` opens the launch's domain. In it the first write to a page copies the committed frame and goes to the
copy, the committed bytes stand, and the launch's later accesses reach the copy. `SNAPC` is flag-class work served oldest first: status 2 without
a domain, 1 when none is open; 0 when every wall that wrote into the domain has passed a scan that began after its last write: the working frames
are then the committed ones and the root pointer is written. A rollback gives the working frames up. Where the working frames and the root pointer
stand is the model's choice (log entry 41, DESIGN CHOICE). -/
def Claims.Snapshots : Prop :=
  ∀ (s : State) (k : Ctl) (rd : BitVec 6) (cl : BitVec 1) (l : Launch), s.launches[s.cur.launch]? = some l → s.cur.sys = none → s.Ready true k {} →
    let launch (t : State) (n : Nat) : Launch := (t.launches[n]?).getD Launch.blank
    (∃ t, Answers (.snap k) s true k {} t { lat := none } ∧ t.mem = s.mem ∧ t.cur = s.cur ∧
      (l.hasDomain = true → l.snapOpen = false → (launch t s.cur.launch).snapOpen = true ∧ (launch t s.cur.launch).snapPages = []) ∧
      (l.hasDomain = false ∨ l.snapOpen = true → launch t s.cur.launch = l)) ∧
    (Answers (.snapc k rd cl) s true k {} s { lat := none, act := .snapc s.cur.launch rd.toNat (cl == 1) }) ∧
    (∀ f who id w n r close, s.focus who = some f → f.cur.workOf id = some w → w.act = .snapc n r close → n < f.launches.length → r ≠ 0 →
      let d := launch f n
      let ends (status : Word) (open_ : Bool) (q : State → Prop) : Prop := ∃ t, exec (.snapcCommit who id) s = .next t ∧ t.cur.S r = status ∧
        t.cur.workOf id = none ∧ (launch t n).snapOpen = open_ ∧ q t
      ((∃ j ∈ f.commits n, j < id) → exec (.snapcCommit who id) s = .next s) ∧
      ((∀ j ∈ f.commits n, id ≤ j) →
        (d.hasDomain = false → ends 2 d.snapOpen (fun t => t.mem = s.mem)) ∧
        (d.hasDomain = true → d.snapOpen = false → ends 1 false (fun t => t.mem = s.mem)) ∧
        (d.hasDomain = true → d.snapOpen = true → (∃ e ∈ d.snapWalls, (f.wall e.1).lastScan.toNat ≤ e.2.toNat) →
          exec (.snapcCommit who id) s = .next s) ∧
        (d.hasDomain = true → d.snapOpen = true → (∀ e ∈ d.snapWalls, e.2.toNat < (f.wall e.1).lastScan.toNat) →
          ends 0 (!close) (fun t => (launch t n).snapPages = [] ∧ (d.snapPages = [] → t.mem = s.mem) ∧
            (Memory.wf f.mem = true → d.snapPages.Nodup → (∀ g ∈ d.snapPages, g < 2 ^ 38) →
              ∀ a < 2 ^ 52, (a < f.rootAt n ∨ f.rootAt n + 8 ≤ a) →
                t.byte a = if a / 2 ^ 14 ∈ d.snapPages then f.byte (workAt n a) else f.byte a))))) ∧
    (∀ p x, let n := s.cur.launch
      s.writesWork n p.va p.pa = true → p.pa + p.w ≤ 2 ^ 52 → p.pa / 2 ^ 14 = (p.pa + p.w - 1) / 2 ^ 14 → 0 < p.w →
      let t := s.storeAt p x
      (∀ a < 2 ^ 52, t.byte a = s.byte a) ∧ t.load (workAt n p.pa) p.w = bytesLE p.w x ∧ (launch t n).snapPages.contains (p.pa / 2 ^ 14) = true ∧
      (l.snapPages.contains (p.pa / 2 ^ 14) = false → (∀ c ∈ s.mem, c.1 < 2 ^ 52) → Memory.wf s.mem = true →
        ∀ a, a / 2 ^ 14 = p.pa / 2 ^ 14 → (a < p.pa ∨ p.pa + p.w ≤ a) → t.byte (workAt n a) = s.byte a)) ∧
    (∀ (p : Place) wr, l.snapOpen = true → rgn p.pa ≠ 1 → l.snapPages.contains (p.pa / 2 ^ 14) = true →
      (s.framed (some s.cur.launch) wr p).mem = workAt s.cur.launch p.pa) ∧
    (∀ n d, s.launches[n]? = some d → (launch (s.rollback n) n).snapPages = [] ∧ ∀ a < 2 ^ 52, (s.rollback n).byte a = s.byte a)

/-- R283, R314: `PGREQ` reads its list, answers the resident pages at once and hands the others to the pager; the pager's answer is written into
the entry, and the request completes when every entry has its answer. That the answer code 00 changes nothing is the model's reading (log entry 13,
DEDUCED). -/
def Claims.PageRequests : Prop :=
  ∀ (s s1 : State) (k : Ctl) (ra rb : BitVec 6) (ps : List Place) (ab : List Nat) (off : Nat), s.cur.sys = none → s.Ready true k {} →
    let n := (s.cur.S rb.toNat).toNat
    let vas := (List.range n).map (fun i => numAt (s1.bytesAt ps) (8 * i) 8)
    (spOffset (s.cur.S ra.toNat) 8 = none → Traps (.pgreq k ra rb) s true s { code := 0x65 }) ∧
    (spOffset (s.cur.S ra.toNat) 8 = some off → n = 0 ∨ 256 < n ∨ 0x100000 < off + 8 * n → Traps (.pgreq k ra rb) s true s { code := 0x65 }) ∧
    (spOffset (s.cur.S ra.toNat) 8 = some off → 0 < n → n ≤ 256 → off + 8 * n ≤ 0x100000 → s.readSp off (8 * n) = .ok s1 ps ab →
      (∀ v ∈ vas, v % 2 ^ 14 = 0 ∧ v < 2 ^ 56) →
      ∃ t list wait, Answers (.pgreq k ra rb) s true k {} t { lat := none, act := .pgreq list n wait } ∧ (∀ e ∈ wait, e.2 < n) ∧
        (∀ i < n, list[i]? = some (s1.scratch s.cur.wall s.cur.plane (shadowMove (s1.plane s.cur.wall s.cur.plane).shadows s.cur.asid (off + 8 * i) true))) ∧
        (∀ v, vas = [v] → (wait = [] ↔ s1.residentAt s.cur.asid v = true))) ∧
    (∀ f who id w list n, s.focus who = some f → f.cur.workOf id = some w → w.due = none → w.early ≤ f.cycle →
      (∀ x y, w.act = .pgreq list n (x :: y) → exec (.flagWorkComplete who id) s = .next f) ∧
      (w.act = .pgreq list n [] → ∃ t, exec (.flagWorkComplete who id) s = .next t ∧ t.cur.workOf id = none ∧ t.mem = s.mem)) ∧
    (∀ v : Word, v.toNat % 4 = 0 → exec (.pgansWrite v) s = .next s) ∧
    (∀ (v : Word) w list n e, v.toNat % 4 ≠ 0 → s.parked = [] → s.cur.work = [w] → w.act = .pgreq list n [e] → e.1 % 2 ^ 30 = v.toNat / 4 →
      let a0 := list.getD e.2 0
      ∃ t, exec (.pgansWrite v) s = .next t ∧ t.loadNat a0 8 = s.loadNat a0 8 / 4 * 4 + v.toNat % 4 ∧
        (∃ w', t.cur.work = [w'] ∧ w'.act = .pgreq list n []) ∧ ∀ a, (a < a0 ∨ a0 + 8 ≤ a) → t.byte a = s.byte a)

/-- R347 to R349, R351: the sweep base and its event-code table, the sweep that writes a die's counters and clears them, and the stall sample's two
records of 16 bytes in the ring, of whose contents nothing is said here. That a ring of size 0 takes no sample and counts no drop is the model's
reading (log entry 13, DEDUCED). -/
def Claims.CountersAndSamples : Prop :=
  ∀ (s : State) (hi : Bool) (v : Word) (die : Nat) (bs : List Byte),
    (∃ t, exec (.swpbaseWrite hi v) s = .next t ∧ t.mem = s.mem ∧ t.dreg (if hi then 0x873 else 0x872) = v ∧
      (∀ i, i ≠ 0x872 → i ≠ 0x873 → t.dreg i = s.dreg i) ∧
      ∀ i < 16 * Config.walls, Sparse.get t.ctrCodes i 0 = s.byte (s.dreg64 0x870 + i)) ∧
    (3 < die ∨ s.dreg 0x874 = 0 → exec (.sweep die) s = .next s) ∧
    (die ≤ 3 → s.dreg 0x874 ≠ 0 → ∃ t, exec (.sweep die) s = .next t ∧
      (∀ i < 48, (t.wall (48 * die + i)).counters = [] ∧ ∀ j < 16,
        t.loadNat (s.dreg64 0x872 + 64 * (48 * die + i) + 4 * j) 4 = (Sparse.get (s.wall (48 * die + i)).counters j 0).toNat) ∧
      (t.die die).sweeps = (s.die die).sweeps + 1 ∧ t.loadNat (s.dreg64 0x872 + 12288 + 8 * die) 8 = ((s.die die).sweeps + 1).toNat ∧
      ∀ a, a < s.dreg64 0x872 + 64 * 48 * die ∨ s.dreg64 0x872 + 12288 + 8 * die + 8 ≤ a → t.byte a = s.byte a) ∧
    (let size := (s.dreg 0x87A).toNat
     let head := s.dreg 0x87C
     let t := s.putSample bs
     (size = 0 → t = s) ∧
     (size ≠ 0 → (head - s.dreg 0x87D).toNat = size → t.mem = s.mem ∧ t.dreg 0x87C = head ∧
       t.dreg 0x87E = if s.dreg 0x87E = 0xFFFFFFFF#32 then 0xFFFFFFFF#32 else s.dreg 0x87E + 1) ∧
     (size ≠ 0 → (head - s.dreg 0x87D).toNat ≠ size → bs.length = 16 → t.dreg 0x87C = head + 1 ∧
       t.load (s.dreg64 0x878 + 16 * (head.toNat % size)) 16 = bs)) ∧
    (∀ w lset p c, s.planesIn w .active = [p] → (s.bySlot w p).filter (fun c => c.lset == lset) = [c] → s.focus c.ident = some s →
      ∃ t, exec (.stallSample w lset) s = .next t ∧ (∃ a b, a.length = 16 ∧ b.length = 16 ∧ ∃ u : State, u.mem = s.mem ∧ u.dregs = s.dregs ∧
        t = (u.putSample a).putSample b) ∧ Sparse.get (t.wall w).sampled lset 0 = c.slot + 1)

/-! Planes, walls, the Plumb. -/

/-- R17, R311: the steps of a context plane. A request of a wall is served in arrival order; `BIND` makes an Idle plane Ready, and Active when the
wall has none; `UNBIND` frees one that holds no course, which is Idle then, and a Ready plane of a wall in service that has no Active plane
becomes Active; reserved operations answer 0x23, foreign ASIDs 0x21 and an unmet precondition 0x22. A switch exchanges the Active and the
Ready plane, and a switch that waits has then been served; a stream-out begins once the plane is quiet and leaves it Idle, a stream-in leaves it
Ready. That an ASID above 2047 and a retired wall are answered 0x22 is log entry 124, DESIGN CHOICE, and that a bound plane's storage is empty and zero log
entry 100 (the model's choices); what a request holds was read at its issue (log entry 63, DEDUCED). -/
def Claims.PlaneSteps : Prop :=
  ∀ (s : State) (w p : Nat), w < 192 → p < 3 →
    let x := s.plane w p
    (∀ f who id k op asid image st, s.focus who = some f → f.cur.workOf id = some k → k.due = none → k.early ≤ f.cycle →
      k.act = .ctx op p asid w image st → (∀ e ∈ f.ctxItems w, k.id ≤ e.2.id) →
      let run : State → Prop := fun t => exec (.flagWorkComplete who id) s = .next t
      (op % 256 = 0 ∨ 5 < op % 256 → run (f.answerCtx who k 0x23)) ∧ (1 ≤ op % 256 → op % 256 ≤ 5 → 256 ≤ op → run (f.answerCtx who k 0x21)) ∧
      (1 ≤ op → op ≤ 5 → 2047 < asid ∨ (f.wall w).service = .retired → run (f.answerCtx who k 0x22)) ∧
      (op = 1 → asid ≤ 2047 → (f.wall w).service ≠ .retired → (f.plane w p).st ≠ .idle → run (f.answerCtx who k 0x22)) ∧
      (op = 1 → asid ≤ 2047 → (f.wall w).service = .inService → (f.plane w p).st = .idle → (f.activePlane w).isSome = true →
        f.comingIn w = false → f.planesIn w .ready = [] →
        run (((((f.blank (f.scratch w p 0) 0x100000).clearTags (f.scratch w p 0) 0x100000).setPlane w p
          ((f.plane w p).emptied asid)).answerCtx who k 0).passes)) ∧
      (op = 1 → asid ≤ 2047 → (f.wall w).service = .inService ∨ (f.wall w).service = .spare → (f.plane w p).st = .idle →
        f.activePlane w = none → f.planesIn w .ready = [] →
        let g := (((f.comeIn w).blank (f.scratch w p 0) 0x100000).clearTags (f.scratch w p 0) 0x100000).setPlane w p
          ((f.plane w p).emptied asid)
        run ((((g.activate w p).answerCtx who k 0).passes)) ∧ ((g.activate w p).plane w p).st = .active ∧
          ((g.activate w p).wall w).service = .inService) ∧
      (op = 2 → asid ≤ 2047 → (f.wall w).service ≠ .retired → f.tenants w p = [] →
        (f.plane w p).st = .ready ∨ (f.plane w p).st = .active →
        let g := f.setPlane w p { f.plane w p with
          st := .idle, asid := none, wantActive := false, heldPlane := false, stream := none, owner := none }
        run ((g.answerCtx who k 0).passes) ∧ (g.plane w p).st = .idle ∧ (g.plane w p).asid = none ∧
          (f.activePlane w = some p → g.activePlane w = none)) ∧
      (op = 2 → asid ≤ 2047 → (f.wall w).service ≠ .retired →
        f.tenants w p ≠ [] ∨ (f.plane w p).st = .idle ∨ (f.plane w p).st = .streaming → run (f.answerCtx who k 0x22)) ∧
      (op = 3 → asid ≤ 2047 → (f.wall w).service ≠ .inService → (f.wall w).service ≠ .retired → run f)) ∧
    (s.serving w = false → exec (.planeSwitchComplete w) s = .next s) ∧
    (s.serving w = true → s.activePlane w = none → s.planesIn w .ready = [p] → ∃ t, exec (.planeSwitchComplete w) s = .next t ∧
      (t.plane w p).st = .active ∧ (t.wall w).pcache = [] ∧ (t.wall w).gens = [] ∧ (s.ctxItems w = [] ∨ x.heldPlane = true → t.mem = s.mem)) ∧
    (∀ who k q asid im st, s.serving w = true → s.activePlane w = none → s.planesIn w .ready = [p] → x.heldPlane = false →
      let g := (s.activate w p).countEvent w 14 0
      g.ctxItems w = [(who, k)] → k.act = .ctx 3 q asid w im st → q < 3 → asid ≤ 2047 →
        exec (.planeSwitchComplete w) s = .next ((g.answerCtx who k 0).passes)) ∧
    (∀ a, s.serving w = true → s.activePlane w = some a → s.planesIn w .ready = [p] → x.wantActive = true →
      ∃ t, exec (.planeSwitchComplete w) s = .next t ∧ (t.plane w p).st = .active ∧ (t.plane w a).st = .ready ∧
        (t.wall w).gens = [] ∧ ∀ c ∈ t.agents, c.sys = none → c.resident = true → c.wall = w → c.plane = a → c.hold ≠ .wfe) ∧
    (∀ a, s.serving w = true → s.activePlane w = some a → (∀ q < 3, (s.plane w q).wantActive = false) →
      exec (.planeSwitchComplete w) s = .next s) ∧
    (x.stream = none → exec (.streamOutBegin w p) s = .next s ∧ exec (.streamOutComplete w p) s = .next s ∧ exec (.streamInComplete w p) s = .next s) ∧
    (∀ i n e b, x.stream = some ⟨false, i, n, e, b⟩ →
      (s.quiet w p = false → exec (.streamOutBegin w p) s = .next s) ∧
      (x.st = .ready → s.planesIn w .streaming = [] → s.quiet w p = true → ∃ t, exec (.streamOutBegin w p) s = .next t ∧
        (t.plane w p).st = .streaming ∧ t.mem = s.mem ∧ t.cur = s.cur ∧
        ∀ e ∈ t.keys, e ∈ s.keys ∧ e.2.1 ∉ (s.residents w p).map (fun c => c.ident)) ∧
      (x.st ≠ .streaming → exec (.streamOutComplete w p) s = .next s)) ∧
    (∀ n e b, x.st = .streaming → x.stream = some ⟨false, none, n, e, b⟩ → ∃ t, exec (.streamOutComplete w p) s = .next t ∧
      (t.plane w p).st = .idle ∧ (t.plane w p).asid = none ∧ (t.plane w p).bars = [] ∧ t.residents w p = [] ∧
      ∀ c ∈ s.residents w p, ∃ o ∈ t.agents, o.ident = c.ident ∧ o.moving = true ∧ o.s = c.s ∧ o.v = c.v) ∧
    (∀ n e b, x.st = .streaming → x.stream = some ⟨true, none, n, e, b⟩ → (∀ c ∈ s.agents, c.moving = false) →
      ∃ t, exec (.streamInComplete w p) s = .next t ∧ (t.plane w p).st = .ready ∧
        (t.plane w p).stream = if (s.wall w).service = .retest then some .moveOut else none)

/-- R120, R174, R382 to R385: storage that wakes; a bay's drains, one wall at a time; a scan that passes returns the wall to service with the
scan's start as its last pass, and one that fails is followed by a second, by which the wall is retired and a free spare, if the die has one,
takes its number with its planes empty. -/
def Obligations.WallScans : Prop :=
  ∀ (s : State) (w bay idx : Nat) (pat : Byte), w < 192 → bay < 48 →
    let x := s.wall w
    (idx < 64 → (s.plane w 0).waking.getLsbD idx = true → ∃ t, exec (.storageWakeComplete true (3 * w) idx) s = .next t ∧ t.mem = s.mem ∧
      (t.plane w 0).waking.getLsbD idx = false ∧ (t.plane w 0).off = (s.plane w 0).off) ∧
    (idx < 8 → (Sparse.get s.waysWake bay 0).getLsbD idx = true → ∃ t, exec (.storageWakeComplete false bay idx) s = .next t ∧ t.mem = s.mem ∧
      (Sparse.get t.waysWake bay 0).getLsbD idx = false ∧ t.waysOff = s.waysOff) ∧
    ((∃ v ∈ bayWalls bay, (s.wall v).service = .drained ∨ (s.wall v).service = .retest) → exec (.plumbDrain bay) s = .next s) ∧
    ((∀ v ∈ bayWalls bay, (s.wall v).service ≠ .drained ∧ (s.wall v).service ≠ .retest) → s.nextDrain bay = some w →
      ∃ t, exec (.plumbDrain bay) s = .next t ∧ (t.wall w).service = .drained ∧ t.mem = s.mem ∧ (t.wall w).scanStart = s.count (w / 48) ∧
        ∀ a, s.activePlane w = some a → (t.plane w a).st = .ready ∧ (t.plane w a).heldPlane = true) ∧
    (x.service ≠ .drained → x.service ≠ .retest → exec (.plumbScanPass w) s = .next s) ∧
    (s.scanned w = false → exec (.plumbScanPass w) s = .next s ∧ exec (.plumbScanFail w pat) s = .next s ∧ exec (.wallRetire w) s = .next s) ∧
    (x.service = .drained → s.scanned w = true → ∃ t, exec (.plumbScanPass w) s = .next t ∧ (t.wall w).service = .inService ∧
      (t.wall w).lastScan = x.scanStart ∧ t.mem = s.mem) ∧
    (x.service = .retest → s.scanned w = true → s.cleared w = true → ∃ t, exec (.plumbScanPass w) s = .next t ∧
      (t.wall w).service = .inService ∧ (t.wall w).lastScan = x.scanStart) ∧
    (x.service = .retest → s.cleared w = false → exec (.plumbScanPass w) s = .next s ∧ exec (.wallRetire w) s = .next s) ∧
    (x.service = .drained → s.scanned w = true → ∃ t, exec (.plumbScanFail w pat) s = .next t ∧ (t.wall w).service = .retest) ∧
    (x.service ≠ .retest → exec (.wallRetire w) s = .next s) ∧
    (x.service = .retest → s.scanned w = true → (∀ q < 3, s.seats w q = [] ∧ (s.plane w q).st ≠ .streaming) →
      ∃ t, exec (.wallRetire w) s = .next t ∧ (∀ q < 3, (t.plane w q).st = .idle) ∧
        ((s.die (w / 48)).spares = 0 → (t.wall w).service = .retired) ∧
        ((s.die (w / 48)).spares ≠ 0 → (t.wall w).service = .spare ∧ (t.die (w / 48)).spares = (s.die (w / 48)).spares - 1))

/-! Launches, graphs and queues. -/

/-- R39, R178, R278, R388: a course retires once both streams have ended, nothing of it is in flight by a flag and no trap is open: its keys and
held records are gone, its launch counts it; before that the event changes nothing. -/
def Claims.CourseRetires : Prop :=
  ∀ (s : State) (who : DWord),
    (s.focus who = none → exec (.courseRetire who) s = .next s) ∧
    (∀ f, s.focus who = some f → f.cur.spent = false → exec (.courseRetire who) s = .next s) ∧
    (∀ f, s.focus who = some f → f.cur.spent = true → f.cur.gang = 0 → f.cur.launch < s.launches.length → ∃ t,
      exec (.courseRetire who) s = .next t ∧ t.cur.ident = who ∧ t.cur.retired = true ∧ t.cur.resident = false ∧ t.cur.held = [] ∧
      (∀ e ∈ t.keys, e.2.1 ≠ who) ∧ (∀ e ∈ s.keys, e.2.1 ≠ who → e ∈ t.keys) ∧ t.mem = s.mem ∧
      (t.launch f.cur.launch).retired = (s.launch f.cur.launch).retired + 1 ∧
      (f.cur.cancelled ≠ [] → (s.launch f.cur.launch).status = 0 → (t.launch f.cur.launch).status = 0x43))

/-- R173, R174: a launch is complete once every course has retired and nothing of it is outstanding; it certifies once each wall that ran it has
passed a scan begun after its last instruction there. The report is 32 bytes: number, status, certificate, two ticks; it is a release at system
scope. An entry that resumes an image runs the courses of the launch whose image it is. -/
def Claims.LaunchReports : Prop :=
  (∀ (s : State) (n cert : Nat) (t1 t2 : DWord), let l := s.launch n; let t := s.report n cert t1 t2; let a := l.done.toNat
    t.loadNat a 4 = l.lid.toNat ∧ t.loadNat (a + 4) 1 = (if l.status = 0 then (s.launch (s.body n)).status else l.status).toNat ∧
    t.loadNat (a + 5) 1 = cert % 256 ∧ t.loadNat (a + 6) 2 = 0 ∧
    t.loadNat (a + 8) 8 = t1.toNat ∧ t.loadNat (a + 16) 8 = t2.toNat ∧ t.loadNat (a + 24) 8 = 0 ∧
    (∃ e ∈ t.rels, e.1 = a ∧ e.2.1 = 32 ∧ e.2.2.scope = 8) ∧
    ∀ b, b < a ∨ a + 32 ≤ b → t.byte b = s.byte b) ∧
  ∀ (s : State) (n : Nat), let l := s.launch n; let out := (s.launch (s.body n)).outst
    (s.launches.length ≤ n ∨ l.complete = true ∨ s.allRetired n = false ∨ l.outst ≠ [] ∨ out ≠ [] → exec (.launchComplete n) s = .next s) ∧
    (n < s.launches.length → l.complete = false → s.allRetired n = true → l.outst = [] → out = [] → ∃ t, exec (.launchComplete n) s = .next t ∧
      (t.launch n).complete = true ∧ (t.launch n).tickDone = s.count (queueDie l.queue) ∧ (t.launch n).snapOpen = false ∧
      (t.launch n).status = l.status ∧ (t.launch n).certified = l.certified) ∧
    (l.complete = false ∨ l.certified = true ∨ l.suspect = true ∨ (s.launch (s.body n)).suspect = true ∨ (∃ e ∈ s.ranOf n, (s.wall e.1).lastScan.toNat ≤ e.2.toNat) →
      exec (.launchCertify n) s = .next s) ∧
    (n < s.launches.length → l.complete = true → l.certified = false → l.suspect = false → (s.launch (s.body n)).suspect = false → l.hdr.nthr ≠ 0 →
      (∀ e ∈ s.ranOf n, e.2.toNat < (s.wall e.1).lastScan.toNat) →
      ∃ t, exec (.launchCertify n) s = .next t ∧ (t.launch n).certified = true ∧ (t.launch n).complete = true)

/-- R175 to R177, R379: a node's timer, the launch of a node's course with the oldest records, at most 96 of them, and the trap 0x67 of a graph
in which nothing can go on. -/
def Claims.Kilns : Prop :=
  ∀ (s : State) (n node : Nat), let l := s.launch n; let x := l.node node
    (x.pending = [] ∨ x.expired = true → exec (.kilnTimerExpire n node) s = .next s) ∧
    (∀ r rs, n < s.launches.length → x.pending = r :: rs → x.expired = false → r.tick.toNat + x.timer ≤ (s.count x.die).toNat →
      ∃ t, exec (.kilnTimerExpire n node) s = .next t ∧ ((t.launch n).node node).expired = true ∧ t.mem = s.mem) ∧
    (∀ r rs, x.pending = r :: rs → (s.count x.die).toNat < r.tick.toNat + x.timer → exec (.kilnTimerExpire n node) s = .next s) ∧
    (x.cap = 0 ∨ x.pending = [] ∨ x.maxFlight ≤ x.flight ∨ l.complete = true → exec (.kilnLaunch n node) s = .next s) ∧
    (s.outranked n node = true → exec (.kilnLaunch n node) s = .next s) ∧
    (n < s.launches.length → s.mayLaunch n node = true → s.outranked n node = false → ∃ t, exec (.kilnLaunch n node) s = .next t ∧
      ((t.launch n).node node).pending = x.pending.drop 96 ∧ ((t.launch n).node node).flight = x.flight + 1 ∧
      ((t.launch n).node node).nextCid = x.nextCid + 1 ∧ (t.launch n).placed = l.placed + 1 ∧ t.agents.length = s.agents.length + 1 ∧
      ∃ c ∈ t.agents, c.ident = identity 0 s.nextStart ∧ c.nid = BitVec.ofNat 32 node ∧ c.nthr = (x.pending.take 96).length ∧
        c.cid = BitVec.ofNat 32 x.nextCid) ∧
    (l.complete = true ∨ l.hdr.graph = false → exec (.graphExhausted n) s = .next s) ∧
    (∀ m, l.complete = false → l.hdr.graph = true → (s.coursesOf n).filter (fun c => c.resident) = [s.cur] → s.waitsAt s.cur = some m →
      (∀ e ∈ l.nodes, e.2.pending ≠ [] → e.2.maxFlight ≤ e.2.flight) →
      exec (.graphExhausted n) s = .next ((s.nextWord (s.cur.streamOf true)).2.trapAt (s.cur.streamOf true)
        { code := 0x67, detail := BitVec.ofNat 64 (6 + m * 2 ^ 8) }))

/-- R169, R171, R172: a pass with nothing queued changes nothing; a head that fits is placed with a new identity; one that does not is blocked
from the tick of its first failure, and closes its region after the age limit. -/
def Claims.Placement : Prop :=
  ∀ (s : State) (die k : Nat), k < 16 → s.shelf = [] → (∀ c ∈ s.agents, c.lonely = false) → let q := 16 * die + k; let x := s.queue q
    ((∀ j < 16, s.queue (16 * die + j) = LQueue.zero) → exec (.placementPass die) s = .next s) ∧
    (∀ n, (∀ j < 16, j ≠ k → s.queue (16 * die + j) = LQueue.zero) → x.head = some n → x.ents = [n] → n < s.launches.length →
      (s.launch n).queue = q → (s.launch n).hdr.fresh = true →
      (s.placeFresh n = none → ∃ t, exec (.placementPass die) s = .next t ∧ t.agents = s.agents ∧ t.mem = s.mem ∧
        (t.queue q).since = x.since.or (some (s.count (queueDie q))) ∧ (t.queue q).head = some n) ∧
      (∀ u, s.placeFresh n = some u → (s.launch n).hdr.gcnt = 1 → (s.launch n).placed = 0 → (s.launch n).groups = 0 → s.pairQueue q = false →
        ∃ t, exec (.placementPass die) s = .next t ∧ (t.queue q).head = none ∧ (t.queue q).ents = [] ∧ (t.launch n).placed = 1 ∧
          t.agents.length = s.agents.length + 1 ∧ ∃ c ∈ t.agents, c.ident = identity 0 s.nextStart ∧ c.launch = n ∧ c.resident = true)) ∧
    (x.since = none → x.closed = false → exec (.headAgeExpire q) s = .next s) ∧
    (∀ t0, x.since = some t0 → (s.count (queueDie q)).toNat < t0.toNat + Config.ageLimit → x.closed = false → exec (.headAgeExpire q) s = .next s) ∧
    (∀ t0, x.since = some t0 → t0.toNat + Config.ageLimit ≤ (s.count (queueDie q)).toNat → ∃ t, exec (.headAgeExpire q) s = .next t ∧
      (t.queue q).closed = true ∧ (t.queue q).head = x.head ∧ (t.queue q).ents = x.ents ∧ t.mem = s.mem)

/-- R313, R327, R390, R391: a doorbell reads the queue's descriptor and the entry written since; a queue reset leaves it empty, its head equal to
its tail; a virtual function rings only the queues of its own ASID, and none while the device is held at step 1 of boot. -/
def Claims.QueueDoorbells : Prop :=
  ∀ (s : State) (q : Word),
    let d := s.qdesc q.toNat
    let size := s.num d 8 4
    (63 < q.toNat → exec (.lqbellWrite q) s = .next s ∧ exec (.lqrstWrite q) s = .next s) ∧
    (q.toNat ≤ 63 → (s.num d 22 2 % 2 = 0 ∨ size = 0) → exec (.lqbellWrite q) s = .next (s.later [.placementPass (queueDie q.toNat)])) ∧
    (q.toNat ≤ 63 → s.num d 22 2 % 2 = 1 → size ≠ 0 →
      let next := s.num d 16 4 + s.inRing q.toNat
      let a := s.num d 0 8 + 64 * (next % size)
      (s.num d 12 4 + 2 ^ 33 - next) % 2 ^ 32 = 1 → s.entryBad a = false →
      ∃ t, exec (.lqbellWrite q) s = .next t ∧ t.launches.length = s.launches.length + 1 ∧
        (t.queue q.toNat).ents = (s.queue q.toNat).ents ++ [s.launches.length] ∧ t.mem = s.mem ∧
        let l := t.launch s.launches.length
        l.lid = s.wd a 4 ∧ l.type = s.num a 0 1 ∧ l.prio = s.num a 1 1 % 8 ∧ l.image = s.dw a 8 ∧ l.done = s.dw a 16 ∧ l.event = s.wd a 40 ∧
        l.asid = s.num d 20 2 ∧ l.complete = false) ∧
    (q.toNat ≤ 63 → ∃ t, exec (.lqrstWrite q) s = .next t ∧ t.queue q.toNat = LQueue.zero ∧
      t.num (t.qdesc q.toNat) 16 4 = t.num (t.qdesc q.toNat) 12 4) ∧
    (∀ vf, 255 < vf ∨ s.monitor.bootStep = 1 → exec (.qbellWrite vf q) s = .next s) ∧
    (∀ vf, vf < 256 → s.monitor.bootStep ≠ 1 → s.vfAsid vf = none → exec (.qbellWrite vf q) s = .next (s.answer .unsupported)) ∧
    (∀ vf a, vf < 256 → s.vfAsid vf = some a → 63 < q.toNat → exec (.qbellWrite vf q) s = .next s) ∧
    (∀ vf a, vf < 256 → s.monitor.bootStep ≠ 1 → s.vfAsid vf = some a → q.toNat ≤ 63 →
      (s.qasid q.toNat ≠ a → exec (.qbellWrite vf q) s = .next s) ∧
      (s.qasid q.toNat = a → exec (.qbellWrite vf q) s = .next ((s.readQueue q.toNat).later [.placementPass (queueDie q.toNat)])))

/-! Memory, clocks, the fabric. -/

/-- R105, R119, R122, R123, R365, R366: a write-back merges a dirty sector with what its home yard stores, so that every byte reads as before;
a fill brings the sectors of the granule into the slice. What the bad symbols of a read come to, its granule's code decides: one is corrected
by G32, G64 and G128, two are detected by G32 and G128; all of one sub-channel are corrected by G512, one or two more outside it detected. The
record that reports an error makes the sectors it fills of the memory event ring whole again.
A granule of width w lies in sub-channels kw to kw + w - 1, where k is its index plus its frame's number modulo 64 / w. What a fill reads from
a poisoned granule is poisoned and no new error; a detected error is reported and poisons; where the code promises nothing, the read is detected
or wrong, its wrong bytes free values (log entry 23, DESIGN CHOICE). A ring of size 0 keeps nothing (log entry 13, DEDUCED). -/
def Claims.CacheEvents : Prop :=
  ∀ (s : State) (bay sector : Nat),
    (s.bayDirty bay sector = false → exec (.bayCacheWriteback bay sector) s = .next s) ∧
    (s.bayDirty bay sector = true → ∃ t, exec (.bayCacheWriteback bay sector) s = .next t ∧ t.mem = s.mem ∧ t.bayDirty bay sector = false ∧
      t.bayHolds bay sector = s.bayHolds bay sector ∧ ∀ c ∈ t.hostMem, c ∈ s.hostMem ∧ c.1 / 32 ≠ sector) ∧
    (47 < bay ∨ s.bayHolds bay sector = true ∨ rgn (32 * sector) = 3 ∨ rgn (32 * sector) = 1 →
      ∀ e, exec (.bayCacheFill bay sector e) s = .next s) ∧
    (bay ≤ 47 → s.bayHolds bay sector = false → s.isHbm (32 * sector) = true → ∀ e,
      let g := s.granuleAt (32 * sector)
      let n := granBytes g / 32
      let ns := (List.range n).map (sector / n * n + ·)
      let old := ns.filter (fun k => !s.dirtyAnywhere k && !s.bayHolds bay k)
      let inRing (k : Nat) : Prop := ∃ i < 32, s.InEventRing (32 * k + i)
      ∃ r, exec (.bayCacheFill bay sector e) s = .next (r.fillAll bay ns false) ∧
        ((∃ k ∈ ns, Sparse.get s.poison k false = true) → r.mem = s.mem ∧ r.dregs = s.dregs ∧ ∀ k ∈ old, Sparse.get r.poison k false = true) ∧
        ((∀ k ∈ ns, Sparse.get s.poison k false = false) →
          (eccOut g e = .clean → r = s) ∧
          (eccOut g e = .corrected → (∀ k, ¬inRing k → Sparse.get r.poison k false = Sparse.get s.poison k false) ∧
            ∀ a, ¬s.InEventRing a → r.byte a = s.byte a) ∧
          (eccOut g e = .detected → (∀ k ∈ old, ¬inRing k → Sparse.get r.poison k false = true) ∧ ∀ a, ¬s.InEventRing a → r.byte a = s.byte a) ∧
          (eccOut g e = .unpromised → s.dreg 0x892 = 0 → ∀ a, (∀ k ∈ old, a / 32 ≠ k) → r.byte a = s.byte a))) ∧
    (∀ e : Ecc, let k := e.bad.dedup.length
      (k = 0 → ∀ g, eccOut g e = .clean) ∧ (k = 1 → ∀ g < 3, eccOut g e = .corrected) ∧
      (k = 2 → eccOut 0 e = .detected ∧ eccOut 2 e = .detected) ∧
      (k ≠ 0 → (∃ i < 8, ∀ b ∈ e.bad, b.1 = i) → eccOut 3 e = .corrected) ∧
      (∀ i < 8, (e.bad.dedup.filter (fun b => b.1 != i)).length ≤ 2 → (¬∃ j < 8, ∀ d ∈ e.bad, d.1 = j) → eccOut 3 e = .detected)) ∧
    (∀ g a, firstSub g a = (a % 2 ^ 14 / granBytes g + a % 2 ^ 36 / 2 ^ 14) % (64 / granWidth g) * granWidth g)

/-- R150, R152, R198: a walk for an agent fills the TLBs it passed, changes no memory, and of the agent only what it has acquired; one that
fails leaves nothing. A W6 word that is fetched stands in its course's cache, as it is in memory (log entry 77, DEDUCED). -/
def Claims.WalksAndFills : Prop :=
  ∀ (s : State) (va : DWord),
    (∀ l f, s.translate s.cur.ctx va.toNat {} = (.ok l, f) → ∃ t, exec (.pageWalk s.cur.ident va) s = .next t ∧ t.tlb = f.tlb ∧ t.mem = s.mem ∧
      t.cur = { s.cur with sync := f.cur.sync }) ∧
    ((∀ l f, s.translate s.cur.ctx va.toNat {} ≠ (.ok l, f)) → exec (.pageWalk s.cur.ident va) s = .next s) ∧
    (∀ who, s.focus who = none → exec (.pageWalk who va) s = .next s ∧ exec (.w6FillTranslate who va) s = .next s) ∧
    (s.cur.w6 = false ∨ va.toNat % 8 ≠ 0 → exec (.w6FillTranslate s.cur.ident va) s = .next s) ∧
    (∀ w f, s.cur.w6 = true → va.toNat % 8 = 0 → s.hostMem = [] → (∀ e ∈ s.cur.icacheC, e.1 ≠ va.toNat) → s.fetchAt .comp va.toNat = (.ok w, f) →
      ∃ t, exec (.w6FillTranslate s.cur.ident va) s = .next t ∧ t.mem = s.mem ∧ ∃ e ∈ t.cur.icacheC, e = (va.toNat, w))

/-- R4, R112: a die's clock never falls below the clock on which an outstanding promise was computed; a promise whose tick has come binds no
more. A change keeps the part of a tick that the counter has not counted, and never makes it larger (log entry 102, DEDUCED). -/
def Claims.Clocks : Prop :=
  ∀ (s : State) (die mhz : Nat), let d := s.die die
    (3 < die ∨ mhz = 0 ∨ (mhz < d.mhz ∧ ∃ p ∈ d.proms, d.cnt.toNat < p.1.toNat ∧ mhz < p.2) → exec (.clockChange die mhz) s = .next s) ∧
    (die ≤ 3 → mhz ≠ 0 → (d.mhz ≤ mhz ∨ ∀ p ∈ d.proms, d.cnt.toNat < p.1.toNat → p.2 ≤ mhz) → ∃ t, exec (.clockChange die mhz) s = .next t ∧
      (t.die die).mhz = mhz ∧ (t.die die).proms = d.proms ∧ (t.die die).cnt = d.cnt ∧ (t.die die).acc * d.mhz ≤ d.acc * mhz ∧
      t.mem = s.mem ∧ t.cur = s.cur) ∧
    (∃ t, exec (.promiseMature die) s = .next t ∧ (t.die die).mhz = d.mhz ∧ t.mem = s.mem ∧ t.cur = s.cur ∧
      ∀ p, p ∈ (t.die die).proms ↔ p ∈ d.proms ∧ d.cnt.toNat < p.1.toNat)

/-- R362, R376, R387, R388: a peer request that is not answered in 2^24 ticks traps 0x10 at its instruction, at which its stream stands (log entry
24, DESIGN CHOICE, the model's choice); a request sent again under a recorded key is answered from the record; of a redundant pair the second member's issue is
compared with the first's, and one that differs re-issues three times and then traps 0x83; one whose partner does not come, or whose members trap
differently, traps 0x82. That the second member reads the first's registers is log entry 20, DESIGN CHOICE (the model's choice). -/
def Claims.RemoteAgents : Prop :=
  ∀ (s : State) (who : DWord) (n : Nat),
    (s.focus who = none → exec (.peerTimeout who n) s = .next s) ∧
    (∀ f k word va lanes wall since, s.focus who = some f → f.cur.workOf n = some k → k.act = .lost word va lanes wall since →
      ((f.now - since).toNat < 2 ^ 24 ∨ f.cur.trap.isSome = true → exec (.peerTimeout who n) s = .next s) ∧
      (2 ^ 24 ≤ (f.now - since).toNat → f.cur.trap = none → f.cur.sys = none → ∃ t, exec (.peerTimeout who n) s = .next t ∧
        t.cur.workOf n = none ∧ t.mem = s.mem ∧ (f.cur.ended k.stream = true → t.cur.trap = none) ∧
        (f.cur.ended k.stream = false → ∃ x, t.cur.trap = some x ∧ x.code = 0x10 ∧ x.pc = f.cur.pc k.stream ∧ x.word = word ∧
          x.detail = BitVec.ofNat 64 va ∧ x.fmask = lanes ∧ x.stream = k.stream))) ∧
    ((∀ e ∈ s.keys, e.2.1 ≠ who ∨ e.2.2.1 ≠ n) → exec (.atomicRequest who n) s = .next s) ∧
    (∀ e, s.keys.find? (fun e => e.2.1 == who && e.2.2.1 == n) = some e →
      exec (.atomicRequest who n) s = .next (s.answer (.data (e.2.2.2.flatMap (fun r => bytesLE 8 r.toNat))))) ∧
    (s.cur.twin = none → ∀ m, exec (.pairCompare s.cur.ident m) s = .next s ∧ exec (.pairPartnerTimeout s.cur.ident) s = .next s) ∧
    (∀ x, s.cur.twin.isSome = true → s.cur.trap = some x → x.slot = none → x.code ≠ 0x82 → x.code ≠ 0x83 →
      ∃ t y, exec (.pairPartnerTimeout s.cur.ident) s = .next t ∧ t.cur.trap = some y ∧ y.code = 0x82 ∧ y.stream = x.stream ∧ y.pc = x.pc ∧
        t.mem = s.mem) ∧
    (∀ st, st ∈ s.pairWaiting ↔ (st = s.cur.streamOf true ∨ st = .comp) ∧ s.cur.twin.isSome = true ∧ (s.cur.pair st).since.isSome = true ∧
      (s.cur.pair st).matched = false) ∧
    (s.cur.trap = none → s.pairWaiting = [] → (∀ m, exec (.pairCompare s.cur.ident m) s = .next s) ∧ exec (.pairPartnerTimeout s.cur.ident) s = .next s) ∧
    (s.cur.trap = none → s.twinRuns = false → ∀ m, exec (.pairCompare s.cur.ident m) s = .next s) ∧
    (s.cur.trap = none → s.twinRuns = true → ∀ m, (∀ st, s.pairWaiting = [st] → exec (.pairCompare s.cur.ident m) s = .next (s.compared st m)) ∧
      ∀ a b, s.pairWaiting = [a, b] → ∃ st ∈ [a, b], exec (.pairCompare s.cur.ident m) s = .next ({ s with free := s.free + 1 }.compared st m)) ∧
    (∀ st m, let p := s.cur.pair st
      let second := match s.nextWord st with | (.instr i, f) => some (f.issueOf i) | _ => none
      let match_ := m = true ∧ second ≠ none ∧ second = p.issue
      (match_ → s.compared st m = s.modC (fun c => c.setPair st { p with matched := true })) ∧
      (¬match_ → p.fails < 3 → s.compared st m = s.modC (fun c => c.setPair st { since := none, issue := none, matched := false, fails := p.fails + 1 })) ∧
      (¬match_ → 3 ≤ p.fails → s.cur.sys = none → ∃ x, (s.compared st m).cur.trap = some x ∧ x.code = 0x83 ∧ x.stream = st ∧
        (s.compared st m).cur.pair st = Pair.none)) ∧
    (∀ (f : State) (k : Ctl) (sz : BitVec 2) (rd : BitVec 6) (bp : BitVec 5) (ord : BitVec 1) (imm : BitVec 24),
      s.issueOf (.stu k sz rd bp ord imm) = f.issueOf (.stu k sz rd bp ord imm) → s.word = f.word ∧ s.cur.live = f.cur.live ∧
        s.cur.S64 (2 * bp.toNat) = f.cur.S64 (2 * bp.toNat) ∧ s.cur.S rd.toNat = f.cur.S rd.toNat ∧
        (sz = 3 → s.cur.S (rd.toNat + 1) = f.cur.S (rd.toNat + 1))) ∧
    (∀ st since, s.cur.trap = none → s.pairWaiting = [st] → (s.cur.pair st).since = some since →
      ((s.now - since).toNat < 2 ^ 24 → exec (.pairPartnerTimeout s.cur.ident) s = .next s) ∧
      (s.cur.sys = none → 2 ^ 24 ≤ (s.now - since).toNat → ∃ t x, exec (.pairPartnerTimeout s.cur.ident) s = .next t ∧
        t.cur.trap = some x ∧ x.code = 0x82 ∧ x.stream = st ∧ t.cur.pair st = Pair.none))

/-- R151, R326, R327, R363, R391: a function's accesses: a disabled one answers Unsupported Request, as any does to an atomic; a failing read or
non-posted write is answered with Completer Abort, a failing posted write is dropped. Held at step 1 of boot the device serves none. The answer to
an atomic is the model's reading (log entry 69, DEDUCED). -/
def Claims.ClientRequests : Prop :=
  ∀ (s : State) (vf : Nat) (va : DWord) (rq : BusReq), (∀ bs, rq ≠ .hostWrite bs) →
    let run (t : State) : Prop := exec (.clientAccess vf va rq) s = .next t
    let up := s.monitor.bootStep ≠ 1
    (257 < vf ∨ s.monitor.bootStep = 1 → run s) ∧
    (vf ≤ 257 → up → s.enabled vf = false → run (s.answer .unsupported)) ∧
    (vf ≤ 257 → up → (∀ op wide x who n, rq = .atomic op wide x who n → run (s.answer .unsupported)) ∧
      (∀ wide x y who n, rq = .cas wide x y who n → run (s.answer .unsupported))) ∧
    (vf ≤ 257 → up → s.enabled vf = true → ∀ n, rq = .blockRead n → run (s.answer (.data ((List.range n).map (fun i => s.blockByte vf (va.toNat + i)))))) ∧
    (∀ asid, vf < 256 → up → s.vfAsid vf = some asid →
      let yard := if vf < 128 then 0 else 15
      let m : Maker := { who := (s.vfIdent vf).1, sync := Sync.start, die := yard / 4, ctx := { asid := asid, user := true, path := [(2, yard)] } }
      (∀ n, rq = .read n → ∀ r f, (s.vfIdent vf).2.clientPlaces m { acc := { rd := true } } (pieces va.toNat n) = (r, f) →
        run (match r with | some ps => (f.tagPlaces m false ps).answer (.data (f.bytesAt ps)) | none => f.answer .abort)) ∧
      (∀ bs posted, rq = .write bs posted → ∀ r f, (s.vfIdent vf).2.clientPlaces m { acc := { wr := true } } (pieces va.toNat bs.length) = (r, f) →
        run (match r with
          | some ps => let t := (f.tagPlaces m true ps).busStore (cutBytes ps bs); if posted then t else t.answer .ok
          | none => if posted then f else f.answer .abort)))

/-- R120, R146, R330, R363, R388: what another device of the site reads, writes and combines here, and how each request is answered; one at a
waking bank, and an atomic that finds the home directory full, is held and served later. The code of an address that is not this device's memory
is the model's reading (log entry 103, DEDUCED). -/
def Claims.PeerRequests : Prop :=
  ∀ (s : State) (dev : Nat) (pa : BitVec 52) (rq : BusReq),
    let a := pa.toNat
    let n := reqLen rq
    let run (t : State) : Prop := exec (.peerRequestArrival dev pa rq) s = .next t
    let done (t : State) (out : BusAns) : Prop := run t ∧ t.busOut = s.busOut ++ [out] ∧ ∀ b, b < a ∨ a + n ≤ b → t.byte b = s.byte b
    (63 < dev ∨ s.fabric = false → run (s.answer (.failed 0x10))) ∧
    (dev ≤ 63 → s.fabric = true → s.peerReaches a n = false → run (s.answer (.failed 0x07))) ∧
    (dev ≤ 63 → s.fabric = true → s.peerReaches a n = true → (∃ i < n, s.stalls (a + i) = true) →
      run { s with stalled := s.stalled ++ [(dev, pa, rq)] } ∧ peerProceeds (dev, pa, rq) s = .next s) ∧
    (dev ≤ 63 → s.fabric = true → s.peerReaches a n = true → (∀ i < n, s.stalls (a + i) = false) → (∃ i < n, s.gatedAt (a + i) = true) →
      run (s.answer (.failed 0x0D))) ∧
    (dev ≤ 63 → s.fabric = true → s.peerReaches a n = true → (∀ i < n, s.stalls (a + i) = false ∧ s.gatedAt (a + i) = false) →
      ((∃ i < n, s.poisoned (a + i) = true) → (∀ bs p, rq ≠ .write bs p) → ∃ t, run t ∧ t.busOut = s.busOut ++ [.failed 0x0C]) ∧
      (∀ k, rq = .read k → (∀ i < k, s.poisoned (a + i) = false) → run (s.answer (.data (s.load a k))) ∧
        peerProceeds (dev, pa, rq) s = .next ({ s with stalled := s.stalled.erase (dev, pa, rq) }.answer (.data (s.load a k)))) ∧
      (∀ bs p, rq = .write bs p → ∃ t, done t .ok ∧ t.load a bs.length = bs) ∧
      (∀ op wide x who k, rq = .atomic op wide x who k → (∀ i < n, s.poisoned (a + i) = false) →
        (∀ rs, s.keyed? (4096 + s.did) who k = some rs → run (s.answer (.data (rs.flatMap (fun r => bytesLE n r.toNat))))) ∧
        (s.keyed? (4096 + s.did) who k = none → 32 < a % 32 + n → run (s.answer (.failed 0x0A))) ∧
        (s.keyed? (4096 + s.did) who k = none → a % 32 + n ≤ 32 → 4096 ≤ (s.keys.filter (fun e => e.1 == 4096 + s.did)).length →
          run { s with stalled := s.stalled ++ [(dev, pa, rq)] }) ∧
        (s.keyed? (4096 + s.did) who k = none → a % 32 + n ≤ 32 → (s.keys.filter (fun e => e.1 == 4096 + s.did)).length < 4096 → op ≠ 11 →
          ∃ t, done t (.data (bytesLE n (s.loadNat a n))) ∧
            t.loadNat a n = amoNew op.toNat n (s.loadNat a n) (x.toNat % 2 ^ (8 * n)) % 2 ^ (8 * n))) ∧
      (∀ wide x y who k, rq = .cas wide x y who k → (∀ i < n, s.poisoned (a + i) = false) → s.keyed? (4096 + s.did) who k = none → a % 32 + n ≤ 32 →
        (s.keys.filter (fun e => e.1 == 4096 + s.did)).length < 4096 → ∃ t, done t (.data (bytesLE n (s.loadNat a n))) ∧
          t.loadNat a n = (if s.loadNat a n = x.toNat % 2 ^ (8 * n) then y.toNat % 2 ^ (8 * n) else s.loadNat a n)))

/-! The host's side and the monitor. -/

/-- R326 to R329, R391, R392: the attachment registers: what a write takes, and what it is ignored for, as any is while the device is held at
step 1 of boot. A 1 written to `FGO` leaves `FSTAT` pending; the device then checks the accepted words and gives the verdict. -/
def Claims.HostRegisters : Prop :=
  ∀ (s : State) (vf : Nat) (v : Word) (x : DWord),
    let b := s.vf vf
    let up := s.monitor.bootStep ≠ 1
    (257 < vf ∨ s.monitor.bootStep = 1 → exec (.fgoWrite vf v) s = .next s ∧ ∀ k, exec (.facceptWrite vf k x) s = .next s) ∧
    (s.monitor.bootStep = 1 → ∀ link r, exec (.windowRegisterWrite link r x) s = .next s) ∧
    (vf ≤ 257 → up → s.enabled vf = false → exec (.fgoWrite vf v) s = .next (s.answer .unsupported) ∧
      ∀ k, exec (.facceptWrite vf k x) s = .next (s.answer .unsupported)) ∧
    (s.enabled vf = true → v ≠ 1 → exec (.fgoWrite vf v) s = .next s) ∧
    (s.enabled vf = true → up → ∃ t, exec (.fgoWrite vf 1) s = .next t ∧ (t.vf vf).fstat = 0xFF ∧ (t.vf vf).accept = b.accept ∧
      t.accepted = s.accepted ∧ t.mem = s.mem) ∧
    (b.fstat = 0xFF →
      let w0 := (Sparse.get b.accept 0 0).toNat
      let bad := (∃ i < 64, ebit w0 i = true ∧ ebit (s.offered (decide (256 ≤ vf))) i = false) ∨ ebit w0 0 = false ∨
        ∃ k, 1 ≤ k ∧ k ≤ 3 ∧ Sparse.get b.accept k 0 ≠ 0
      (bad → ∃ t, negotiate vf s = .next t ∧ (t.vf vf).fstat = 0xA1 ∧ t.accepted = s.accepted) ∧
      (¬bad → ∀ a, vf < 256 → s.vfAsid vf = some a →
        (s.busyAsid a = true → ∃ t, negotiate vf s = .next t ∧ (t.vf vf).fstat = 0xA5 ∧ t.accepted = s.accepted) ∧
        (s.busyAsid a = false → ∃ t, negotiate vf s = .next t ∧ (t.vf vf).fstat = 0 ∧
          t.accepted = s.accepted.filter (fun e => e.1 != vf) ++ [(vf, BitVec.ofNat 64 w0)] ∧ t.functionsAccepted a = BitVec.ofNat 64 w0))) ∧
    (∀ k, s.enabled vf = true → (b.fstat = 0xFF ∨ 3 < k) → exec (.facceptWrite vf k x) s = .next s) ∧
    (∀ k ≤ 3, s.enabled vf = true → up → b.fstat ≠ 0xFF → ∃ t, exec (.facceptWrite vf k x) s = .next t ∧
      Sparse.get (t.vf vf).accept k 0 = x ∧ (t.vf vf).fstat = b.fstat ∧ t.mem = s.mem) ∧
    (∀ link, let w := Sparse.get s.windows link Window.zero
      (1 < link → ∀ r, exec (.windowRegisterWrite link r x) s = .next s) ∧
      (w.ctl.getLsbD 0 = true → exec (.windowRegisterWrite link .base x) s = .next s ∧ exec (.windowRegisterWrite link .len x) s = .next s ∧
        (x.getLsbD 0 = true → exec (.windowRegisterWrite link .ctl x) s = .next s)) ∧
      (link ≤ 1 → up → w.ctl.getLsbD 0 = false →
        (∃ t, exec (.windowRegisterWrite link .base x) s = .next t ∧ Sparse.get t.windows link Window.zero = { w with base := x }) ∧
        (x.toNat % 2 ^ 14 = 0 → x.toNat ≤ 2 ^ 40 → ∃ t, exec (.windowRegisterWrite link .len x) s = .next t ∧
          Sparse.get t.windows link Window.zero = { w with len := x })) ∧
      (link ≤ 1 → up → (w.ctl.getLsbD 0 = false ∨ x.getLsbD 0 = false) → ∃ t, exec (.windowRegisterWrite link .ctl x) s = .next t ∧
        (Sparse.get t.windows link Window.zero).ctl.toNat = x.toNat % 4)) ∧
    (∃ t, exec (.lifeselWrite v) s = .next t ∧ t.dreg 0x8B0 = v ∧ t.mem = s.mem)

/-- R22, R335, R336, R391, R392: booting, which starts the 16 system cores as device 0; the fabric brought up after it; updating a slot, the
image of the management port, saving the life-long counters, losing power, which a commit of fuses under way leaves between its old number and
its new one (log entry 117, DESIGN CHOICE). That the cores run as device 0 until a second `BOOT` takes the number is log entry 25, DESIGN CHOICE, and where the host's
memory stands whose window begins elsewhere log entry 130, DESIGN CHOICE (the model's choices). -/
def Claims.BootAndPower : Prop :=
  ∀ (s : State),
    (∀ fabric dev, s.powered = true → 1 < s.monitor.bootStep → s.monitor.bootStep ≠ 4 → exec (.boot fabric dev) s = .next s) ∧
    (∀ fabric dev, s.powered = false ∨ s.monitor.bootStep ≤ 1 → s.monitor.slotOk s.monitor.slotA = false → s.monitor.slotOk s.monitor.slotB = false →
      ∃ t, exec (.boot fabric dev) s = .next t ∧ t.powered = true ∧ t.monitor.bootStep = 1 ∧ t.cur = s.cur ∧ t.mem = s.mem) ∧
    (∀ fabric dev, s.powered = false ∨ s.monitor.bootStep ≤ 1 →
      (s.monitor.slotOk s.monitor.slotA = true ∨ s.monitor.slotOk s.monitor.slotB = true) →
      ∃ t, exec (.boot fabric dev) s = .next t ∧ t.powered = true ∧ t.monitor.bootStep = 4 ∧ t.agents.length = 16 ∧
        (∀ c ∈ t.agents, ∃ y, c.sys = some y ∧ y.lvl = 2 ∧ y.ie = false) ∧ t.fabric = s.fabric ∧ t.did = s.did) ∧
    (∀ fabric dev, s.powered = true → s.monitor.bootStep = 4 → ∃ t, exec (.boot fabric dev) s = .next t ∧ t.monitor.bootStep = 5 ∧
      (t.fabric = true ↔ fabric = true ∧ dev < 64) ∧ t.did = (if fabric = true ∧ dev < 64 then dev else 0) ∧
      (fabric = true → dev < 64 → dev ≠ 0 → s.hostMem = [] → ∀ a < 2 ^ 46, t.byte (a + dev * 2 ^ 46) = s.byte a)) ∧
    (∀ imgs, s.monitor.bootStep < 4 → exec (.slotUpdate imgs) s = .next s) ∧
    (∀ imgs, 4 ≤ s.monitor.bootStep → ∃ t, exec (.slotUpdate imgs) s = .next t ∧ t.mem = s.mem ∧
      let b := !((s.monitor.marker.map (fun k => k.slotB)).getD s.monitor.runB)
      t.monitor.slot b = imgs ∧ t.monitor.slot (!b) = s.monitor.slot (!b) ∧
      (s.monitor.slotOk imgs = false → t.monitor.marker = s.monitor.marker) ∧
      (s.monitor.slotOk imgs = true → ∃ k, t.monitor.marker = some k ∧ k.slotB = b ∧ k.trial = true ∧ k.tries = 3)) ∧
    (∀ img, s.monitor.bootStep ≠ 1 ∨ s.monitor.verdict img ≠ 0 ∨ 4 < imgKind img → exec (.managementPortImage img) s = .next s) ∧
    (∀ img, s.monitor.bootStep = 1 → s.monitor.verdict img = 0 → imgKind img ≤ 4 → ∃ t, exec (.managementPortImage img) s = .next t ∧
      kindIn t.monitor.slotA (imgKind img) = some img ∧ (∀ k, k ≠ imgKind img → kindIn t.monitor.slotA k = kindIn s.monitor.slotA k) ∧
      t.monitor.reg (imgKind img - 1) = Config.sha3 (s.monitor.reg (imgKind img - 1) ++ imgDigest img)) ∧
    (∃ t, exec .lifeCounterUpdate s = .next t ∧ t.monitor.life = t.monitor.lifeNow ∧ t.monitor.lifeTick = s.count 0 ∧ t.mem = s.mem) ∧
    (∀ cut, ∃ t, exec (.powerLoss cut) s = .next t ∧ t.powered = false ∧
      ((∀ link ≤ 1, (Sparse.get s.windows link Window.zero).base = 0) → t.mem = s.persistent) ∧ (∀ c ∈ t.mem, 2 ^ 160 ≤ c.1 ∨ rgn c.1 = 2) ∧
      t.agents = [Course.nobody] ∧ t.monitor.bootStep = 0 ∧
      t.monitor.slotA = s.monitor.slotA ∧ t.monitor.slotB = s.monitor.slotB ∧ t.monitor.keys = s.monitor.keys ∧
      t.monitor.life = s.monitor.life ∧ t.monitor.meas = [] ∧ (cut = false → t.monitor.marker = s.monitor.marker) ∧
      (cut = false ∨ (∀ k o, s.monitor.burning ≠ some (k, o, s.nextId)) → t.monitor.svn = s.monitor.svn) ∧
      (∀ kind old, let new := Sparse.get s.monitor.svn kind 0
        cut = true → s.monitor.burning = some (kind, old, s.nextId) → old ≤ new → t.monitor.marker = s.monitor.marker ∧
        old ≤ Sparse.get t.monitor.svn kind 0 ∧ Sparse.get t.monitor.svn kind 0 ≤ new ∧
        ∀ k, k ≠ kind → Sparse.get t.monitor.svn k 0 = Sparse.get s.monitor.svn k 0))

/-! Debug sessions. -/

/-- A request with the next sequence number arrives on a connection that has a session, no step under way and no request waiting. -/
def Claims.Takes (s : State) (conn : Nat) (seq : Word) (x : Session) : Prop :=
  s.sessions.find? (fun o => o.conn == conn) = some x ∧ (∀ o ∈ s.sessions, o.conn = conn → o.stepping = none ∧ o.waiting = []) ∧
    seq.toNat = x.lastSeq + 1

/-- R338, R340, R341: a connection's first message is `OPEN`, which answers with a nonce of 64 bytes; `PROVE` opens the session or closes the
connection; until then every other request, as each one out of sequence and each reserved opcode, is malformed (0xAB). A session ends
by `CLOSE`, by the timer, by a message with a bad header or with the management link, and what it halted resumes; a request that arrives during
a step waits for it. The nonce's bytes are free values (log entry 3, DESIGN CHOICE); that a request waits for a step's end, and that a session's end
resumes every halted agent of its ASID, are log entry 49, DESIGN CHOICE (DESIGN CHOICE). -/
def Claims.Sessions : Prop :=
  ∀ (s : State) (conn : Nat) (seq : Word),
    ((∀ o ∈ s.sessions, o.conn ≠ conn) →
      (∀ asid, seq = 1 → asid ≤ 2047 → ∃ t x b, exec (.openMsg conn seq asid) s = .next t ∧ x ∈ t.sessions ∧ x.conn = conn ∧ x.asid = asid ∧
        x.nonce = b ∧ b.length = 64 ∧ x.proven = false ∧ x.lastSeq = 1 ∧ x.lastMsg = s.count 0 ∧
        t.outbox = s.outbox ++ [⟨conn, 1, seq, 0, b⟩] ∧ t.mem = s.mem) ∧
      (∀ asid, seq ≠ 1 ∨ 2047 < asid → ∃ t, exec (.openMsg conn seq asid) s = .next t ∧ t.outbox = s.outbox ++ [⟨conn, 1, seq, 0xAB, []⟩]) ∧
      (∃ t, exec (.pingMsg conn seq) s = .next t ∧ t.outbox = s.outbox ++ [⟨conn, 4, seq, 0xAB, []⟩])) ∧
    (∀ x, Claims.Takes s conn seq x →
      let y := { x with lastMsg := s.count 0, lastSeq := seq.toNat }
      let s1 := s.setSession y
      let sends (i : Instr) (t : State) (op : Byte) (code : Code) (body : List Byte) : Prop := exec i s = .next (t.reply conn op seq code body)
      (∀ asid, sends (.openMsg conn seq asid) s1 1 0xAB []) ∧
      (∀ op, sends (.reservedDebugMessage conn seq op) s1 op 0xAB []) ∧
      (x.proven = false → sends (.pingMsg conn seq) s1 4 0xAB [] ∧ sends (.closeMsg conn seq) s1 3 0xAB [] ∧
        ∀ name, sends (.debugHalt conn seq name) s1 0x10 0xAB []) ∧
      (x.proven = true → sends (.pingMsg conn seq) s1 4 0 [] ∧ sends (.closeMsg conn seq) (s1.endSession y) 3 0 []) ∧
      (∀ key sig,
        (x.nonce = [] ∨ x.proven = true → sends (.proveMsg conn seq key sig) s1 2 0xAB []) ∧
        (x.nonce ≠ [] → x.proven = false →
          (s1.proofOk y key sig = true → sends (.proveMsg conn seq key sig) (s1.setSession { y with proven := true }) 2 0 []) ∧
          (s1.proofOk y key sig = false → sends (.proveMsg conn seq key sig) (s1.endSession y) 2 0xAC [])))) ∧
    (∀ x, s.sessions.find? (fun o => o.conn == conn) = some x → x.stepping = none → x.waiting = [] → seq.toNat ≠ x.lastSeq + 1 →
      exec (.pingMsg conn seq) s = .next ((s.setSession { x with lastMsg := s.count 0 }).reply conn 4 seq 0xAB [])) ∧
    (∀ x, s.sessions.find? (fun o => o.conn == conn) = some x → x.stepping.isSome = true →
      exec (.pingMsg conn seq) s = .next (s.setSession { x with lastMsg := s.count 0, waiting := x.waiting ++ [(seq, .ping)] })) ∧
    (∀ asid, (∀ x ∈ s.sessions, x.asid = asid → (s.count 0 - x.lastMsg).toNat < 24000000000) → exec (.debugSessionTimeout asid) s = .next s) ∧
    (∀ x, s.sessions = [x] → 24000000000 ≤ (s.count 0 - x.lastMsg).toNat → ∃ t, exec (.debugSessionTimeout x.asid) s = .next t ∧
      t.sessions = [] ∧ (x.proven = true → ∀ c ∈ t.agents, c.space = x.asid → c.halted = false)) ∧
    (∀ name area off bytes, 65536 < 32 + List.length (α := Byte) bytes →
      ((∀ o ∈ s.sessions, o.conn ≠ conn) → exec (.writeMsg conn seq name area off bytes) s = .next s) ∧
      (∀ x, s.sessions.find? (fun o => o.conn == conn) = some x → exec (.writeMsg conn seq name area off bytes) s = .next (s.endSession x))) ∧
    (∃ t, exec .managementLinkDrop s = .next t ∧ t.sessions = [] ∧
      (∀ x ∈ s.sessions, x.proven = true → ∀ c ∈ t.agents, c.space = x.asid → c.halted = false) ∧
      ((∀ c ∈ s.agents, c.savedAt = none ∧ s.latchBroken c = false) → t.mem = s.mem))

/-- R339, R341 to R344: halting, resuming, stepping, comparators. A name that is not of the session answers 0xA7, a target that is not halted
where it must be 0xA8, a step that does not issue within 2^16 cycles 0xA9. That a name without a live target is 0xA7 is log entry 49, DESIGN CHOICE (DESIGN CHOICE). -/
def Claims.DebugRuns : Prop :=
  ∀ (s : State) (conn : Nat) (seq : Word) (name : BitVec 128) (x : Session), Claims.Takes s conn seq x → x.proven = true →
    let y := { x with lastMsg := s.count 0, lastSeq := seq.toNat }
    let s1 := s.setSession y
    let sends (i : Instr) (t : State) (op : Byte) (code : Code) (body : List Byte) : Prop := exec i s = .next (t.reply conn op seq code body)
    (s.target x name = none → sends (.debugHalt conn seq name) s1 0x10 0xA7 [] ∧ sends (.resumeMsg conn seq name) s1 0x11 0xA7 [] ∧
      (∀ st cmp, sends (.stepMsg conn seq name st) s1 0x12 0xA7 [] ∧ sends (.clrbp conn seq name st cmp) s1 0x14 0xA7 []) ∧
      (∀ st cmp pc, sends (.setbp conn seq name st cmp pc) s1 0x13 0xA7 []) ∧ sends (.tstop conn seq name) s1 0x31 0xA7 []) ∧
    (∀ c, s.target x name = some c →
      sends (.debugHalt conn seq name) (s1.setHalted c true) 0x10 0 [] ∧
      (c.halted = false → sends (.resumeMsg conn seq name) s1 0x11 0xA8 [] ∧ sends (.stepMsg conn seq name 0) s1 0x12 0xA8 []) ∧
      (c.halted = true → sends (.resumeMsg conn seq name) (s1.setHalted c false) 0x11 0 []) ∧
      (∀ b : Byte, 1 < b.toNat → sends (.stepMsg conn seq name b) s1 0x12 0xAB [] ∧
        (∀ cmp, sends (.clrbp conn seq name b cmp) s1 0x14 0xAB []) ∧ ∀ cmp pc, sends (.setbp conn seq name b cmp pc) s1 0x13 0xAB []) ∧
      (∀ b : Byte, b.toNat ≤ 1 →
        let st : Stream := if b = 0 then .addr else .comp
        (c.halted = true → exec (.stepMsg conn seq name b) s =
          .next (s1.setSession { y with stepping := some (seq, c.ident, st, s.cycleOf c.die, nameThread name) })) ∧
        (∀ cmp : Byte, 3 < cmp.toNat → sends (.clrbp conn seq name b cmp) s1 0x14 0xAB [] ∧ ∀ pc, sends (.setbp conn seq name b cmp pc) s1 0x13 0xAB []) ∧
        (∀ cmp : Byte, cmp.toNat ≤ 3 →
          (∀ pc, ∃ z, sends (.setbp conn seq name b cmp pc) (s1.setSession z) 0x13 0 [] ∧ z.conn = conn ∧ z.asid = x.asid ∧
            ∀ e, e ∈ z.bps ↔ e = (c.nameKey, st, cmp.toNat, pc) ∨ e ∈ x.bps ∧ ¬(e.1 = c.nameKey ∧ e.2.1 = st ∧ e.2.2.1 = cmp.toNat)) ∧
          (∃ z, sends (.clrbp conn seq name b cmp) (s1.setSession z) 0x14 0 [] ∧ z.conn = conn ∧ z.asid = x.asid ∧
            ∀ e, e ∈ z.bps ↔ e ∈ x.bps ∧ ¬(e.1 = c.nameKey ∧ e.2.1 = st ∧ e.2.2.1 = cmp.toNat)))))

/-- R343, R344: a step that is late, a comparator that matches: the agent halts before the instruction. -/
def Claims.DebugEvents : Prop :=
  ∀ (s : State),
    ((∀ x ∈ s.sessions, x.stepping = none ∧ x.waiting = []) → exec .stepBlocked s = .next s) ∧
    (∀ x seq who st since thr, s.sessions = [x] → x.stepping = some (seq, who, st, since, thr) → x.waiting = [] →
      let cycle := s.cycleOf (s.dieOfAgent who)
      (cycle < since + 65536 → exec .stepBlocked s = .next s) ∧
      (since + 65536 ≤ cycle → ∃ t, exec .stepBlocked s = .next t ∧ t.sessions = [{ x with stepping := none }] ∧
        t.outbox = s.outbox ++ [⟨x.conn, 0x12, seq, 0xA9, []⟩] ∧ t.cur = s.cur)) ∧
    (∀ comp : Bool, let st : Stream := if comp then .comp else .addr
      (s.cur.halted = true ∨ s.bpHit st = false → exec (.breakpointMatch s.cur.ident comp) s = .next s) ∧
      (s.cur.halted = false → s.bpHit st = true → ∃ t, exec (.breakpointMatch s.cur.ident comp) s = .next t ∧
        t.cur = { s.cur with halted := true } ∧ t.mem = s.mem ∧ t.outbox.length = s.outbox.length + 1)) ∧
    (∀ who comp, s.focus who = none → exec (.breakpointMatch who comp) s = .next s)

/-- R339, R340, R341: what `READ` answers of each area, and what `WRITE` may change of a halted target, in its record too where it is streamed
out; a `WRITE` whose body is longer than 65,536 bytes has a bad header. What a joined name selects of an area for one thread is the model's choice
(log entry 105, DESIGN CHOICE), and so is the 0xAB of a `WRITE` that leaves a misaligned pc (log entry 49, DESIGN CHOICE). -/
def Claims.DebugReadsWrites : Prop :=
  ∀ (s : State) (conn : Nat) (seq : Word) (name : BitVec 128) (x : Session) (c : Course) (area off len : Word) (bytes : List Byte),
    Claims.Takes s conn seq x → x.proven = true → s.target x name = some c →
    let s1 := s.setSession { x with lastMsg := s.count 0, lastSeq := seq.toNat }
    let o := off.toNat
    let n := len.toNat
    let k := bytes.length
    let reads (t : State) (code : Code) (body : List Byte) : Prop :=
      exec (.readMsg conn seq name area off len) s = .next (t.reply conn 0x20 seq code body)
    let writes (t : State) (code : Code) : Prop := exec (.writeMsg conn seq name area off bytes) s = .next (t.reply conn 0x21 seq code [])
    ((n = 0 ∨ 65536 < n ∨ area = 0 ∨ 4 < area.toNat) → reads s1 0xAB []) ∧
    (n ≠ 0 → n ≤ 65536 →
      (area = 1 → (s1.shown c).2.2 < o + n → reads s1 0xAB []) ∧
      (area = 1 → o + n ≤ (s1.shown c).2.2 → reads { s1 with free := s1.free + 1 } 0 (s1.readShown c (nameThread name) o n)) ∧
      (area = 2 → ∀ ps t, s1.debugPlaces x.asid { acc := { rd := true } } (pieces o n) = (.ok ps, t) → reads t 0 (t.bytesAt ps)) ∧
      (area = 2 → ∀ code t, s1.debugPlaces x.asid { acc := { rd := true } } (pieces o n) = (.error code, t) → reads t code []) ∧
      (area = 3 → (∀ t ∈ x.traces, t.who ≠ c.ident) → reads s1 0xAB []) ∧
      (area = 4 → c.trapRec.length < o + n → reads s1 0xAB []) ∧
      (area = 4 → o + n ≤ c.trapRec.length → reads s1 0 ((c.trapRec.drop o).take n))) ∧
    (65536 < 32 + k → exec (.writeMsg conn seq name area off bytes) s = .next (s.endSession x)) ∧
    (k = 0 → writes s1 0xAB) ∧
    (k ≠ 0 → 32 + k ≤ 65536 →
      (c.halted = false → writes s1 0xA8) ∧
      (c.halted = true →
        (area.toNat ≠ 1 → area.toNat ≠ 2 → writes s1 0xAB) ∧
        (area = 1 → (∃ i < k, c.mayWrite (o + i) = false) → writes s1 0xAB) ∧
        (area = 1 → (∀ i < k, c.mayWrite (o + i) = true) →
          let m := s1.shown c
          let d := c.rewritten (m.1.store (m.2.1 + o) bytes) m.2.1
          let t := s1.modWhere (fun e => e.ident == c.ident) (fun _ => d)
          (d.misaligned .addr d.pcA = true ∨ d.misaligned .comp d.pcC = true → writes s1 0xAB) ∧
          (d.misaligned .addr d.pcA = false → d.misaligned .comp d.pcC = false →
            writes (match c.savedAt with | some a => t.unitStore (a + o) bytes | none => t) 0)) ∧
        (area = 2 → ∀ ps t, s1.debugPlaces x.asid { acc := { wr := true } } (pieces o k) = (.ok ps, t) → writes (t.busStore (cutBytes ps bytes)) 0) ∧
        (area = 2 → ∀ code t, s1.debugPlaces x.asid { acc := { wr := true } } (pieces o k) = (.error code, t) → writes t code)))

/-- R341, R345, R346: a trace starts with a `SYNC` packet in the first page of its buffer, stops with the offset reached, and frees whole pages
that have been written. The 0xAB of `TSTOP` and `TACK` without a trace, and of a `TACK` of more than was written, is log entry 49, DESIGN CHOICE (DESIGN CHOICE). -/
def Claims.Traces : Prop :=
  ∀ (s : State) (conn : Nat) (seq : Word) (name : BitVec 128) (x : Session) (c : Course),
    Claims.Takes s conn seq x → x.proven = true → s.target x name = some c →
    let y := { x with lastMsg := s.count 0, lastSeq := seq.toNat }
    let s1 := s.setSession y
    let sends (i : Instr) (t : State) (op : Byte) (code : Code) (body : List Byte) : Prop := exec i s = .next (t.reply conn op seq code body)
    (∀ (base : DWord) (pages : Word),
      let start := Instr.tstart conn seq name base pages
      ((c.sys.isSome = true ∨ pages = 0 ∨ base.toNat % 4096 ≠ 0 ∨ ∃ t ∈ x.traces, t.who = c.ident) → sends start s1 0x30 0xAA []) ∧
      (c.sys = none → pages ≠ 0 → base.toNat % 4096 = 0 → (∀ t ∈ x.traces, t.who ≠ c.ident) →
        (s1.traceFrames x.asid base.toNat pages.toNat = none → sends start s1 0x30 0xAA []) ∧
        (∀ fs, s1.traceFrames x.asid base.toNat pages.toNat = some fs →
          let t : Trace := { who := c.ident, frames := fs, pages := pages.toNat, wr := 0, rd := 0, lost := 0, lastTs := s.count c.die }
          let s2 := s1.setSession { y with traces := x.traces ++ [t] }
          sends start (s2.packet c t true (s2.syncPacket c)) 0x30 0 []))) ∧
    ((∀ t ∈ x.traces, t.who ≠ c.ident) → sends (.tstop conn seq name) s1 0x31 0xAB [] ∧ ∀ n, sends (.tack conn seq name n) s1 0x32 0xAB []) ∧
    (∀ t, x.traces.find? (fun t => t.who == c.ident) = some t →
      sends (.tstop conn seq name) (s1.setSession { y with traces := x.traces.filter (fun o => o.who != c.ident) }) 0x31 0
        (bytesLE 8 (t.wr % (4096 * t.pages))) ∧
      (∀ n : DWord, let k := n.toNat / 4096 * 4096
        (t.wr < t.rd + k → sends (.tack conn seq name n) s1 0x32 0xAB []) ∧
        (t.rd + k ≤ t.wr → sends (.tack conn seq name n)
          ((s1.setTrace { t with rd := t.rd + k }).overflowed c { t with rd := t.rd + k }) 0x32 0 []))) ∧
    (∀ (u : State) (t : Trace), t.lost = 0 → u.overflowed c t = u) ∧
    (∀ (u : State) (t : Trace), t.wr = 0 → t.rd = 0 → t.lost = 0 → 0 < t.pages →
      (u.packet c t true (u.syncPacket c)).load (t.frames.getD 0 0) 40 = u.syncPacket c)

/-! Words, steps, reset, invariants. -/

/-- R184 to R191, R195, R299: words written out field by field from the layouts, and the instructions they are. -/
def Obligations.DecodedWords : Prop :=
  decodeA 0x30052010C1080000 = .ok (.add ⟨3, 5, 2⟩ 3 1 2) ∧
  decodeA 0x3005220146FFFFFF = .ok (.addi ⟨3, 5, 2⟩ 5 6 0xFFFFFF) ∧
  decodeA 0x300523A1C7000008 = .ok (.ldu ⟨3, 5, 2⟩ 2 7 3 1 8) ∧
  decodeA 0x300524254B9FFFFC = .ok (.vld ⟨3, 5, 2⟩ 2 2 5 11 1 0 0x1FFFFC) ∧
  decodeA 0x3005258104600680 = .ok (.amo ⟨3, 5, 2⟩ 4 2 1 8 0 13) ∧
  decodeA 0x3005271457FFFFFF = .ok (.bcnd ⟨3, 5, 2⟩ 4 21 0x3FFFFFF) ∧
  decodeA 0x300528028C000000 = .ok (.cpy ⟨3, 5, 2⟩ 10 12) ∧
  decodeA 0x3005290128412E80 = .ok (.mma ⟨3, 5, 2⟩ 1 2 33 4 5 6 1) ∧
  decodeA 0x30052E100000BEEF = .ok (.svc ⟨3, 5, 2⟩ 0xBEEF) ∧
  decodeA 0x30052E64C0020000 = .ok (.tlbinvAsid ⟨3, 5, 2⟩ 19) ∧
  decodeC false 0x30052004382008208000000000000000 = .ok (.vadd ⟨⟨3, 5, 2⟩, 0, 0, 3, 1, 0, 0, 8⟩ ⟨1, 2, 4, 0, 0, 0, 0, 0, 0, 0, 0, 0⟩ .none) ∧
  decodeC false 0x300520040020082000000203FFFFFFF8 = .ok (.vadd ⟨⟨3, 5, 2⟩, 0, 0, 0, 0, 0, 0, 8⟩ ⟨1, 2, 0, 0, 0, 0, 0, 0, 0, 0, 0, 0⟩ (.imm 0xFFFFFFFE)) ∧
  decodeC false 0x3005208C068048A16329680000000000 = .ok (.ffma ⟨⟨3, 5, 2⟩, 0, 0, 0, 0, 6, 2, 0⟩ ⟨9, 10, 11, 12, 1, 0, 1, 0, 0, 1, 1, 5⟩ .none) ∧
  decodeC false 0x30052007002008206000002050C00000 = .ok (.vadd ⟨⟨3, 5, 2⟩, 3, 0, 0, 0, 0, 0, 8⟩ ⟨1, 2, 3, 0, 0, 0, 0, 0, 0, 0, 0, 0⟩ (.setB ⟨4, 5, 6, 0, 0, 0, 0, 0, 0, 0, 0, 0⟩)) ∧
  decodeC false 0x300522000000082060000053FFFFFFFC = .ok (.expr ⟨⟨3, 5, 2⟩, 0, 0, 0, 0, 0, 0, 0⟩ ⟨1, 2, 3, 0, 0, 0x014FFFFFFFF⟩) ∧
  decodeC false 0x300522802000000000000003FFFFFFFC = .ok (.cbr ⟨⟨3, 5, 2⟩, 0, 0, 2, 0, 0, 0, 0⟩ ⟨0, 0, 0, 0, 0, 0, 0, 0, 0, 0, 0, 0⟩ (.off 0xFFFFFFFF)) ∧
  decodeC true 0x30052804000003042000000000000000 = .ok (.add ⟨3, 5, 2⟩ 3 1 2)

/-- The A opcodes that R193 marks with a dash. -/
def Claims.reservedA (opc : Nat) : Bool :=
  [0x1E, 0x1F, 0x5D, 0x5E, 0x5F, 0x62, 0x63, 0x7B, 0x7E, 0x7F, 0x86, 0x87, 0x8D, 0x8E, 0x8F, 0x9F, 0xEE, 0xEF].contains opc ||
  (0x2B ≤ opc && opc ≤ 0x2F) || (0x33 ≤ opc && opc ≤ 0x37) || (0x50 ≤ opc && opc ≤ 0x57) || (0x68 ≤ opc && opc ≤ 0x6F) ||
  (0x93 ≤ opc && opc ≤ 0x97) || (0xA0 ≤ opc && opc ≤ 0xDF) || (0xF0 ≤ opc && opc ≤ 0xFE)

/-- The C opcodes below 0x200 that R194 reserves. -/
def Claims.reservedC (opc : Nat) : Bool :=
  opc == 0x00F || (0x014 ≤ opc && opc ≤ 0x01F) || (0x02B ≤ opc && opc ≤ 0x02F) || (0x032 ≤ opc && opc ≤ 0x03F) ||
  (0x043 ≤ opc && opc ≤ 0x04F) || (0x055 ≤ opc && opc ≤ 0x05F) || (0x064 ≤ opc && opc ≤ 0x06F) || (0x073 ≤ opc && opc ≤ 0x07F) ||
  (0x081 ≤ opc && opc ≤ 0x08F) || (0x094 ≤ opc && opc ≤ 0x09F) || (0x0A6 ≤ opc && opc ≤ 0x0FF) || (0x10D ≤ opc && opc ≤ 0x1FF)

/-- R183, R192 to R195: a reserved opcode of either format, the twin of a reserved A opcode in unified mode, and every twin or ring opcode outside
unified mode, is refused as 0x60; a reserved `SIG` as 0x61; the permanently undefined words decode to the instructions that trap. -/
def Claims.RefusedWords : Prop :=
  DecErr.opcode.code = 0x60 ∧ DecErr.control.code = 0x61 ∧ DecErr.zeroField.code = 0x62 ∧ DecErr.reserved.code = 0x63 ∧
  (∀ w : Nat, Claims.reservedA (bits 8 w 36) = true → decodeA w = .error .opcode) ∧
  (∀ w : Nat, Claims.reservedA (bits 8 w 36) = false → bits 8 w 36 ≠ 0xFF → (12 ≤ bits 4 w 44 ∧ bits 4 w 44 ≤ 14) → decodeA w = .error .control) ∧
  (∀ w : Nat, bits 8 w 36 = 0xFF → decodeA w = .ok (.udf (fld 36 w 0) (Ctl.of w 44))) ∧
  (∀ w : Nat, bits 10 w 98 = 0x3FF → ∀ u, decodeC u w = .ok (.undefinedCWord (CHdr.of w).k (fld 98 w 0))) ∧
  (∀ w : Nat, Claims.reservedC (bits 10 w 98) = true → ∀ u, decodeC u w = .error .opcode) ∧
  (∀ w : Nat, 0x200 ≤ bits 10 w 98 → bits 10 w 98 < 0x300 → Claims.reservedA (bits 10 w 98 - 0x200) = true → decodeC true w = .error .opcode) ∧
  (∀ w : Nat, 0x200 ≤ bits 10 w 98 → bits 10 w 98 < 0x3FF → decodeC false w = .error .opcode) ∧
  (∀ w : Nat, 0x302 ≤ bits 10 w 98 → bits 10 w 98 < 0x3FF → decodeC true w = .error .opcode)

/-- R184, R186: every well-formed A-format instruction is read back from its word, with every operand. The rows of `CTXREQ` share one word, whose
request block decides between them (R311). -/
def Obligations.RoundTripA : Prop :=
  ∀ i : Instr, i.WellFormed → i.isA = true → decodeA (encode i) = .ok (match i with
    | .ctxreqBind k bp => .ctxreqReservedOp k bp
    | .ctxreqUnbind k bp => .ctxreqReservedOp k bp
    | .ctxreqSwitch k bp => .ctxreqReservedOp k bp
    | .ctxreqStreamOut k bp => .ctxreqReservedOp k bp
    | .ctxreqStreamIn k bp => .ctxreqReservedOp k bp
    | i => i) ∧ encode i < 2 ^ 64

/-- R189 to R191, R194, R195: every well-formed C-format instruction is read back from its word, and every A-format one from its twin. -/
def Obligations.RoundTripC : Prop :=
  (∀ (i : Instr) (w : Nat), i.WellFormed → i.encC = some w → decodeC true w = .ok i ∧ w < 2 ^ 128 ∧
    (w / 2 ^ 98 % 2 ^ 10 < 0x200 → decodeC false w = .ok i)) ∧
  (∀ (i : Instr) (w : Nat), encodeTwin i = some w → (∀ j, decodeA (encode i) = .ok j → decodeC true w = .ok j) ∧ w < 2 ^ 128)

/-- R183: no two words mean one instruction: a word that decodes is the word of what it decodes to, so no bit of it is left unread. -/
def Claims.WordsAreUnique : Prop :=
  (∀ (w : Nat) (i : Instr), w < 2 ^ 64 → decodeA w = .ok i → encode i = w ∧ i.check = none) ∧
  (∀ (w : Nat) (i : Instr) (u : Bool), w < 2 ^ 128 → decodeC u w = .ok i → (bits 10 w 98 < 0x200 ∨ 0x300 ≤ bits 10 w 98) → i.encC = some w ∧ i.check = none)

/-- R33, R41, R181, R302: a step of a device with one agent, no event due, nothing on the agenda and no debug request waiting: when the word at
the program counter of one of its streams decodes, and no other stream of it may issue, the step is `exec` of that instruction, with the trace
packets of its issue and the choice that its front end has made, but for the trap of an illegal word or of a queue that can never serve it, which
awaits no choice (R183, R40); of a redundant pair, an instruction that both members must issue waits for their comparison first (R387); one that would read storage of its course with an
uncorrectable error traps 0x0C (R380; log entry 107, DESIGN CHOICE). A word that does not decode traps; one that a peer does not give is waited for
(R376; log entry 24, DESIGN CHOICE). An event at the head of the agenda is
`exec` of that event. A device without power takes no step but power-up (R336, R391; log entry 52,
DEDUCED); how a step is made up of its parts is log entry 1, DESIGN CHOICE (DESIGN CHOICE). -/
def Obligations.StepRunsDecoded : Prop :=
  (∀ (s f : State) (st : Stream), s.powered = true → s.agenda = [] → (∀ x ∈ s.sessions, x.waiting = []) → s.parked = [] →
    s.cur.entersEvent = false → s.cur.halted = false → st ∈ s.cur.streams → s.tooLate st = false →
    s.frontReady st 0 = true → s.fetchStalls st = false → (∀ x ∈ s.cur.streams, x ≠ st → s.frontReady x 0 = false) →
    let r : Ready := ⟨s.cur.frontKey st, s.cur.ident, st, s.cur.slot, s.cur.age st, false, .next s⟩
    let chosen (t : State) : State := if illegalWord f.cur.trap (.next t) then t else t.chose r
    (∀ i g, s.nextWord st = (.instr i, f) → exec (f.resolve i) f = .next g → acted f g = true →
      (f.cur.pairHeld st && f.awaitsPair g st (f.resolve i)) = false →
      let damaged := g.cur.trap = f.cur.trap ∧ f.readsDamaged g (f.resolve i) = true
      (f.bpHit st = false → ¬damaged → f.cur.twin = none → step s = .next (chosen (g.after f st (f.resolve i) false))) ∧
      (f.bpHit st = false → ¬damaged → f.cur.twin.isSome = true →
        step s = .next (chosen ((f.pairOrIssue g st (f.resolve i)).after f st (f.resolve i) false))) ∧
      (f.bpHit st = false → damaged → step s = .next (chosen ((f.trapAt st { code := 0x0C }).after f st (f.resolve i) false))) ∧
      (f.bpHit st = true → step s = .next ((f.haltHere st).chose r))) ∧
    (∀ k t, s.nextWord st = (.bad k t, f) → f.frontReady st k.dist.toNat = true →
      step s = .next (chosen ((f.trapAt st t).after f st (.exit ⟨0, 0, 0⟩) false))) ∧
    (match s.nextWord st with
      | (.lost, g) => step s = .next ((((g.unheard (g.cur.pc st).toNat 0 none st).after g st (.exit ⟨0, 0, 0⟩) false).chose r))
      | _ => True)) ∧
  (∀ (s : State) (st : Stream) (w : BitVec 128) (i : Instr) (f : State), s.fetch st = (.ok w, f) → f.cur.decodeIn st w.toNat = .ok i →
    s.nextWord st = (.instr i, { f with word := w })) ∧
  (∀ (s : State) (i : Instr) (r : List Instr), s.powered = true → s.agenda = i :: r → Machine.Instr.isEvent i = true → step s = exec i { s with agenda := r }) ∧
  (∀ (s : State), s.powered = false → (∀ f d r, s.agenda ≠ .boot f d :: r) → step s = .fault .powerOff)

/-- R4, R17, R22, R88, R131, R335: the device right after reset. What an unlisted byte reads as, and registers that the manual gives no reset value,
are the model's choice (log entries 2 and 5). -/
def Obligations.ResetState : Prop :=
  let s := State.reset
  s.powered = true ∧ s.cycle = 0 ∧ s.monitor.bootStep = 0 ∧ s.fabric = false ∧ s.tlb = [] ∧ s.launches = [] ∧ s.agents = [Course.nobody] ∧
  Course.nobody.retired = true ∧ (∀ n < 8, Course.blank.slotWord n 0 = 0x1000#32) ∧
  (∀ a, s.byte a = 0 ∧ s.poisoned a = false) ∧
  (∀ w p, (s.wall w).service = .inService ∧ (s.plane w p).st = .idle ∧ (s.plane w p).asid = none ∧ s.residents w p = []) ∧
  (∀ d, (s.die d).mhz = 2400 ∧ s.count d = 0 ∧ (s.die d).proms = []) ∧
  (∀ i, s.dreg i = 0) ∧ (∀ q, s.queue q = LQueue.zero) ∧ (∀ vf, s.enabled vf = true ↔ vf = 256 ∨ vf = 257)

/-- Log entry 5, R3: memory keeps its canonical form through every step, so that equal memories are equal data. -/
def Obligations.MemoryInvariant : Prop :=
  ∀ s t : State, s.Inv → step s = .next t → t.Inv

/-- Log entry 5 (DEDUCED), R3: the canonical form of memory holds at reset, where nothing is listed. The form is the model's choice, as in
`MemoryInvariant`: R3 gives the order of a value's bytes and says nothing of it. -/
def Obligations.ResetInv : Prop := State.reset.Inv

/-- R33, R183: until conditions 1 to 3 hold an instruction changes nothing; before a flag it waits on is zero it has no effect, unless a check of
its word in the present state traps; an instruction of any form whose flag stands at 63, and which would issue if that flag were zero, traps
0x6A (R34). -/
def Claims.IssueWaits : Prop :=
  ∀ (i : Instr) (k : Ctl) (s : State), i.ctl = some k →
    let st := s.cur.streamOf i.isA
    (s.frontReady st k.dist.toNat = false → exec i s = .next s) ∧
    (s.frontReady st k.dist.toNat = true → s.cur.flagsClear k.wait = false →
      exec i s = .next s ∨ ∃ t : Trp, exec i s = .next (s.trapAt st t)) ∧
    (∀ f t, sigFlag k = some f → 63 ≤ s.cur.flag f → k.wait.getLsbD f = false →
      exec i (s.modC (fun c => c.setFlag f 0)) = .next t → t.nextId ≠ s.nextId → exec i s = .next (s.trapAt st { code := 0x6A }))

/-- R31, R33 to R35, R174: what issuing itself changes, and that it changes nothing else: no register is written before its commit, and only
the issuing stream's program counter moves. -/
def Claims.IssueFrame : Prop :=
  ∀ (s : State) (st : Stream) (sig : Option Nat) (io : QueueUse) (p : Plan),
    let t := s.issued st sig io p
    let c := s.cur
    let d := t.cur
    t.mem = s.mem ∧ t.poison = s.poison ∧ t.tags = s.tags ∧ t.rels = s.rels ∧ t.tlb = s.tlb ∧ t.planes = s.planes ∧ t.parked = s.parked ∧
    t.dregs = s.dregs ∧ t.dies = s.dies ∧ t.shadows = s.shadows ∧ t.queues = s.queues ∧ t.monitor = s.monitor ∧ t.agenda = s.agenda ∧
    t.cycle = s.cycle ∧ t.nextId = s.nextId + 2 ∧ t.launches.length = s.launches.length ∧
    d.s = c.s ∧ d.w = c.w ∧ d.v = c.v ∧ d.p = c.p ∧ d.b = c.b ∧ d.qe = c.qe ∧ d.sys = c.sys ∧ d.meld = c.meld ∧ d.recon = c.recon ∧ d.sync = c.sync ∧
    d.trap = c.trap ∧ d.hold = c.hold ∧ d.endA = c.endA ∧ d.endC = c.endC ∧ d.ident = c.ident ∧
    d.pc st = p.target.getD (c.nextPc st) ∧ (∀ x, x ≠ st → d.pc x = c.pc x) ∧
    d.work = c.work ++ p.work s.nextId s.cycle st sig ∧
    (∀ f, d.flag f = if sig = some f then c.flag f + 1 else c.flag f) ∧
    (∀ q, (∀ e ∈ io.pops, e.1 ≠ q) → (∀ e ∈ io.pushes, e.1 ≠ q) → d.queue q = c.queue q) ∧
    (io = {} → d.queues = c.queues)

/-- R30, R202 to R206, R219, R221, R222, R254: a compute word other than a ring access touches neither memory nor translation nor any other agent,
whatever it comes to; and neither does any instruction of the address stream that only computes in registers, branches or moves queue entries. -/
def Obligations.NoMemoryTouched : Prop :=
  ∀ (s t : State) (i : Instr), exec i s = .next t →
    let same := t.mem = s.mem ∧ t.tags = s.tags ∧ t.rels = s.rels ∧ t.tlb = s.tlb ∧ t.poison = s.poison ∧ t.dregs = s.dregs ∧ t.planes = s.planes ∧
      t.parked = s.parked ∧ t.dies = s.dies ∧ t.shadows = s.shadows ∧ t.queues = s.queues
    (∀ v, i.cview = some v → v.opc < 0x300 → same) ∧
    (∀ h e, i = .expr h e → same) ∧
    (∀ (k : Ctl) (rd ra rb : BitVec 6) (imm : BitVec 24) (c : BitVec 4) (q : BitVec 6) (off : BitVec 26),
      i ∈ [Instr.nop k, .add k rd ra rb, .sub k rd ra rb, .and k rd ra rb, .or k rd ra rb, .xor k rd ra rb, .shl k rd ra rb, .shr k rd ra rb,
        .sar k rd ra rb, .mul k rd ra rb, .mulh k rd ra rb, .mulhn k rd ra rb, .div k rd ra rb, .divn k rd ra rb, .rem k rd ra rb, .remn k rd ra rb,
        .min k rd ra rb, .max k rd ra rb, .minn k rd ra rb, .maxn k rd ra rb, .set k rd ra rb c, .sel k rd ra rb c, .clz k rd ra, .popc k rd ra,
        .brev k rd ra, .addp k rd ra rb, .subp k rd ra rb, .shlp k rd ra rb, .shrp k rd ra rb, .mov k rd ra, .addi k rd ra imm, .andi k rd ra imm,
        .ori k rd ra imm, .xori k rd ra imm, .shli k rd ra imm, .shri k rd ra imm, .sari k rd ra imm, .muli k rd ra imm, .seti k rd ra imm,
        .movhi k rd ra imm, .addpi k rd ra imm, .br k off, .bcnd k c ra off, .call k off, .ret k, .jmpr k rd ra, .loop k c ra off,
        .qpush k q ra, .qpop k rd q] → same)

/-! Completion: where an instruction issues, or an event happens, with its own effect. -/

/-- R211, R212, R215 to R217: where the vector accesses complete. Every thread acted on reaches its own place through the translation register;
then a load pushes what the places hold, a store leaves its data in them and no other byte changed, and an atomic leaves the operation's result. -/
def Obligations.VectorAccessesComplete : Prop :=
  ∀ (s : State) (k : Ctl) (sz hint : BitVec 2) (q bt : BitVec 3) (rs rd rb : BitVec 6) (nr : BitVec 1) (imm : BitVec 21) (kind : BitVec 3)
      (scope : BitVec 4) (op : BitVec 5), s.Undisturbed →
    let c := s.cur
    let r := c.B bt.toNat
    let w := 2 ^ sz.toNat
    let n := if sz = 3 then 2 else 1
    let dq := 4 + q.toNat
    let iq := 4 + rs.toNat / 32
    let bq := 4 + rb.toNat
    let from_ := r.base + imm.signExtend 64
    let stride (t : Nat) : Nat := (from_ + (c.S rs.toNat).setWidth 64 + BitVec.ofNat 64 (t * w)).toNat
    let index (t : Nat) : Nat := (from_ + BitVec.ofNat 64 (((c.popped iq 0).word t).toNat * 2 ^ (rs.toNat % 32))).toNat
    let offset (t : Nat) : Nat := (r.base + BitVec.ofNat 64 ((c.popped dq 0).word t).toNat).toNat
    let data (t : Nat) : Nat := ((c.popped dq 0).word t).toNat + (if sz = 3 then ((c.popped dq 1).word t).toNat * 2 ^ 32 else 0)
    let completes (i : Instr) (io : QueueUse) (s' : State) (p : Plan) : Prop :=
      exec i s = .next (s'.issued (c.streamOf true) (sigFlag k) io p) ∧ s'.nextId = s.nextId ∧ p.lat = none
    let apart (ts : List Nat) (va : Nat → Nat) (m : Nat) : Prop :=
      ∀ t ∈ ts, ∀ u ∈ ts, t ≠ u → s.through r (va t) + m ≤ s.through r (va u) ∨ s.through r (va u) + m ≤ s.through r (va t)
    let others (s' : State) (ts : List Nat) (va : Nat → Nat) (m : Nat) : Prop :=
      ∀ a, (∀ t ∈ ts, a < s.through r (va t) ∨ s.through r (va t) + m ≤ a) → s'.byte a = s.byte a
    let loads (i : Instr) (io : QueueUse) (ts : List Nat) (va : Nat → Nat) : Prop :=
      s.Ready true k io → (∀ t ∈ ts, s.Reaches r { acc := { rd := true } } (va t) w) →
      ∃ s' p, completes i io s' p ∧ s'.mem = s.mem ∧
        p.writes = (List.range n).map (fun j => RegWrite.push q.toNat (pushTag s.nextId j)
            (vecEntry (ts.map (fun t => (t, BitVec.ofNat 32 (s.loadNat (s.through r (va t)) w / 2 ^ (32 * j))))))) ++
          (if nr = 1 then [RegWrite.push q.toNat (pushTag s.nextId n) (vecEntry (ts.map (fun t => (t, 0))))] else [])
    let stores (i : Instr) (io : QueueUse) (ts : List Nat) (va : Nat → Nat) : Prop :=
      s.Ready true k io → (∀ t ∈ ts, s.Reaches r { acc := { wr := true } } (va t) w) →
      ∃ s' p, completes i io s' p ∧ p.writes = [] ∧ others s' ts va w ∧
        (apart ts va w → ∀ t ∈ ts, s'.loadNat (s.through r (va t)) w = data t % 2 ^ (8 * w))
    let ats := (c.popped dq 0).threads c.live
    let atomics (i : Instr) (m : Nat) (new : Nat → Nat → Nat) : Prop :=
      let io : QueueUse := { pops := [(dq, 1), (bq, m)], pushes := if 4 ≤ rd.toNat then [(rd.toNat % 4, 1)] else [] }
      s.Ready true k io →
      (∀ t ∈ ats, s.Reaches r { acc := { rd := true, wr := true }, atomic := true, kind := kind.toNat, scope := scope.toNat } (offset t) 4) →
      (∀ u, (s.keys.filter (fun e => e.1 == u)).length < 4096) →
      ∃ s' p, completes i io s' p ∧ others s' ats offset 4 ∧
        (apart ats offset 4 → (∀ t ∈ ats, s'.loadNat (s.through r (offset t)) 4 = new t (s.loadNat (s.through r (offset t)) 4) % 2 ^ 32) ∧
          p.writes = (if 4 ≤ rd.toNat then [RegWrite.push (rd.toNat % 4) (pushTag s.nextId 0)
            (vecEntry (ats.map (fun t => (t, BitVec.ofNat 32 (s.loadNat (s.through r (offset t)) 4)))))] else []))
    loads (.vld k sz q bt rs nr hint imm) { pushes := [(q.toNat, n + nr.toNat)] } (threads c.live) stride ∧
    loads (.vldx k sz q bt rs nr hint imm) { pops := [(iq, 1)], pushes := [(q.toNat, n + nr.toNat)] } ((c.popped iq 0).threads c.live) index ∧
    stores (.vst k sz q bt rs nr hint imm) { pops := [(dq, n)] } ((c.popped dq 0).threads c.live) stride ∧
    stores (.vstx k sz q bt rs nr hint imm) { pops := [(iq, 1), (dq, n)] } ((c.popped iq 0).threads c.live) index ∧
    atomics (.vamo k rd kind scope op rb bt q) 1 (fun t o => amoNew op.toNat 4 o ((c.popped bq 0).word t).toNat) ∧
    atomics (.vcas k rd kind scope op rb bt q) 2
      (fun t o => if o = ((c.popped bq 0).word t).toNat then ((c.popped bq 1).word t).toNat else o)

/-- R224, R226, R227, R271, R283, R381: where barriers, sleeps, events, weight loads and page requests complete. A `BAR` completes in a course
that is in no gang or at course scope, as the last arrival of its generation, and at once where its launch's barriers are abandoned. -/
def Obligations.CourseInstructionsComplete : Prop :=
  ∀ (s : State) (k : Ctl) (rd ra rb sl : BitVec 6) (bp : BitVec 5) (fs : BitVec 3) (id scope : BitVec 4) (sp : BitVec 1),
    s.cur.sys = none → s.Ready true k {} →
    let c := s.cur
    let completes (i : Instr) (s' : State) (p : Plan) : Prop :=
      exec i s = .next (s'.issued (c.streamOf true) (sigFlag k) {} p) ∧ s'.nextId = s.nextId
    let n := (c.S ra.toNat).toNat
    let bar := Instr.bar k rd ra id scope
    (0 < n → n ≤ 65535 → c.barUnit scope.toNat = none →
      ∃ s', completes bar s' { lat := some 1, writes := [.s rd.toNat 0] } ∧ s'.mem = s.mem ∧ s'.cur.hold = c.hold) ∧
    (∀ u l, 0 < n → n ≤ 65535 → c.barUnit scope.toNat = some u → s.launchOf = some l → l.abandoned = true →
      completes bar s { lat := some 1, writes := [.s rd.toNat 0x27] }) ∧
    (∀ u l, 0 < n → n ≤ 65535 → c.barUnit scope.toNat = some u → s.launchOf = some l → l.abandoned = false →
      let b := s.barrier c.lid scope.toNat u id.toNat
      (b.count ≠ 0 → b.lid = c.lid ∧ b.n = n) → b.count + 1 = n →
      ∃ s', completes bar s' { lat := some 1, writes := [.s rd.toNat 0] } ∧ s'.mem = s.mem ∧
        (s'.barrier c.lid scope.toNat u id.toNat).epoch = b.epoch + 1) ∧
    (∃ s', completes (.sleept k rd) s' { lat := some 1 } ∧ s'.cur.hold = .sleep (c.S64 rd.toNat) ∧ s'.mem = s.mem) ∧
    (∃ s', completes (.wfe k) s' { lat := some 1 } ∧ s'.cur.hold = (if c.event then c.hold else .wfe) ∧ (c.event = true → s'.cur.event = false)) ∧
    (∃ s', completes (.sev k) s' { lat := some 1 } ∧ s'.mem = s.mem ∧ (c.hold = .none → s'.cur.event = true)) ∧
    (let fmt := c.slotWord fs.toNat 0
     let off := (c.S ra.toNat).toNat
     let z := (c.S rb.toNat).toNat
     let len := z % 2 ^ 15
     let src := (lo32 (c.S64 (2 * bp.toNat))).toNat
     c.slotBad fs.toNat = false → z / 2 ^ 16 ≠ 0 → z.testBit 15 = false → 0 < len → len ≤ 16383 → off % 32 = 0 → 512 ≤ off → off + 32 * len ≤ 524288 →
     fmtOk (Slot.of fmt 0).fmt = true →
     (sp = 1 → s.Undisturbed → s.SpReads src (32 * len) →
       let act : Act := .wbld c.plane sl.toNat fmt off (z / 2 ^ 16) len (0, s.load (s.scratch c.wall c.plane src) (32 * len)) s.now
       ∃ s', completes (.wbld k sl fs ra bp rb sp) s' { lat := none, act := act }) ∧
     (sp = 0 → s.bayWaking (bayOf c.wall) = false → (∀ a, s.stalls a = false) →
       ∃ s' code bs, completes (.wbld k sl fs ra bp rb sp) s' { lat := none, act := .wbld c.plane sl.toNat fmt off (z / 2 ^ 16) len (code, bs) s.now })) ∧
    (let m := (c.S rb.toNat).toNat
     ∀ off, spOffset (c.S ra.toNat) 8 = some off → 0 < m → m ≤ 256 → s.Undisturbed → s.SpReads off (8 * m) →
     (∀ i < m, let v := s.loadNat (s.scratch c.wall c.plane (off + 8 * i)) 8; v % 2 ^ 14 = 0 ∧ v < 2 ^ 56) →
     let list := (List.range m).map (fun i => s.scratch c.wall c.plane (off + 8 * i))
     ∃ s' wait, completes (.pgreq k ra rb) s' { lat := none, act := .pgreq list m wait } ∧ ∀ e ∈ wait, e.2 < m)

/-- R304 to R311: where the privileged instructions complete, at level 2 of a system core; a service of the monitor leaves its code in `s2`. -/
def Obligations.SystemInstructionsComplete : Prop :=
  ∀ (s : State) (k : Ctl) (ra rb : BitVec 6) (bp : BitVec 5) (gr pl : BitVec 2) (y : SysRegs), s.cur.sys = some y → y.lvl = 2 → s.Ready true k {} →
    let c := s.cur
    let completes (i : Instr) (s' : State) (p : Plan) : Prop := exec i s = .next (s'.issued (c.streamOf true) (sigFlag k) {} p) ∧ s'.nextId = s.nextId
    let x := (c.S ra.toNat).toNat
    let n := (c.S rb.toNat).toNat
    let va := (c.S64 (2 * bp.toNat)).toNat
    let waits (i : Instr) (a : Act) : Prop := completes i s { lat := none, act := a }
    (x < 2 ^ 11 → waits (.tlbinvAsid k ra) (.tlbinv (some x) none)) ∧
    (x < 2 ^ 11 → va % 2 ^ 14 = 0 → 0 < n → waits (.tlbinvRange k ra bp rb) (.tlbinv (some x) (some (va, n * 2 ^ 14)))) ∧
    waits (.tlbinvAll k) (.tlbinv none none) ∧ waits (.fencei k) .fencei ∧
    (va + n ≤ 2 ^ 52 → (∀ a, va ≤ a → a < va + n → s.isHbm a = true) → s.hostMem = [] →
      (∃ s', completes (.cinv k bp rb) s' { lat := none } ∧ s'.mem = s.mem ∧ ∀ m b, va < 32 * m + 32 → 32 * m < va + n → 0 < n → s'.bayHolds b m = false) ∧
      (∃ s', completes (.cwb k bp rb) s' { lat := none } ∧ s'.mem = s.mem ∧ ∀ m b, va < 32 * m + 32 → 32 * m < va + n → 0 < n → s'.bayDirty b m = false)) ∧
    (x ≤ 47 → n < 2 ^ 8 → ∃ s', completes (.waygtWays k ra rb) s' { lat := none } ∧ Sparse.get s'.waysOff x 0 = ~~~(BitVec.ofNat 8 n)) ∧
    (x ≤ 191 → pl ≠ 3 → (s.plane x pl.toNat).st ≠ .streaming →
      ∃ s', completes (.waygtBanks k ra rb pl) s' { lat := none } ∧ (s'.plane x pl.toNat).off = ~~~(c.S64 rb.toNat)) ∧
    (∃ s', completes (.halt k) s' { lat := some 1 } ∧ s'.cur.hold = (if y.evpend &&& y.even = 0 then .halt else .none)) ∧
    (va % 2 ^ 14 = 0 → 0 < n → (∀ i < n, s.isHbm (va + i * 2 ^ 14) = true) →
      ∃ s', completes (.granset k bp rb gr) s' { lat := none } ∧ s'.mem = s.mem ∧ ∀ i < n, Sparse.get s'.granule (va / 2 ^ 14 + i) 0 = gr) ∧
    (va + 31 < 2 ^ 52 → s.isHbm va = true → s.isHbm (va + 31) = true → s.poisoned va = false → s.poisoned (va + 31) = false →
      let f (off len : Nat) : Nat := s.loadNat (va + off) len
      let asks (i : Instr) (op : Nat) : Prop :=
        waits i (.ctx op (f 1 1) (f 2 2) (f 4 2) (BitVec.ofNat 64 (f 8 8)) (BitVec.ofNat 64 (f 16 8)))
      asks (.ctxreqBind k bp) 1 ∧ asks (.ctxreqUnbind k bp) 2 ∧ asks (.ctxreqSwitch k bp) 3 ∧ asks (.ctxreqStreamOut k bp) 4 ∧
      asks (.ctxreqStreamIn k bp) 5 ∧ asks (.ctxreqReservedOp k bp) (f 0 1)) ∧
    (∀ imm : BitVec 16, ∀ i ∈ [Instr.moncVerifyImage k, .moncExtendMeasurement k, .moncAttestationReport k, .moncConfirmSlot k, .moncCommitSvn k,
      .moncUnknownService k imm], ∃ (s' : State) (code : Code), completes i s' { lat := some 1, writes := [.s 2 (code.setWidth 32)] } ∧ s'.cur = c)

/-- R33, R37, R38, R69, R71, R72, R234 to R253, R286 to R291: where the words of the compute stream complete: each issues, touching no memory, once it may issue and
its operands have the shapes that its family asks for. -/
def Obligations.ComputeWordsComplete : Prop :=
  ∀ (s : State) (h : CHdr) (a : OpSet) (t : Tail) (e : ExprBody) (v : CView),
    let c := s.cur
    let completes (i : Instr) : Prop := ∃ (sh : CShape) (s' : State) (p : Plan), i.shape = some sh ∧ exec i s = .next (s'.issued .comp (sigFlag v.h.k) (portUse sh v) p) ∧
      s'.nextId = s.nextId ∧ s'.mem = s.mem
    let lanes := (c.groups v).flatMap (fun g => g.2.map (fun j => (g.1, j)))
    let shaped (n : OpSet → BitVec 7) : Prop := ∀ e ∈ lanes, c.shaped e.2 (n e.1).toNat = true
    let like (n m : OpSet → BitVec 7) : Prop := ∀ e ∈ lanes, c.shape e.2 (n e.1).toNat = c.shape e.2 (m e.1).toNat
    let chain (n m : OpSet → BitVec 7) : Prop := ∀ e ∈ lanes, c.qcols e.2 (n e.1).toNat = c.qrows e.2 (m e.1).toNat
    let square (n : OpSet → BitVec 7) : Prop := ∀ e ∈ lanes, c.qrows e.2 (n e.1).toNat = c.qcols e.2 (n e.1).toNat
    let plain (i : Instr) : Prop := s.ReadyC faceBad false i v → completes i
    let control (faces : Option Mask → BitVec 2 → Bool) (i : Instr) : Prop := s.ReadyC faces false i v → completes i
    let aligned (x : DWord) : Prop := x.toNat % c.wordBytes .comp = 0
    let branchAligned : Prop := aligned (c.branchC v.t)
    (∀ i ∈ [Instr.vadd h a t, .vsub h a t, .vmul h a t, .vmulh h a t, .vmad h a t, .vand h a t, .vor h a t, .vxor h a t, .vshl h a t, .vshr h a t,
      .vsar h a t, .vmin h a t, .vmax h a t, .vabs h a t, .vcmp h a t, .vsel h a t, .vclz h a t, .vpopc h a t], plain i) ∧
    (∀ i ∈ [Instr.fadd h a t, .fsub h a t, .fmul h a t, .ffma h a t, .fmin h a t, .fmax h a t, .frcp h a t, .frsq h a t, .fsqrt h a t, .fexp2 h a t,
      .flog2 h a t, .fcmp h a t, .fclass h a t], plain i) ∧
    (∀ i ∈ [Instr.plop h a t, .pfrom h a t, .pto h a t, .shfl h a t, .vote h a t, .ballot h a t, .scan h a t, .redux h a t, .vmov h a t,
      .vmovi h a t, .vbcast h a t], plain i) ∧
    (pairingBad false (c.slotOf h).fmt h.typ.toNat = false → plain (.cvt h a t)) ∧ (pairingBad true (c.slotOf h).fmt h.typ.toNat = false → plain (.cvti h a t)) ∧
    control noMeld (.pack h a t) ∧ control noMeld (.unpk h a t) ∧
    (courseChecks (fun part f => faceBad part f || f == 3) exprShape (exprView h e) false c = none → ¬ (c.vcnt ≤ e.s4.toNat ∧ e.s4.toNat < 120) →
      s.Ready false h.k (exprIo h e) →
      ∃ (s' : State) (p : Plan), exec (.expr h e) s = .next (s'.issued .comp (sigFlag h.k) (exprIo h e) p) ∧ s'.nextId = s.nextId ∧ s'.mem = s.mem) ∧
    control onlyPlain (.cnop h a t) ∧ (c.meld.length < 4 → control meldFaces (.meld h a t)) ∧ (c.meld.length < 4 → control loopFaces (.mloop h a t)) ∧
    (c.openBranch = false → (∃ m r, c.meld = m :: r ∧ (m.kind = 0 ∨ m.kind = 1)) → (∀ saved fa start n r, c.meld = .loop saved fa start n :: r → aligned start) →
      control onlyPlain (.mend h a t)) ∧
    ((∃ m r, c.meld = m :: r ∧ m.kind = 1) → control splitFaces (.mbrk h a t)) ∧
    (branchAligned → c.recon.length < 16 → control onlyPlain (.cbr h a t)) ∧
    (branchAligned → (∃ m r, c.recon = m :: r ∧ m.depth = c.meld.length ∧ aligned m.pc) → control onlyPlain (.cjoin h a t)) ∧
    (branchAligned → control onlyPlain (.cloop h a t)) ∧ (branchAligned → c.meld.length < 4 → control onlyPlain (.ccall h a t)) ∧
    (c.meld.length < 4 → (c.usrc v.a.s1.toNat).toNat % 16 = 0 → (∀ b, v.t.second = some b → (c.usrc b.s1.toNat).toNat % 16 = 0) → c.pcC.toNat % 16 = 0 →
      control (fun part f => faceBad part f) (.ccallPair h a t)) ∧
    ((c.meld = [] ∧ aligned (pair64 (c.W 26) (c.W 27))) ∨ (∃ ret r, c.meld = .suspend ret :: r ∧ c.openBranch = false ∧ aligned ret) ∨
        (∃ saved fa tb ret b r, c.meld = .pair saved fa tb ret b :: r ∧ c.openBranch = false ∧ aligned tb ∧ aligned ret) →
      control onlyPlain (.cret h a t)) ∧
    control splitFaces (.cexit h a t) ∧
    (∀ i ∈ [Instr.qzero h a t, .qld h a t, .qshape h a t], plain i) ∧
    (shaped OpSet.s1 → ∀ i ∈ [Instr.qst h a t, .qtrn h a t, .qdiagGet h a t, .qdiagAdd h a t, .qmv h a t], plain i) ∧
    (shaped OpSet.d → plain (.qdiagSet h a t)) ∧ (shaped OpSet.s1 → like OpSet.s1 OpSet.s2 → plain (.qadd h a t)) ∧
    (shaped OpSet.s1 → shaped OpSet.s2 → chain OpSet.s1 OpSet.s2 → plain (.qmul h a t)) ∧
    (shaped OpSet.s1 → shaped OpSet.s2 → chain OpSet.s1 OpSet.s2 →
      (∀ e ∈ lanes, c.qrows e.2 e.1.s3.toNat = c.qrows e.2 e.1.s1.toNat ∧ c.qcols e.2 e.1.s3.toNat = c.qcols e.2 e.1.s2.toNat) → plain (.qmad h a t)) ∧
    (shaped OpSet.s1 → square OpSet.s1 → plain (.qchol h a t) ∧ plain (.qlup h a t) ∧
      (shaped OpSet.s2 → (∀ e ∈ lanes, c.qrows e.2 e.1.s2.toNat = c.qrows e.2 e.1.s1.toNat) → plain (.qsolv h a t)))

/-- R34, R35, R111, R158, R264, R271, R282, R376: where the events of work in flight happen: the item, copy or operation named is
there and due, and the event does its part. -/
def Obligations.WorkEventsComplete : Prop :=
  ∀ (s f : State) (who : DWord) (id : Nat) (k : Work), s.focus who = some f → f.cur.workOf id = some k →
    let done (i : Instr) (q : State → Prop) : Prop := ∃ t, exec i s = .next t ∧ t.cur.workOf id = none ∧ q t
    (∀ d, k.due = some d → d ≤ f.cycle →
      (k.act = .none → done (.fixedLatencyCommit who id) (fun t => t.cur = f.cur.finish k)) ∧
      (k.act = .promise → done (.promiseWrite who id) (fun t => t.cur = f.cur.finish k))) ∧
    (k.due = none → k.early ≤ f.cycle → k.act = .none → done (.flagWorkComplete who id) (fun t => t.cur = f.cur.finish k)) ∧
    (∀ p slot fmt off tiles len code bs since, k.act = .wbld p slot fmt off tiles len (code, bs) since → (code = 0x10 → 2 ^ 24 ≤ (f.now - since).toNat) → 8 * slot + 8 ≤ 512 → 512 ≤ off → bs.length = 32 * len →
      (f.plane f.cur.wall p).engine = [] → (∀ l ∈ f.loading f.cur.wall p, id ≤ l.id) →
      done (.wbldComplete who id) (fun t => (t.plane f.cur.wall p).slotWord slot =
        loadedEntry fmt off tiles len (code, bs) ((f.plane f.cur.wall p).slotWord slot) % 2 ^ 64)) ∧
    (∀ p ch desc d, k.act = .chdef p ch desc → f.chuteNamed f.cur.wall p ch = false → parseChute desc = some d →
      done (.chdefReplace who id) (fun t => (t.plane f.cur.wall p).chute ch = d)) ∧
    (∀ n r close l, k.act = .snapc n r close → f.launches[n]? = some l → r ≠ 0 → (∀ j ∈ f.commits n, id ≤ j) → l.hasDomain = true →
      l.snapOpen = false → done (.snapcCommit who id) (fun t => t.cur.S r = 1)) ∧
    (∀ a r, k.act = .tlbinv a r → (∀ c ∈ f.agents, ∀ o ∈ c.work, (∀ wall, o.act ≠ .peer wall) ∧ ∀ word va ls wall since, o.act ≠ .lost word va ls wall since) →
      done (.tlbinvComplete who id) (fun t => ∀ e ∈ t.tlb, hitBy a r e.asid (e.page * 2 ^ e.size) (2 ^ e.size) = false)) ∧
    (∀ word va lanes wall since, k.act = .lost word va lanes wall since → 2 ^ 24 ≤ (f.now - since).toNat → f.cur.trap = none →
      f.cur.ended k.stream = false → f.cur.sys = none → ∃ t x, exec (.peerTimeout who id) s = .next t ∧ t.cur.trap = some x ∧ x.code = 0x10)

/-- R109, R110, R114, R118, R259, R268, R276, R367, R373: where the events of copies and of the matrix engine happen, each with its part of the
work: the copy or operation stands where the event finds it, and its accesses meet no fault, or, for a failure and a cancellation, do. -/
def Obligations.UnitEventsComplete : Prop :=
  ∀ (s : State) (w p ch : Nat) (j : CopyJob) (o : EngOp) (r : List EngOp),
    let pl := s.plane w p
    let q := (s.plane w j.plane).chute j.sch
    let job (t : State) : Option CopyJob := (t.chan w ch).job
    let engine (t : State) : List EngOp := (t.plane w p).engine
    (job s = some j →
      (∀ x s2, j.started = false → (j.scv = true → j.len / q.size ≤ q.published) → (s.primed w ch j).readSource w ch j = (none, x, s2) →
        s.anyStall w x.places = false → ∃ t, exec (.copyStart w ch) s = .next t ∧
          job t = some { j with started := true, data := x.data, nonres := x.nonres, sIdx := q.cons, since := s.count (dieOf w) }) ∧
      (j.started = true → j.scv = true → j.eaten < j.len / q.size →
        ∃ t, exec (.copyEntryConsumed w ch) s = .next t ∧ job t = some { j with eaten := j.eaten + 1 }) ∧
      (∀ ps x rest s1 s2, j.sigv = true → j.signalled = false → j.started = true → s.writePlaces w ch j = (none, ps, s1) →
        s.anyStall w ps = false → (s1.deliver w j ps []).sigPlaces w ch j sigHow = (none, x :: rest, s2) → s2.anyStall w [x] = false →
        s2.signalFull x = false → ∃ t, exec (.remoteSignal w ch) s = .next t ∧ job t = some { j with written := true, signalled := true }) ∧
      (j.started = true → j.scv = false → j.sigv = true → j.signalled = true → j.written = true →
        ∃ t, exec (.copyComplete w ch) s = .next t ∧ job t = none ∧ t.mem = s.mem) ∧
      (∀ ps bs s1 s2, j.started = true → j.scv = false → j.sigv = false → j.dcv = false → j.written = false →
        s.writePlaces w ch j = (none, ps, s1) → s1.bitmapPlaces w ch j = (none, bs, s2) → s.anyStall w (ps ++ bs) = false →
        ∃ t, exec (.copyComplete w ch) s = .next t ∧ job t = none ∧ t.mem = (s2.deliver w j ps bs).mem) ∧
      (∀ f written, s.copyFault w ch j = some f → ∃ t, exec (.copyFailure w ch f.code written) s = .next t ∧ job t = none)) ∧
    (∀ lid gid g i n hs lead, pl.gang lid gid = some g → g.first = some (i, n) → (s.heldAt w p lid gid).filter (fun e => g.arrived.testBit e.1.rank) = hs →
      hs.head? = some lead → g.size ≤ hs.length → pl.st = .active → (s.wall w).service = .inService →
      (∀ e ∈ hs, e.1.trap = none ∧ e.1.halted = false ∧ s.redefining w p e.2.a = false ∧ s.redefining w p e.2.c = false ∧
        e.1.flagFull e.2.sig = false ∧ s.breaksAt e.1 (e.1.streamOf true) = false ∧ pl.chutesBad e.2 (matrixFields i).1 (Slot.of (lead.1.slotWord (matrixFields i).2.1 0) 0) = false) →
      pl.engine.length < 16 →
      ∃ t op, exec (.gangIssue w p lid gid) s = .next t ∧ engine t = pl.engine ++ [op] ∧ op.members.length = hs.length) ∧
    (∀ xs s1, s.fireable w = some (p, o) → s.fireAll w p o.kt o.fa (pl.seatMembers o.kt [] o.members) = (none, xs, false, s1) → s1.planes = s.planes →
      ∃ t o', exec (.engineFire w) s = .next t ∧ engine t = o' :: pl.engine.tail ∧ o'.fired = true) ∧
    (∀ x xs st s1, s.fireable w = some (p, o) → s.fireAll w p o.kt o.fa (pl.seatMembers o.kt [] o.members) = (some x, xs, st, s1) → s1.planes = s.planes →
      ∃ t, exec (.engineOperationCancel w) s = .next t ∧ engine t = pl.engine.tail) ∧
    (s.runningPlane w = some p → pl.engine = o :: r → o.fired = true →
      (∀ n m, o.members[n]? = some m → m.eaten < m.need o.kt → (∀ x ∈ o.members.take n, x.a = m.a → x.need o.kt ≤ x.eaten) →
        ∃ t, exec (.engineEntryConsumed w n) s = .next t ∧ engine t = { o with members := o.members.set n { m with eaten := m.eaten + 1 } } :: r) ∧
      (∀ xs s1, (∀ m ∈ o.members, m.need o.kt ≤ m.eaten) → s.landAll w p o.members = (none, xs, s1) → s.anyStall w xs.flatten = false →
        s1.planes = s.planes → s1.cur = s.cur → s1.parked = s.parked → ∃ t, exec (.engineOperationComplete w) s = .next t ∧ engine t = r))

/-- R39, R150, R173, R174, R177, R198, R226, R302, R355, R357, R379, R387, R388: where the events of agents, launches and graphs happen. -/
def Obligations.LaunchEventsComplete : Prop :=
  ∀ (s f : State) (who : DWord) (n node : Nat), s.focus who = some f →
    let c := f.cur
    let l := s.launch n
    let x := l.node node
    (∀ v, c.hold = .sleep v → c.sys = none → c.trap = none → f.active c = true → c.promises = [] → v.toNat ≤ f.now.toNat →
      ∃ t, exec (.sleeptWake who) s = .next t ∧ t.cur.hold = .none ∧ t.mem = s.mem) ∧
    (∀ t0, c.trap = some t0 → t0.slot = none →
      let d := f.dreg64 0x880 + 32 * f.trapRing c t0.code
      (f.loadNat (d + 12) 4 + 2 ^ 32 - f.loadNat (d + 16) 4) % 2 ^ 32 ≠ f.loadNat (d + 8) 4 →
      ∃ t y, exec (.trapRecordWrite who) s = .next t ∧ t.cur.trap = some y ∧ y.slot.isSome = true ∧ y.code = t0.code) ∧
    (∀ core g y, s.focusCore core = some g → g.cur.sys = some y → y.ie = true → y.lvl.toNat ≤ 1 → y.evpend &&& y.even ≠ 0 → g.cur.hold = .none →
      g.cur.halted = false → ∃ t z, exec (.eventEntry core) s = .next t ∧ t.cur.sys = some z ∧ z.lvl = 1 ∧ z.ie = false ∧ z.sup.epc = g.cur.pcA ∧
        t.cur.pcA = y.sup.vbase + 0x1C0) ∧
    (∀ desc idx g t0, s.focusTrap desc idx = some g → g.cur.trap = some t0 → pairTrap t0.code = false → g.traceOf g.cur.ident = none →
      g.latchBroken g.cur = false →
      (∃ t, exec (.trackRetry desc idx) s = .next t ∧ t.cur.trap = none ∧ t.cur.pcA = g.cur.pcA ∧ t.cur.pcC = g.cur.pcC) ∧
      (∃ t, exec (.trackSkip desc idx) s = .next t ∧ t.cur.trap = none) ∧
      (g.cur.gang = 0 → ∃ t, exec (.trackTerminate desc idx) s = .next t ∧ t.cur.trap = none ∧ t.cur.endA = true ∧ t.cur.endC = true)) ∧
    (c.spent = true → c.gang = 0 → ∃ t, exec (.courseRetire who) s = .next t ∧ t.cur.ident = who ∧ t.cur.retired = true ∧ t.cur.resident = false) ∧
    (∀ va w g, s.cur.w6 = true → (va : DWord).toNat % 8 = 0 → (∀ e ∈ s.cur.icacheC, e.1 ≠ va.toNat) → s.fetchAt .comp va.toNat = (.ok w, g) →
      ∃ t, exec (.w6FillTranslate s.cur.ident va) s = .next t ∧ (va.toNat, w) ∈ t.cur.icacheC) ∧
    (∀ va lf g, s.translate s.cur.ctx (va : DWord).toNat {} = (.ok lf, g) → ∃ t, exec (.pageWalk s.cur.ident va) s = .next t ∧ t.tlb = g.tlb ∧ t.mem = s.mem) ∧
    (∀ e, s.keys.find? (fun e => e.2.1 == who && e.2.2.1 == n) = some e →
      ∃ t, exec (.atomicRequest who n) s = .next t ∧ t.busOut = s.busOut ++ [.data (e.2.2.2.flatMap (fun r => bytesLE 8 r.toNat))]) ∧
    (∀ st since, s.cur.trap = none → s.pairWaiting = [st] → (s.cur.pair st).since = some since →
      (∀ i g, s.twinRuns = true → s.nextWord st = (.instr i, g) → (s.cur.pair st).issue = some (g.issueOf i) →
        ∃ t, exec (.pairCompare s.cur.ident true) s = .next t ∧ (t.cur.pair st).matched = true) ∧
      (s.cur.sys = none → 2 ^ 24 ≤ (s.now - since).toNat → ∃ t y, exec (.pairPartnerTimeout s.cur.ident) s = .next t ∧ t.cur.trap = some y ∧ y.code = 0x82)) ∧
    (n < s.launches.length → l.complete = false → s.allRetired n = true → l.outst = [] → (s.launch (s.body n)).outst = [] →
      ∃ t, exec (.launchComplete n) s = .next t ∧ (t.launch n).complete = true) ∧
    (n < s.launches.length → l.complete = true → l.certified = false → l.suspect = false → (s.launch (s.body n)).suspect = false → l.hdr.nthr ≠ 0 →
      (∀ e ∈ s.ranOf n, e.2.toNat < (s.wall e.1).lastScan.toNat) → ∃ t, exec (.launchCertify n) s = .next t ∧ (t.launch n).certified = true) ∧
    (∀ y ys, n < s.launches.length → x.pending = y :: ys → x.expired = false → y.tick.toNat + x.timer ≤ (s.count x.die).toNat →
      ∃ t, exec (.kilnTimerExpire n node) s = .next t ∧ ((t.launch n).node node).expired = true) ∧
    (n < s.launches.length → s.mayLaunch n node = true → s.outranked n node = false →
      ∃ t, exec (.kilnLaunch n node) s = .next t ∧ ((t.launch n).node node).flight = x.flight + 1 ∧ t.agents.length = s.agents.length + 1) ∧
    (∀ m, l.complete = false → l.hdr.graph = true → (s.coursesOf n).filter (fun c => c.resident) = [s.cur] → s.waitsAt s.cur = some m →
      (∀ e ∈ l.nodes, e.2.pending ≠ [] → e.2.maxFlight ≤ e.2.flight) → s.cur.sys = none →
      ∃ t y, exec (.graphExhausted n) s = .next t ∧ t.cur.trap = some y ∧ y.code = 0x67)

/-- R105, R112, R120, R122, R167, R169, R172, R174, R311, R313, R314, R348, R349, R351, R382 to R385, R390, R392: where the events of queues, planes,
walls, caches, clocks and counters happen. -/
def Obligations.DeviceEventsComplete : Prop :=
  ∀ (s : State) (w p bay sector die : Nat) (v : Word), w < 192 → p < 3 → bay < 48 → die < 4 →
    let x := s.wall w
    let y := s.plane w p
    let q := 16 * die + p
    (∀ n u, s.shelf = [] → (∀ c ∈ s.agents, c.lonely = false) → (∀ j < 16, j ≠ p → s.queue (16 * die + j) = LQueue.zero) → (s.queue q).head = some n → (s.queue q).ents = [n] →
      n < s.launches.length → (s.launch n).queue = q → (s.launch n).hdr.fresh = true → s.placeFresh n = some u → (s.launch n).hdr.gcnt = 1 →
      (s.launch n).placed = 0 → (s.launch n).groups = 0 → s.pairQueue q = false →
      ∃ t, exec (.placementPass die) s = .next t ∧ (t.queue q).head = none ∧ (t.launch n).placed = 1 ∧ t.agents.length = s.agents.length + 1) ∧
    (∀ t0, (s.queue q).since = some t0 → t0.toNat + Config.ageLimit ≤ (s.count (queueDie q)).toNat →
      ∃ t, exec (.headAgeExpire q) s = .next t ∧ (t.queue q).closed = true) ∧
    (v.toNat ≤ 63 → s.num (s.qdesc v.toNat) 22 2 % 2 = 1 → s.num (s.qdesc v.toNat) 8 4 ≠ 0 →
      let d := s.qdesc v.toNat
      let next := s.num d 16 4 + s.inRing v.toNat
      (s.num d 12 4 + 2 ^ 33 - next) % 2 ^ 32 = 1 → s.entryBad (s.num d 0 8 + 64 * (next % s.num d 8 4)) = false →
      ∃ t, exec (.lqbellWrite v) s = .next t ∧ t.launches.length = s.launches.length + 1) ∧
    (v.toNat ≤ 63 → ∃ t, exec (.lqrstWrite v) s = .next t ∧ t.queue v.toNat = LQueue.zero) ∧
    (∀ work list n e, v.toNat % 4 ≠ 0 → s.parked = [] → s.cur.work = [work] → work.act = .pgreq list n [e] → e.1 % 2 ^ 30 = v.toNat / 4 →
      ∃ t, exec (.pgansWrite v) s = .next t ∧ t.loadNat (list.getD e.2 0) 8 = s.loadNat (list.getD e.2 0) 8 / 4 * 4 + v.toNat % 4) ∧
    (s.serving w = true → s.activePlane w = none → s.planesIn w .ready = [p] → y.wantActive = false →
      ∃ t, exec (.planeSwitchComplete w) s = .next t ∧ (t.plane w p).st = .active) ∧
    (∀ i n e b, y.stream = some ⟨false, i, n, e, b⟩ → y.st = .ready → s.planesIn w .streaming = [] → s.quiet w p = true →
      ∃ t, exec (.streamOutBegin w p) s = .next t ∧ (t.plane w p).st = .streaming) ∧
    (∀ n e b, y.st = .streaming → y.stream = some ⟨false, none, n, e, b⟩ →
      ∃ t, exec (.streamOutComplete w p) s = .next t ∧ (t.plane w p).st = .idle ∧ t.residents w p = []) ∧
    (∀ n e b, y.st = .streaming → y.stream = some ⟨true, none, n, e, b⟩ → (∀ c ∈ s.agents, c.moving = false) →
      ∃ t, exec (.streamInComplete w p) s = .next t ∧ (t.plane w p).st = .ready) ∧
    ((∀ n ∈ bayWalls bay, (s.wall n).service ≠ .drained ∧ (s.wall n).service ≠ .retest) → s.nextDrain bay = some w →
      ∃ t, exec (.plumbDrain bay) s = .next t ∧ (t.wall w).service = .drained) ∧
    (x.service = .drained → s.scanned w = true → (∃ t, exec (.plumbScanPass w) s = .next t ∧ (t.wall w).service = .inService ∧
      (t.wall w).lastScan = x.scanStart) ∧ ∀ pat, ∃ t, exec (.plumbScanFail w pat) s = .next t ∧ (t.wall w).service = .retest) ∧
    (x.service = .retest → s.scanned w = true → (∀ q < 3, s.seats w q = [] ∧ (s.plane w q).st ≠ .streaming) →
      ∃ t, exec (.wallRetire w) s = .next t ∧ (t.wall w).service = (if (s.die (w / 48)).spares = 0 then .retired else .spare)) ∧
    (∀ idx < 64, (s.plane w 0).waking.getLsbD idx = true →
      ∃ t, exec (.storageWakeComplete true (3 * w) idx) s = .next t ∧ (t.plane w 0).waking.getLsbD idx = false) ∧
    (s.bayDirty bay sector = true → ∃ t, exec (.bayCacheWriteback bay sector) s = .next t ∧ t.bayDirty bay sector = false ∧ t.mem = s.mem) ∧
    (s.bayHolds bay sector = false → s.isHbm (32 * sector) = true → s.wayOn bay 0 = true →
      ∃ t, exec (.bayCacheFill bay sector ⟨[]⟩) s = .next t ∧ t.bayHolds bay sector = true) ∧
    (∀ mhz, mhz ≠ 0 → (∀ e ∈ (s.die die).proms, (s.die die).cnt.toNat < e.1.toNat → e.2 ≤ mhz) →
      ∃ t, exec (.clockChange die mhz) s = .next t ∧ (t.die die).mhz = mhz) ∧
    (∃ t, exec (.promiseMature die) s = .next t ∧ ∀ e ∈ (t.die die).proms, (s.die die).cnt.toNat < e.1.toNat) ∧
    (∀ hi, ∃ t, exec (.swpbaseWrite hi v) s = .next t ∧ t.dreg (if hi then 0x873 else 0x872) = v) ∧
    (s.dreg 0x874 ≠ 0 → ∃ t, exec (.sweep die) s = .next t ∧ (t.die die).sweeps = (s.die die).sweeps + 1) ∧
    (∀ lset c, s.planesIn w .active = [p] → (s.bySlot w p).filter (fun c => c.lset == lset) = [c] → s.focus c.ident = some s →
      ∃ t, exec (.stallSample w lset) s = .next t ∧ Sparse.get (t.wall w).sampled lset 0 = c.slot + 1) ∧
    (∃ t, exec (.lifeselWrite v) s = .next t ∧ t.dreg 0x8B0 = v)

/-- R151, R326 to R330, R335, R336, R391, R392: where the requests of hosts and peers, booting, updates and the loss of power happen. -/
def Obligations.OutsideEventsComplete : Prop :=
  ∀ (s : State) (vf : Nat) (v : Word) (x : DWord),
    (s.monitor.bootStep ≠ 1 → s.enabled vf = true → (∃ t, exec (.fgoWrite vf 1) s = .next t ∧ (t.vf vf).fstat = 0xFF) ∧
      ∀ k ≤ 3, (s.vf vf).fstat ≠ 0xFF → ∃ t, exec (.facceptWrite vf k x) s = .next t ∧ Sparse.get (t.vf vf).accept k 0 = x) ∧
    (∀ n, s.monitor.bootStep ≠ 1 → s.enabled vf = true → vf ≤ 257 → ∃ t, exec (.clientAccess vf x (.blockRead n)) s = .next t ∧
      t.busOut = s.busOut ++ [.data ((List.range n).map (fun i => s.blockByte vf (x.toNat + i)))]) ∧
    (∀ link ≤ 1, s.monitor.bootStep ≠ 1 → (Sparse.get s.windows link Window.zero).ctl.getLsbD 0 = false →
      ∃ t, exec (.windowRegisterWrite link .base x) s = .next t ∧ (Sparse.get t.windows link Window.zero).base = x) ∧
    (∀ a, s.monitor.bootStep ≠ 1 → vf < 256 → s.vfAsid vf = some a → v.toNat ≤ 63 → s.qasid v.toNat = a →
      exec (.qbellWrite vf v) s = .next ((s.readQueue v.toNat).later [.placementPass (queueDie v.toNat)])) ∧
    (∀ dev n pa, dev ≤ 63 → s.fabric = true → s.peerReaches (pa : BitVec 52).toNat n = true →
      (∀ i < n, s.stalls (pa.toNat + i) = false ∧ s.gatedAt (pa.toNat + i) = false ∧ s.poisoned (pa.toNat + i) = false) →
      ∃ t, exec (.peerRequestArrival dev pa (.read n)) s = .next t ∧ t.busOut = s.busOut ++ [.data (s.load pa.toNat n)]) ∧
    (∀ fabric dev, s.powered = false ∨ s.monitor.bootStep ≤ 1 →
      (s.monitor.slotOk s.monitor.slotA = true ∨ s.monitor.slotOk s.monitor.slotB = true) →
      ∃ t, exec (.boot fabric dev) s = .next t ∧ t.powered = true ∧ t.monitor.bootStep = 4 ∧ t.agents.length = 16) ∧
    (∀ imgs, 4 ≤ s.monitor.bootStep → ∃ t b, exec (.slotUpdate imgs) s = .next t ∧ t.monitor.slot b = imgs) ∧
    (∀ img, s.monitor.bootStep = 1 → s.monitor.verdict img = 0 → imgKind img ≤ 4 →
      ∃ t, exec (.managementPortImage img) s = .next t ∧ kindIn t.monitor.slotA (imgKind img) = some img) ∧
    (∃ t, exec .lifeCounterUpdate s = .next t ∧ t.monitor.life = t.monitor.lifeNow) ∧
    (∀ cut, ∃ t, exec (.powerLoss cut) s = .next t ∧ t.powered = false ∧ t.agents = [Course.nobody])

/-- R338 to R346: where the messages of a debug client complete: each is answered with its status. -/
def Obligations.DebugMessagesComplete : Prop :=
  ∀ (s : State) (conn : Nat) (seq : Word) (name : BitVec 128) (x : Session),
    let replies (i : Instr) (op : Byte) (code : Code) (q : State → Prop) : Prop :=
      ∃ t pre b, exec i s = .next t ∧ t.outbox = s.outbox ++ pre ++ [⟨conn, op, seq, code, b⟩] ∧ q t
    ((∀ o ∈ s.sessions, o.conn ≠ conn) → ∀ asid, seq = 1 → asid ≤ 2047 →
      replies (.openMsg conn seq asid) 1 0 (fun t => ∃ y ∈ t.sessions, y.conn = conn ∧ y.asid = asid ∧ y.proven = false)) ∧
    (Claims.Takes s conn seq x →
      let y := { x with lastMsg := s.count 0, lastSeq := seq.toNat }
      let s1 := s.setSession y
      (∀ key sig, x.nonce ≠ [] → x.proven = false → s1.proofOk y key sig = true → replies (.proveMsg conn seq key sig) 2 0 (fun _ => True)) ∧
      (∀ op, replies (.reservedDebugMessage conn seq op) op 0xAB (fun _ => True)) ∧
      (x.proven = true →
        replies (.pingMsg conn seq) 4 0 (fun _ => True) ∧ replies (.closeMsg conn seq) 3 0 (fun t => ∀ o ∈ t.sessions, o.conn ≠ conn) ∧
        ∀ c, s.target x name = some c →
          replies (.debugHalt conn seq name) 0x10 0 (fun _ => True) ∧ (c.halted = true → replies (.resumeMsg conn seq name) 0x11 0 (fun _ => True)) ∧
          (c.halted = true → ∀ b : Byte, b.toNat ≤ 1 → ∃ t, exec (.stepMsg conn seq name b) s = .next t ∧ ∃ y ∈ t.sessions, y.conn = conn ∧ y.stepping.isSome = true) ∧
          (∀ b cmp : Byte, b.toNat ≤ 1 → cmp.toNat ≤ 3 → (∀ pc, replies (.setbp conn seq name b cmp pc) 0x13 0 (fun _ => True)) ∧
            replies (.clrbp conn seq name b cmp) 0x14 0 (fun _ => True)) ∧
          (∀ len : Word, len ≠ 0 → len.toNat ≤ c.trapRec.length → len.toNat ≤ 65536 → replies (.readMsg conn seq name 4 0 len) 0x20 0 (fun t => t.mem = s.mem)) ∧
          (∀ bs : List Byte, ∀ off : Word, bs ≠ [] → 32 + bs.length ≤ 65536 → c.halted = true → ∀ ps t1,
            s1.debugPlaces x.asid { acc := { wr := true } } (pieces off.toNat bs.length) = (.ok ps, t1) →
            replies (.writeMsg conn seq name 2 off bs) 0x21 0 (fun t => t.mem = (t1.busStore (cutBytes ps bs)).mem)) ∧
          (∀ (base : DWord) (pages : Word) fs, c.sys = none → pages ≠ 0 → base.toNat % 4096 = 0 → (∀ t ∈ x.traces, t.who ≠ c.ident) →
            s1.traceFrames x.asid base.toNat pages.toNat = some fs → replies (.tstart conn seq name base pages) 0x30 0 (fun _ => True)) ∧
          (∀ tr, x.traces.find? (fun t => t.who == c.ident) = some tr → replies (.tstop conn seq name) 0x31 0 (fun _ => True) ∧
            ∀ n : DWord, tr.rd + n.toNat / 4096 * 4096 ≤ tr.wr → tr.lost = 0 → replies (.tack conn seq name n) 0x32 0 (fun _ => True)))) ∧
    (∀ who st since thr, s.sessions = [x] → x.stepping = some (seq, who, st, since, thr) → x.waiting = [] → x.conn = conn →
      since + 65536 ≤ s.cycleOf (s.dieOfAgent who) → replies .stepBlocked 0x12 0xA9 (fun t => t.sessions = [{ x with stepping := none }])) ∧
    (∀ comp : Bool, s.cur.halted = false → s.bpHit (if comp then .comp else .addr) = true →
      ∃ t, exec (.breakpointMatch s.cur.ident comp) s = .next t ∧ t.cur.halted = true) ∧
    (s.sessions = [x] → 24000000000 ≤ (s.count 0 - x.lastMsg).toNat → ∃ t, exec (.debugSessionTimeout x.asid) s = .next t ∧ t.sessions = []) ∧
    (∃ t, exec .managementLinkDrop s = .next t ∧ t.sessions = [])

/-! Statements in several parts. -/

/-- `ScalarArithmetic`, `PairsAndImmediates`, `ZeroRegister`: each says the rules it formalises. -/
def Obligations.ScalarInstructions : Prop := Claims.ScalarArithmetic ∧ Claims.PairsAndImmediates ∧ Claims.ZeroRegister

/-- `ControlFlow`, `ExitEndsAddressStream`: each says the rules it formalises. -/
def Obligations.ControlTransfers : Prop := Claims.ControlFlow ∧ Claims.ExitEndsAddressStream

/-- `AtomicOperations`, `UniformAtomics`, `VectorAtomics`: each says the rules it formalises. -/
def Obligations.Atomics : Prop := Claims.AtomicOperations ∧ Claims.UniformAtomics ∧ Claims.VectorAtomics

/-- `VectorLoads`, `VectorStores`, `FaultsTakeNoEffect`: each says the rules it formalises. -/
def Obligations.VectorMemory : Prop := Claims.VectorLoads ∧ Claims.VectorStores ∧ Claims.FaultsTakeNoEffect

/-- `QueueMoves`, `TagTable`, `Fences`: each says the rules it formalises. -/
def Obligations.QueuesTagsFences : Prop := Claims.QueueMoves ∧ Claims.TagTable ∧ Claims.Fences

/-- `CourseSpecialRegisters`, `CoreSpecialRegisters`, `RegisterSpace`: each says the rules it formalises. -/
def Obligations.SpecialRegisters : Prop := Claims.CourseSpecialRegisters ∧ Claims.CoreSpecialRegisters ∧ Claims.RegisterSpace

/-- `Barriers`, `SleepAndEvents`: each says the rules it formalises. -/
def Obligations.BarriersAndSleep : Prop := Claims.Barriers ∧ Claims.SleepAndEvents

/-- `ThreadsActedOn`, `WordResults`, `PredicateResults`: each says the rules it formalises. -/
def Obligations.ComputeResults : Prop := Claims.ThreadsActedOn ∧ Claims.WordResults ∧ Claims.PredicateResults

/-- `FloatVectors`, `StochasticSteps`, `FloatSpecials`: each says the rules it formalises. -/
def Obligations.FloatArithmetic : Prop := Claims.FloatVectors ∧ Claims.StochasticSteps ∧ Claims.FloatSpecials

/-- `LaneOperations`, `IntegerFolds`: each says the rules it formalises. -/
def Obligations.LanesAndFolds : Prop := Claims.LaneOperations ∧ Claims.IntegerFolds

/-- `Conversions`, `FusedExpressions`: each says the rules it formalises. -/
def Obligations.ConversionsAndPrograms : Prop := Claims.Conversions ∧ Claims.FusedExpressions

/-- `Melds`, `ComputeControl`: each says the rules it formalises. -/
def Obligations.ComputeControlFlow : Prop := Claims.Melds ∧ Claims.ComputeControl

/-- `SmallMatrixShapes`, `SmallMatrixArithmetic`, `Factorisations`, `FactorSteps`, `Solutions`: each says the rules it formalises. -/
def Obligations.SmallMatrices : Prop := Claims.SmallMatrixShapes ∧ Claims.SmallMatrixArithmetic ∧ Claims.Factorisations ∧ Claims.FactorSteps ∧ Claims.Solutions

/-- `Commits`, `FlagWork`: each says the rules it formalises. -/
def Obligations.CommitsAndFlags : Prop := Claims.Commits ∧ Claims.FlagWork

/-- `ChuteIssue`, `ChuteCompletion`: each says the rules it formalises. -/
def Obligations.ChuteOperations : Prop := Claims.ChuteIssue ∧ Claims.ChuteCompletion

/-- `CopySteps`, `CompletionRecords`: each says the rules it formalises. -/
def Obligations.CopyRuns : Prop := Claims.CopySteps ∧ Claims.CompletionRecords

/-- `ExceptionEntry`, `SystemCalls`: each says the rules it formalises. -/
def Obligations.ExceptionsAndCalls : Prop := Claims.ExceptionEntry ∧ Claims.SystemCalls

/-- `TrapsAreRecorded`, `TrapSettlement`: each says the rules it formalises. -/
def Obligations.CourseTraps : Prop := Claims.TrapsAreRecorded ∧ Claims.TrapSettlement

/-- `UndefinedWords`, `RingAccesses`: each says the rules it formalises. -/
def Obligations.UndefinedWordsAndRings : Prop := Claims.UndefinedWords ∧ Claims.RingAccesses

/-- `TlbInvalidation`, `MaintenanceAndGates`: each says the rules it formalises. -/
def Obligations.TlbAndGates : Prop := Claims.TlbInvalidation ∧ Claims.MaintenanceAndGates

/-- `ContextRequests`, `PlaneSteps`: each says the rules it formalises. -/
def Obligations.Contexts : Prop := Claims.ContextRequests ∧ Claims.PlaneSteps

/-- `GangRegistration`, `MatrixIssue`: each says the rules it formalises. -/
def Obligations.GangsAndMatrixIssue : Prop := Claims.GangRegistration ∧ Claims.MatrixIssue

/-- `CourseRetires`, `LaunchReports`, `Kilns`: each says the rules it formalises. -/
def Obligations.LaunchesAndGraphs : Prop := Claims.CourseRetires ∧ Claims.LaunchReports ∧ Claims.Kilns

/-- `Placement`, `QueueDoorbells`: each says the rules it formalises. -/
def Obligations.PlacementAndQueues : Prop := Claims.Placement ∧ Claims.QueueDoorbells

/-- `CacheEvents`, `WalksAndFills`, `Clocks`, `CountersAndSamples`: each says the rules it formalises. -/
def Obligations.MemoryEvents : Prop := Claims.CacheEvents ∧ Claims.WalksAndFills ∧ Claims.Clocks ∧ Claims.CountersAndSamples

/-- `RemoteAgents`, `ClientRequests`, `PeerRequests`: each says the rules it formalises. -/
def Obligations.RemoteAgentsAndClients : Prop := Claims.RemoteAgents ∧ Claims.ClientRequests ∧ Claims.PeerRequests

/-- `HostRegisters`, `BootAndPower`: each says the rules it formalises. -/
def Obligations.HostAndMonitor : Prop := Claims.HostRegisters ∧ Claims.BootAndPower

/-- `Sessions`, `DebugEvents`: each says the rules it formalises. -/
def Obligations.DebugSessions : Prop := Claims.Sessions ∧ Claims.DebugEvents

/-- `DebugRuns`, `DebugReadsWrites`, `Traces`: each says the rules it formalises. -/
def Obligations.DebugRequests : Prop := Claims.DebugRuns ∧ Claims.DebugReadsWrites ∧ Claims.Traces

/-- `RefusedWords`, `WordsAreUnique`: each says the rules it formalises. -/
def Obligations.RefusedAndUniqueWords : Prop := Claims.RefusedWords ∧ Claims.WordsAreUnique

/-- `CopyIssue`, `ShadowBuffers`: each says the rules it formalises. -/
def Obligations.CopiesAndShadows : Prop := Claims.CopyIssue ∧ Claims.ShadowBuffers

/-- `IssueWaits`, `IssueFrame`: each says the rules it formalises. -/
def Obligations.IssueRules : Prop := Claims.IssueWaits ∧ Claims.IssueFrame

/-- `UniformLoadStore`, `StoredBytes`, `TranslationRegisters`: each says the rules it formalises. -/
def Obligations.UniformAccesses : Prop := Claims.UniformLoadStore ∧ Claims.StoredBytes ∧ Claims.TranslationRegisters

/-- `IntegerVectors`, `PredicatesAndMoves`: each says the rules it formalises. -/
def Obligations.VectorIntegers : Prop := Claims.IntegerVectors ∧ Claims.PredicatesAndMoves

/-- `EngineSteps`, `WeightLoads`: each says the rules it formalises. -/
def Obligations.EngineAndWeights : Prop := Claims.EngineSteps ∧ Claims.WeightLoads

/-- `Snapshots`, `PageRequests`: each says the rules it formalises. -/
def Obligations.SnapshotsAndPages : Prop := Claims.Snapshots ∧ Claims.PageRequests

/-- `Privileges`, `MonitorServices`: each says the rules it formalises. -/
def Obligations.PrivilegesAndServices : Prop := Claims.Privileges ∧ Claims.MonitorServices
end

