-- ==== Sys2Proof/Laws/State.lean ====
section
/-! SUPPORT. One law per field and update: what each named update leaves of every field of the state and of an agent. -/

namespace Sys2Proof.Machine

/-! `State.store` -/

@[simp] theorem State.store_powered (s : State) (a : Nat) (bs : List Byte) : (s.store a bs).powered = s.powered := rfl
@[simp] theorem State.store_agenda (s : State) (a : Nat) (bs : List Byte) : (s.store a bs).agenda = s.agenda := rfl
@[simp] theorem State.store_cur (s : State) (a : Nat) (bs : List Byte) : (s.store a bs).cur = s.cur := rfl
@[simp] theorem State.store_parked (s : State) (a : Nat) (bs : List Byte) : (s.store a bs).parked = s.parked := rfl
@[simp] theorem State.store_word (s : State) (a : Nat) (bs : List Byte) : (s.store a bs).word = s.word := rfl
@[simp] theorem State.store_free (s : State) (a : Nat) (bs : List Byte) : (s.store a bs).free = s.free := rfl
@[simp] theorem State.store_nextId (s : State) (a : Nat) (bs : List Byte) : (s.store a bs).nextId = s.nextId := rfl
@[simp] theorem State.store_nextStart (s : State) (a : Nat) (bs : List Byte) : (s.store a bs).nextStart = s.nextStart := rfl
@[simp] theorem State.store_mem (s : State) (a : Nat) (bs : List Byte) : (s.store a bs).mem = Memory.store s.mem a bs := rfl
@[simp] theorem State.store_poison (s : State) (a : Nat) (bs : List Byte) : (s.store a bs).poison = s.poison := rfl
@[simp] theorem State.store_tags (s : State) (a : Nat) (bs : List Byte) : (s.store a bs).tags = s.tags := rfl
@[simp] theorem State.store_rels (s : State) (a : Nat) (bs : List Byte) : (s.store a bs).rels = s.rels := rfl
@[simp] theorem State.store_lines (s : State) (a : Nat) (bs : List Byte) : (s.store a bs).lines = s.lines := rfl
@[simp] theorem State.store_hostMem (s : State) (a : Nat) (bs : List Byte) : (s.store a bs).hostMem = s.hostMem := rfl
@[simp] theorem State.store_waysOff (s : State) (a : Nat) (bs : List Byte) : (s.store a bs).waysOff = s.waysOff := rfl
@[simp] theorem State.store_waysWake (s : State) (a : Nat) (bs : List Byte) : (s.store a bs).waysWake = s.waysWake := rfl
@[simp] theorem State.store_granule (s : State) (a : Nat) (bs : List Byte) : (s.store a bs).granule = s.granule := rfl
@[simp] theorem State.store_tlb (s : State) (a : Nat) (bs : List Byte) : (s.store a bs).tlb = s.tlb := rfl
@[simp] theorem State.store_attrs (s : State) (a : Nat) (bs : List Byte) : (s.store a bs).attrs = s.attrs := rfl
@[simp] theorem State.store_walls (s : State) (a : Nat) (bs : List Byte) : (s.store a bs).walls = s.walls := rfl
@[simp] theorem State.store_planes (s : State) (a : Nat) (bs : List Byte) : (s.store a bs).planes = s.planes := rfl
@[simp] theorem State.store_shelf (s : State) (a : Nat) (bs : List Byte) : (s.store a bs).shelf = s.shelf := rfl
@[simp] theorem State.store_dies (s : State) (a : Nat) (bs : List Byte) : (s.store a bs).dies = s.dies := rfl
@[simp] theorem State.store_shadows (s : State) (a : Nat) (bs : List Byte) : (s.store a bs).shadows = s.shadows := rfl
@[simp] theorem State.store_past (s : State) (a : Nat) (bs : List Byte) : (s.store a bs).past = s.past := rfl
@[simp] theorem State.store_gbars (s : State) (a : Nat) (bs : List Byte) : (s.store a bs).gbars = s.gbars := rfl
@[simp] theorem State.store_launches (s : State) (a : Nat) (bs : List Byte) : (s.store a bs).launches = s.launches := rfl
@[simp] theorem State.store_rota (s : State) (a : Nat) (bs : List Byte) : (s.store a bs).rota = s.rota := rfl
@[simp] theorem State.store_accepted (s : State) (a : Nat) (bs : List Byte) : (s.store a bs).accepted = s.accepted := rfl
@[simp] theorem State.store_featBytes (s : State) (a : Nat) (bs : List Byte) : (s.store a bs).featBytes = s.featBytes := rfl
@[simp] theorem State.store_queues (s : State) (a : Nat) (bs : List Byte) : (s.store a bs).queues = s.queues := rfl
@[simp] theorem State.store_ctrCodes (s : State) (a : Nat) (bs : List Byte) : (s.store a bs).ctrCodes = s.ctrCodes := rfl
@[simp] theorem State.store_dregs (s : State) (a : Nat) (bs : List Byte) : (s.store a bs).dregs = s.dregs := rfl
@[simp] theorem State.store_keys (s : State) (a : Nat) (bs : List Byte) : (s.store a bs).keys = s.keys := rfl
@[simp] theorem State.store_did (s : State) (a : Nat) (bs : List Byte) : (s.store a bs).did = s.did := rfl
@[simp] theorem State.store_fabric (s : State) (a : Nat) (bs : List Byte) : (s.store a bs).fabric = s.fabric := rfl
@[simp] theorem State.store_monitor (s : State) (a : Nat) (bs : List Byte) : (s.store a bs).monitor = s.monitor := rfl
@[simp] theorem State.store_sessions (s : State) (a : Nat) (bs : List Byte) : (s.store a bs).sessions = s.sessions := rfl
@[simp] theorem State.store_outbox (s : State) (a : Nat) (bs : List Byte) : (s.store a bs).outbox = s.outbox := rfl
@[simp] theorem State.store_vfs (s : State) (a : Nat) (bs : List Byte) : (s.store a bs).vfs = s.vfs := rfl
@[simp] theorem State.store_windows (s : State) (a : Nat) (bs : List Byte) : (s.store a bs).windows = s.windows := rfl
@[simp] theorem State.store_busOut (s : State) (a : Nat) (bs : List Byte) : (s.store a bs).busOut = s.busOut := rfl
@[simp] theorem State.store_stalled (s : State) (a : Nat) (bs : List Byte) : (s.store a bs).stalled = s.stalled := rfl

/-! `State.storeNat` -/

@[simp] theorem State.storeNat_powered (s : State) (a n x : Nat) : (s.storeNat a n x).powered = s.powered := rfl
@[simp] theorem State.storeNat_agenda (s : State) (a n x : Nat) : (s.storeNat a n x).agenda = s.agenda := rfl
@[simp] theorem State.storeNat_cur (s : State) (a n x : Nat) : (s.storeNat a n x).cur = s.cur := rfl
@[simp] theorem State.storeNat_parked (s : State) (a n x : Nat) : (s.storeNat a n x).parked = s.parked := rfl
@[simp] theorem State.storeNat_word (s : State) (a n x : Nat) : (s.storeNat a n x).word = s.word := rfl
@[simp] theorem State.storeNat_free (s : State) (a n x : Nat) : (s.storeNat a n x).free = s.free := rfl
@[simp] theorem State.storeNat_nextId (s : State) (a n x : Nat) : (s.storeNat a n x).nextId = s.nextId := rfl
@[simp] theorem State.storeNat_nextStart (s : State) (a n x : Nat) : (s.storeNat a n x).nextStart = s.nextStart := rfl
@[simp] theorem State.storeNat_mem (s : State) (a n x : Nat) : (s.storeNat a n x).mem = Memory.store s.mem a (bytesLE n x) := rfl
@[simp] theorem State.storeNat_poison (s : State) (a n x : Nat) : (s.storeNat a n x).poison = s.poison := rfl
@[simp] theorem State.storeNat_tags (s : State) (a n x : Nat) : (s.storeNat a n x).tags = s.tags := rfl
@[simp] theorem State.storeNat_rels (s : State) (a n x : Nat) : (s.storeNat a n x).rels = s.rels := rfl
@[simp] theorem State.storeNat_lines (s : State) (a n x : Nat) : (s.storeNat a n x).lines = s.lines := rfl
@[simp] theorem State.storeNat_hostMem (s : State) (a n x : Nat) : (s.storeNat a n x).hostMem = s.hostMem := rfl
@[simp] theorem State.storeNat_waysOff (s : State) (a n x : Nat) : (s.storeNat a n x).waysOff = s.waysOff := rfl
@[simp] theorem State.storeNat_waysWake (s : State) (a n x : Nat) : (s.storeNat a n x).waysWake = s.waysWake := rfl
@[simp] theorem State.storeNat_granule (s : State) (a n x : Nat) : (s.storeNat a n x).granule = s.granule := rfl
@[simp] theorem State.storeNat_tlb (s : State) (a n x : Nat) : (s.storeNat a n x).tlb = s.tlb := rfl
@[simp] theorem State.storeNat_attrs (s : State) (a n x : Nat) : (s.storeNat a n x).attrs = s.attrs := rfl
@[simp] theorem State.storeNat_walls (s : State) (a n x : Nat) : (s.storeNat a n x).walls = s.walls := rfl
@[simp] theorem State.storeNat_planes (s : State) (a n x : Nat) : (s.storeNat a n x).planes = s.planes := rfl
@[simp] theorem State.storeNat_shelf (s : State) (a n x : Nat) : (s.storeNat a n x).shelf = s.shelf := rfl
@[simp] theorem State.storeNat_dies (s : State) (a n x : Nat) : (s.storeNat a n x).dies = s.dies := rfl
@[simp] theorem State.storeNat_shadows (s : State) (a n x : Nat) : (s.storeNat a n x).shadows = s.shadows := rfl
@[simp] theorem State.storeNat_past (s : State) (a n x : Nat) : (s.storeNat a n x).past = s.past := rfl
@[simp] theorem State.storeNat_gbars (s : State) (a n x : Nat) : (s.storeNat a n x).gbars = s.gbars := rfl
@[simp] theorem State.storeNat_launches (s : State) (a n x : Nat) : (s.storeNat a n x).launches = s.launches := rfl
@[simp] theorem State.storeNat_rota (s : State) (a n x : Nat) : (s.storeNat a n x).rota = s.rota := rfl
@[simp] theorem State.storeNat_accepted (s : State) (a n x : Nat) : (s.storeNat a n x).accepted = s.accepted := rfl
@[simp] theorem State.storeNat_featBytes (s : State) (a n x : Nat) : (s.storeNat a n x).featBytes = s.featBytes := rfl
@[simp] theorem State.storeNat_queues (s : State) (a n x : Nat) : (s.storeNat a n x).queues = s.queues := rfl
@[simp] theorem State.storeNat_ctrCodes (s : State) (a n x : Nat) : (s.storeNat a n x).ctrCodes = s.ctrCodes := rfl
@[simp] theorem State.storeNat_dregs (s : State) (a n x : Nat) : (s.storeNat a n x).dregs = s.dregs := rfl
@[simp] theorem State.storeNat_keys (s : State) (a n x : Nat) : (s.storeNat a n x).keys = s.keys := rfl
@[simp] theorem State.storeNat_did (s : State) (a n x : Nat) : (s.storeNat a n x).did = s.did := rfl
@[simp] theorem State.storeNat_fabric (s : State) (a n x : Nat) : (s.storeNat a n x).fabric = s.fabric := rfl
@[simp] theorem State.storeNat_monitor (s : State) (a n x : Nat) : (s.storeNat a n x).monitor = s.monitor := rfl
@[simp] theorem State.storeNat_sessions (s : State) (a n x : Nat) : (s.storeNat a n x).sessions = s.sessions := rfl
@[simp] theorem State.storeNat_outbox (s : State) (a n x : Nat) : (s.storeNat a n x).outbox = s.outbox := rfl
@[simp] theorem State.storeNat_vfs (s : State) (a n x : Nat) : (s.storeNat a n x).vfs = s.vfs := rfl
@[simp] theorem State.storeNat_windows (s : State) (a n x : Nat) : (s.storeNat a n x).windows = s.windows := rfl
@[simp] theorem State.storeNat_busOut (s : State) (a n x : Nat) : (s.storeNat a n x).busOut = s.busOut := rfl
@[simp] theorem State.storeNat_stalled (s : State) (a n x : Nat) : (s.storeNat a n x).stalled = s.stalled := rfl

/-! `State.setWall` -/

@[simp] theorem State.setWall_powered (s : State) (w : Nat) (x : Wall) : (s.setWall w x).powered = s.powered := rfl
@[simp] theorem State.setWall_agenda (s : State) (w : Nat) (x : Wall) : (s.setWall w x).agenda = s.agenda := rfl
@[simp] theorem State.setWall_cur (s : State) (w : Nat) (x : Wall) : (s.setWall w x).cur = s.cur := rfl
@[simp] theorem State.setWall_parked (s : State) (w : Nat) (x : Wall) : (s.setWall w x).parked = s.parked := rfl
@[simp] theorem State.setWall_word (s : State) (w : Nat) (x : Wall) : (s.setWall w x).word = s.word := rfl
@[simp] theorem State.setWall_free (s : State) (w : Nat) (x : Wall) : (s.setWall w x).free = s.free := rfl
@[simp] theorem State.setWall_nextId (s : State) (w : Nat) (x : Wall) : (s.setWall w x).nextId = s.nextId := rfl
@[simp] theorem State.setWall_nextStart (s : State) (w : Nat) (x : Wall) : (s.setWall w x).nextStart = s.nextStart := rfl
@[simp] theorem State.setWall_mem (s : State) (w : Nat) (x : Wall) : (s.setWall w x).mem = s.mem := rfl
@[simp] theorem State.setWall_poison (s : State) (w : Nat) (x : Wall) : (s.setWall w x).poison = s.poison := rfl
@[simp] theorem State.setWall_tags (s : State) (w : Nat) (x : Wall) : (s.setWall w x).tags = s.tags := rfl
@[simp] theorem State.setWall_rels (s : State) (w : Nat) (x : Wall) : (s.setWall w x).rels = s.rels := rfl
@[simp] theorem State.setWall_lines (s : State) (w : Nat) (x : Wall) : (s.setWall w x).lines = s.lines := rfl
@[simp] theorem State.setWall_hostMem (s : State) (w : Nat) (x : Wall) : (s.setWall w x).hostMem = s.hostMem := rfl
@[simp] theorem State.setWall_waysOff (s : State) (w : Nat) (x : Wall) : (s.setWall w x).waysOff = s.waysOff := rfl
@[simp] theorem State.setWall_waysWake (s : State) (w : Nat) (x : Wall) : (s.setWall w x).waysWake = s.waysWake := rfl
@[simp] theorem State.setWall_granule (s : State) (w : Nat) (x : Wall) : (s.setWall w x).granule = s.granule := rfl
@[simp] theorem State.setWall_tlb (s : State) (w : Nat) (x : Wall) : (s.setWall w x).tlb = s.tlb := rfl
@[simp] theorem State.setWall_attrs (s : State) (w : Nat) (x : Wall) : (s.setWall w x).attrs = s.attrs := rfl
@[simp] theorem State.setWall_walls (s : State) (w : Nat) (x : Wall) : (s.setWall w x).walls = Sparse.set s.walls w x Wall.zero := rfl
@[simp] theorem State.setWall_planes (s : State) (w : Nat) (x : Wall) : (s.setWall w x).planes = s.planes := rfl
@[simp] theorem State.setWall_shelf (s : State) (w : Nat) (x : Wall) : (s.setWall w x).shelf = s.shelf := rfl
@[simp] theorem State.setWall_dies (s : State) (w : Nat) (x : Wall) : (s.setWall w x).dies = s.dies := rfl
@[simp] theorem State.setWall_shadows (s : State) (w : Nat) (x : Wall) : (s.setWall w x).shadows = s.shadows := rfl
@[simp] theorem State.setWall_past (s : State) (w : Nat) (x : Wall) : (s.setWall w x).past = s.past := rfl
@[simp] theorem State.setWall_gbars (s : State) (w : Nat) (x : Wall) : (s.setWall w x).gbars = s.gbars := rfl
@[simp] theorem State.setWall_launches (s : State) (w : Nat) (x : Wall) : (s.setWall w x).launches = s.launches := rfl
@[simp] theorem State.setWall_rota (s : State) (w : Nat) (x : Wall) : (s.setWall w x).rota = s.rota := rfl
@[simp] theorem State.setWall_accepted (s : State) (w : Nat) (x : Wall) : (s.setWall w x).accepted = s.accepted := rfl
@[simp] theorem State.setWall_featBytes (s : State) (w : Nat) (x : Wall) : (s.setWall w x).featBytes = s.featBytes := rfl
@[simp] theorem State.setWall_queues (s : State) (w : Nat) (x : Wall) : (s.setWall w x).queues = s.queues := rfl
@[simp] theorem State.setWall_ctrCodes (s : State) (w : Nat) (x : Wall) : (s.setWall w x).ctrCodes = s.ctrCodes := rfl
@[simp] theorem State.setWall_dregs (s : State) (w : Nat) (x : Wall) : (s.setWall w x).dregs = s.dregs := rfl
@[simp] theorem State.setWall_keys (s : State) (w : Nat) (x : Wall) : (s.setWall w x).keys = s.keys := rfl
@[simp] theorem State.setWall_did (s : State) (w : Nat) (x : Wall) : (s.setWall w x).did = s.did := rfl
@[simp] theorem State.setWall_fabric (s : State) (w : Nat) (x : Wall) : (s.setWall w x).fabric = s.fabric := rfl
@[simp] theorem State.setWall_monitor (s : State) (w : Nat) (x : Wall) : (s.setWall w x).monitor = s.monitor := rfl
@[simp] theorem State.setWall_sessions (s : State) (w : Nat) (x : Wall) : (s.setWall w x).sessions = s.sessions := rfl
@[simp] theorem State.setWall_outbox (s : State) (w : Nat) (x : Wall) : (s.setWall w x).outbox = s.outbox := rfl
@[simp] theorem State.setWall_vfs (s : State) (w : Nat) (x : Wall) : (s.setWall w x).vfs = s.vfs := rfl
@[simp] theorem State.setWall_windows (s : State) (w : Nat) (x : Wall) : (s.setWall w x).windows = s.windows := rfl
@[simp] theorem State.setWall_busOut (s : State) (w : Nat) (x : Wall) : (s.setWall w x).busOut = s.busOut := rfl
@[simp] theorem State.setWall_stalled (s : State) (w : Nat) (x : Wall) : (s.setWall w x).stalled = s.stalled := rfl

/-! `State.setPlane` -/

@[simp] theorem State.setPlane_powered (s : State) (w p : Nat) (x : Plane) : (s.setPlane w p x).powered = s.powered := rfl
@[simp] theorem State.setPlane_agenda (s : State) (w p : Nat) (x : Plane) : (s.setPlane w p x).agenda = s.agenda := rfl
@[simp] theorem State.setPlane_cur (s : State) (w p : Nat) (x : Plane) : (s.setPlane w p x).cur = s.cur := rfl
@[simp] theorem State.setPlane_parked (s : State) (w p : Nat) (x : Plane) : (s.setPlane w p x).parked = s.parked := rfl
@[simp] theorem State.setPlane_word (s : State) (w p : Nat) (x : Plane) : (s.setPlane w p x).word = s.word := rfl
@[simp] theorem State.setPlane_free (s : State) (w p : Nat) (x : Plane) : (s.setPlane w p x).free = s.free := rfl
@[simp] theorem State.setPlane_nextId (s : State) (w p : Nat) (x : Plane) : (s.setPlane w p x).nextId = s.nextId := rfl
@[simp] theorem State.setPlane_nextStart (s : State) (w p : Nat) (x : Plane) : (s.setPlane w p x).nextStart = s.nextStart := rfl
@[simp] theorem State.setPlane_mem (s : State) (w p : Nat) (x : Plane) : (s.setPlane w p x).mem = s.mem := rfl
@[simp] theorem State.setPlane_poison (s : State) (w p : Nat) (x : Plane) : (s.setPlane w p x).poison = s.poison := rfl
@[simp] theorem State.setPlane_tags (s : State) (w p : Nat) (x : Plane) : (s.setPlane w p x).tags = s.tags := rfl
@[simp] theorem State.setPlane_rels (s : State) (w p : Nat) (x : Plane) : (s.setPlane w p x).rels = s.rels := rfl
@[simp] theorem State.setPlane_lines (s : State) (w p : Nat) (x : Plane) : (s.setPlane w p x).lines = s.lines := rfl
@[simp] theorem State.setPlane_hostMem (s : State) (w p : Nat) (x : Plane) : (s.setPlane w p x).hostMem = s.hostMem := rfl
@[simp] theorem State.setPlane_waysOff (s : State) (w p : Nat) (x : Plane) : (s.setPlane w p x).waysOff = s.waysOff := rfl
@[simp] theorem State.setPlane_waysWake (s : State) (w p : Nat) (x : Plane) : (s.setPlane w p x).waysWake = s.waysWake := rfl
@[simp] theorem State.setPlane_granule (s : State) (w p : Nat) (x : Plane) : (s.setPlane w p x).granule = s.granule := rfl
@[simp] theorem State.setPlane_tlb (s : State) (w p : Nat) (x : Plane) : (s.setPlane w p x).tlb = s.tlb := rfl
@[simp] theorem State.setPlane_attrs (s : State) (w p : Nat) (x : Plane) : (s.setPlane w p x).attrs = s.attrs := rfl
@[simp] theorem State.setPlane_walls (s : State) (w p : Nat) (x : Plane) : (s.setPlane w p x).walls = s.walls := rfl
@[simp] theorem State.setPlane_planes (s : State) (w p : Nat) (x : Plane) : (s.setPlane w p x).planes = Sparse.set s.planes (3 * w + p) x Plane.zero := rfl
@[simp] theorem State.setPlane_shelf (s : State) (w p : Nat) (x : Plane) : (s.setPlane w p x).shelf = s.shelf := rfl
@[simp] theorem State.setPlane_dies (s : State) (w p : Nat) (x : Plane) : (s.setPlane w p x).dies = s.dies := rfl
@[simp] theorem State.setPlane_shadows (s : State) (w p : Nat) (x : Plane) : (s.setPlane w p x).shadows = s.shadows := rfl
@[simp] theorem State.setPlane_past (s : State) (w p : Nat) (x : Plane) : (s.setPlane w p x).past = s.past := rfl
@[simp] theorem State.setPlane_gbars (s : State) (w p : Nat) (x : Plane) : (s.setPlane w p x).gbars = s.gbars := rfl
@[simp] theorem State.setPlane_launches (s : State) (w p : Nat) (x : Plane) : (s.setPlane w p x).launches = s.launches := rfl
@[simp] theorem State.setPlane_rota (s : State) (w p : Nat) (x : Plane) : (s.setPlane w p x).rota = s.rota := rfl
@[simp] theorem State.setPlane_accepted (s : State) (w p : Nat) (x : Plane) : (s.setPlane w p x).accepted = s.accepted := rfl
@[simp] theorem State.setPlane_featBytes (s : State) (w p : Nat) (x : Plane) : (s.setPlane w p x).featBytes = s.featBytes := rfl
@[simp] theorem State.setPlane_queues (s : State) (w p : Nat) (x : Plane) : (s.setPlane w p x).queues = s.queues := rfl
@[simp] theorem State.setPlane_ctrCodes (s : State) (w p : Nat) (x : Plane) : (s.setPlane w p x).ctrCodes = s.ctrCodes := rfl
@[simp] theorem State.setPlane_dregs (s : State) (w p : Nat) (x : Plane) : (s.setPlane w p x).dregs = s.dregs := rfl
@[simp] theorem State.setPlane_keys (s : State) (w p : Nat) (x : Plane) : (s.setPlane w p x).keys = s.keys := rfl
@[simp] theorem State.setPlane_did (s : State) (w p : Nat) (x : Plane) : (s.setPlane w p x).did = s.did := rfl
@[simp] theorem State.setPlane_fabric (s : State) (w p : Nat) (x : Plane) : (s.setPlane w p x).fabric = s.fabric := rfl
@[simp] theorem State.setPlane_monitor (s : State) (w p : Nat) (x : Plane) : (s.setPlane w p x).monitor = s.monitor := rfl
@[simp] theorem State.setPlane_sessions (s : State) (w p : Nat) (x : Plane) : (s.setPlane w p x).sessions = s.sessions := rfl
@[simp] theorem State.setPlane_outbox (s : State) (w p : Nat) (x : Plane) : (s.setPlane w p x).outbox = s.outbox := rfl
@[simp] theorem State.setPlane_vfs (s : State) (w p : Nat) (x : Plane) : (s.setPlane w p x).vfs = s.vfs := rfl
@[simp] theorem State.setPlane_windows (s : State) (w p : Nat) (x : Plane) : (s.setPlane w p x).windows = s.windows := rfl
@[simp] theorem State.setPlane_busOut (s : State) (w p : Nat) (x : Plane) : (s.setPlane w p x).busOut = s.busOut := rfl
@[simp] theorem State.setPlane_stalled (s : State) (w p : Nat) (x : Plane) : (s.setPlane w p x).stalled = s.stalled := rfl

/-! `State.setDie` -/

@[simp] theorem State.setDie_powered (s : State) (d : Nat) (x : Die) : (s.setDie d x).powered = s.powered := rfl
@[simp] theorem State.setDie_agenda (s : State) (d : Nat) (x : Die) : (s.setDie d x).agenda = s.agenda := rfl
@[simp] theorem State.setDie_cur (s : State) (d : Nat) (x : Die) : (s.setDie d x).cur = s.cur := rfl
@[simp] theorem State.setDie_parked (s : State) (d : Nat) (x : Die) : (s.setDie d x).parked = s.parked := rfl
@[simp] theorem State.setDie_word (s : State) (d : Nat) (x : Die) : (s.setDie d x).word = s.word := rfl
@[simp] theorem State.setDie_free (s : State) (d : Nat) (x : Die) : (s.setDie d x).free = s.free := rfl
@[simp] theorem State.setDie_nextId (s : State) (d : Nat) (x : Die) : (s.setDie d x).nextId = s.nextId := rfl
@[simp] theorem State.setDie_nextStart (s : State) (d : Nat) (x : Die) : (s.setDie d x).nextStart = s.nextStart := rfl
@[simp] theorem State.setDie_mem (s : State) (d : Nat) (x : Die) : (s.setDie d x).mem = s.mem := rfl
@[simp] theorem State.setDie_poison (s : State) (d : Nat) (x : Die) : (s.setDie d x).poison = s.poison := rfl
@[simp] theorem State.setDie_tags (s : State) (d : Nat) (x : Die) : (s.setDie d x).tags = s.tags := rfl
@[simp] theorem State.setDie_rels (s : State) (d : Nat) (x : Die) : (s.setDie d x).rels = s.rels := rfl
@[simp] theorem State.setDie_lines (s : State) (d : Nat) (x : Die) : (s.setDie d x).lines = s.lines := rfl
@[simp] theorem State.setDie_hostMem (s : State) (d : Nat) (x : Die) : (s.setDie d x).hostMem = s.hostMem := rfl
@[simp] theorem State.setDie_waysOff (s : State) (d : Nat) (x : Die) : (s.setDie d x).waysOff = s.waysOff := rfl
@[simp] theorem State.setDie_waysWake (s : State) (d : Nat) (x : Die) : (s.setDie d x).waysWake = s.waysWake := rfl
@[simp] theorem State.setDie_granule (s : State) (d : Nat) (x : Die) : (s.setDie d x).granule = s.granule := rfl
@[simp] theorem State.setDie_tlb (s : State) (d : Nat) (x : Die) : (s.setDie d x).tlb = s.tlb := rfl
@[simp] theorem State.setDie_attrs (s : State) (d : Nat) (x : Die) : (s.setDie d x).attrs = s.attrs := rfl
@[simp] theorem State.setDie_walls (s : State) (d : Nat) (x : Die) : (s.setDie d x).walls = s.walls := rfl
@[simp] theorem State.setDie_planes (s : State) (d : Nat) (x : Die) : (s.setDie d x).planes = s.planes := rfl
@[simp] theorem State.setDie_shelf (s : State) (d : Nat) (x : Die) : (s.setDie d x).shelf = s.shelf := rfl
@[simp] theorem State.setDie_dies (s : State) (d : Nat) (x : Die) : (s.setDie d x).dies = Sparse.set s.dies d x Die.zero := rfl
@[simp] theorem State.setDie_shadows (s : State) (d : Nat) (x : Die) : (s.setDie d x).shadows = s.shadows := rfl
@[simp] theorem State.setDie_past (s : State) (d : Nat) (x : Die) : (s.setDie d x).past = s.past := rfl
@[simp] theorem State.setDie_gbars (s : State) (d : Nat) (x : Die) : (s.setDie d x).gbars = s.gbars := rfl
@[simp] theorem State.setDie_launches (s : State) (d : Nat) (x : Die) : (s.setDie d x).launches = s.launches := rfl
@[simp] theorem State.setDie_rota (s : State) (d : Nat) (x : Die) : (s.setDie d x).rota = s.rota := rfl
@[simp] theorem State.setDie_accepted (s : State) (d : Nat) (x : Die) : (s.setDie d x).accepted = s.accepted := rfl
@[simp] theorem State.setDie_featBytes (s : State) (d : Nat) (x : Die) : (s.setDie d x).featBytes = s.featBytes := rfl
@[simp] theorem State.setDie_queues (s : State) (d : Nat) (x : Die) : (s.setDie d x).queues = s.queues := rfl
@[simp] theorem State.setDie_ctrCodes (s : State) (d : Nat) (x : Die) : (s.setDie d x).ctrCodes = s.ctrCodes := rfl
@[simp] theorem State.setDie_dregs (s : State) (d : Nat) (x : Die) : (s.setDie d x).dregs = s.dregs := rfl
@[simp] theorem State.setDie_keys (s : State) (d : Nat) (x : Die) : (s.setDie d x).keys = s.keys := rfl
@[simp] theorem State.setDie_did (s : State) (d : Nat) (x : Die) : (s.setDie d x).did = s.did := rfl
@[simp] theorem State.setDie_fabric (s : State) (d : Nat) (x : Die) : (s.setDie d x).fabric = s.fabric := rfl
@[simp] theorem State.setDie_monitor (s : State) (d : Nat) (x : Die) : (s.setDie d x).monitor = s.monitor := rfl
@[simp] theorem State.setDie_sessions (s : State) (d : Nat) (x : Die) : (s.setDie d x).sessions = s.sessions := rfl
@[simp] theorem State.setDie_outbox (s : State) (d : Nat) (x : Die) : (s.setDie d x).outbox = s.outbox := rfl
@[simp] theorem State.setDie_vfs (s : State) (d : Nat) (x : Die) : (s.setDie d x).vfs = s.vfs := rfl
@[simp] theorem State.setDie_windows (s : State) (d : Nat) (x : Die) : (s.setDie d x).windows = s.windows := rfl
@[simp] theorem State.setDie_busOut (s : State) (d : Nat) (x : Die) : (s.setDie d x).busOut = s.busOut := rfl
@[simp] theorem State.setDie_stalled (s : State) (d : Nat) (x : Die) : (s.setDie d x).stalled = s.stalled := rfl

/-! `State.setDreg` -/

@[simp] theorem State.setDreg_powered (s : State) (i : Nat) (x : Word) : (s.setDreg i x).powered = s.powered := rfl
@[simp] theorem State.setDreg_agenda (s : State) (i : Nat) (x : Word) : (s.setDreg i x).agenda = s.agenda := rfl
@[simp] theorem State.setDreg_cur (s : State) (i : Nat) (x : Word) : (s.setDreg i x).cur = s.cur := rfl
@[simp] theorem State.setDreg_parked (s : State) (i : Nat) (x : Word) : (s.setDreg i x).parked = s.parked := rfl
@[simp] theorem State.setDreg_word (s : State) (i : Nat) (x : Word) : (s.setDreg i x).word = s.word := rfl
@[simp] theorem State.setDreg_free (s : State) (i : Nat) (x : Word) : (s.setDreg i x).free = s.free := rfl
@[simp] theorem State.setDreg_nextId (s : State) (i : Nat) (x : Word) : (s.setDreg i x).nextId = s.nextId := rfl
@[simp] theorem State.setDreg_nextStart (s : State) (i : Nat) (x : Word) : (s.setDreg i x).nextStart = s.nextStart := rfl
@[simp] theorem State.setDreg_mem (s : State) (i : Nat) (x : Word) : (s.setDreg i x).mem = s.mem := rfl
@[simp] theorem State.setDreg_poison (s : State) (i : Nat) (x : Word) : (s.setDreg i x).poison = s.poison := rfl
@[simp] theorem State.setDreg_tags (s : State) (i : Nat) (x : Word) : (s.setDreg i x).tags = s.tags := rfl
@[simp] theorem State.setDreg_rels (s : State) (i : Nat) (x : Word) : (s.setDreg i x).rels = s.rels := rfl
@[simp] theorem State.setDreg_lines (s : State) (i : Nat) (x : Word) : (s.setDreg i x).lines = s.lines := rfl
@[simp] theorem State.setDreg_hostMem (s : State) (i : Nat) (x : Word) : (s.setDreg i x).hostMem = s.hostMem := rfl
@[simp] theorem State.setDreg_waysOff (s : State) (i : Nat) (x : Word) : (s.setDreg i x).waysOff = s.waysOff := rfl
@[simp] theorem State.setDreg_waysWake (s : State) (i : Nat) (x : Word) : (s.setDreg i x).waysWake = s.waysWake := rfl
@[simp] theorem State.setDreg_granule (s : State) (i : Nat) (x : Word) : (s.setDreg i x).granule = s.granule := rfl
@[simp] theorem State.setDreg_tlb (s : State) (i : Nat) (x : Word) : (s.setDreg i x).tlb = s.tlb := rfl
@[simp] theorem State.setDreg_attrs (s : State) (i : Nat) (x : Word) : (s.setDreg i x).attrs = s.attrs := rfl
@[simp] theorem State.setDreg_walls (s : State) (i : Nat) (x : Word) : (s.setDreg i x).walls = s.walls := rfl
@[simp] theorem State.setDreg_planes (s : State) (i : Nat) (x : Word) : (s.setDreg i x).planes = s.planes := rfl
@[simp] theorem State.setDreg_shelf (s : State) (i : Nat) (x : Word) : (s.setDreg i x).shelf = s.shelf := rfl
@[simp] theorem State.setDreg_dies (s : State) (i : Nat) (x : Word) : (s.setDreg i x).dies = s.dies := rfl
@[simp] theorem State.setDreg_shadows (s : State) (i : Nat) (x : Word) : (s.setDreg i x).shadows = s.shadows := rfl
@[simp] theorem State.setDreg_past (s : State) (i : Nat) (x : Word) : (s.setDreg i x).past = s.past := rfl
@[simp] theorem State.setDreg_gbars (s : State) (i : Nat) (x : Word) : (s.setDreg i x).gbars = s.gbars := rfl
@[simp] theorem State.setDreg_launches (s : State) (i : Nat) (x : Word) : (s.setDreg i x).launches = s.launches := rfl
@[simp] theorem State.setDreg_rota (s : State) (i : Nat) (x : Word) : (s.setDreg i x).rota = s.rota := rfl
@[simp] theorem State.setDreg_accepted (s : State) (i : Nat) (x : Word) : (s.setDreg i x).accepted = s.accepted := rfl
@[simp] theorem State.setDreg_featBytes (s : State) (i : Nat) (x : Word) : (s.setDreg i x).featBytes = s.featBytes := rfl
@[simp] theorem State.setDreg_queues (s : State) (i : Nat) (x : Word) : (s.setDreg i x).queues = s.queues := rfl
@[simp] theorem State.setDreg_ctrCodes (s : State) (i : Nat) (x : Word) : (s.setDreg i x).ctrCodes = s.ctrCodes := rfl
@[simp] theorem State.setDreg_dregs (s : State) (i : Nat) (x : Word) : (s.setDreg i x).dregs = Sparse.set s.dregs i x 0 := rfl
@[simp] theorem State.setDreg_keys (s : State) (i : Nat) (x : Word) : (s.setDreg i x).keys = s.keys := rfl
@[simp] theorem State.setDreg_did (s : State) (i : Nat) (x : Word) : (s.setDreg i x).did = s.did := rfl
@[simp] theorem State.setDreg_fabric (s : State) (i : Nat) (x : Word) : (s.setDreg i x).fabric = s.fabric := rfl
@[simp] theorem State.setDreg_monitor (s : State) (i : Nat) (x : Word) : (s.setDreg i x).monitor = s.monitor := rfl
@[simp] theorem State.setDreg_sessions (s : State) (i : Nat) (x : Word) : (s.setDreg i x).sessions = s.sessions := rfl
@[simp] theorem State.setDreg_outbox (s : State) (i : Nat) (x : Word) : (s.setDreg i x).outbox = s.outbox := rfl
@[simp] theorem State.setDreg_vfs (s : State) (i : Nat) (x : Word) : (s.setDreg i x).vfs = s.vfs := rfl
@[simp] theorem State.setDreg_windows (s : State) (i : Nat) (x : Word) : (s.setDreg i x).windows = s.windows := rfl
@[simp] theorem State.setDreg_busOut (s : State) (i : Nat) (x : Word) : (s.setDreg i x).busOut = s.busOut := rfl
@[simp] theorem State.setDreg_stalled (s : State) (i : Nat) (x : Word) : (s.setDreg i x).stalled = s.stalled := rfl

/-! `State.modC` -/

@[simp] theorem State.modC_powered (s : State) (f : Course → Course) : (s.modC f).powered = s.powered := rfl
@[simp] theorem State.modC_agenda (s : State) (f : Course → Course) : (s.modC f).agenda = s.agenda := rfl
@[simp] theorem State.modC_cur (s : State) (f : Course → Course) : (s.modC f).cur = f s.cur := rfl
@[simp] theorem State.modC_parked (s : State) (f : Course → Course) : (s.modC f).parked = s.parked := rfl
@[simp] theorem State.modC_word (s : State) (f : Course → Course) : (s.modC f).word = s.word := rfl
@[simp] theorem State.modC_free (s : State) (f : Course → Course) : (s.modC f).free = s.free := rfl
@[simp] theorem State.modC_nextId (s : State) (f : Course → Course) : (s.modC f).nextId = s.nextId := rfl
@[simp] theorem State.modC_nextStart (s : State) (f : Course → Course) : (s.modC f).nextStart = s.nextStart := rfl
@[simp] theorem State.modC_mem (s : State) (f : Course → Course) : (s.modC f).mem = s.mem := rfl
@[simp] theorem State.modC_poison (s : State) (f : Course → Course) : (s.modC f).poison = s.poison := rfl
@[simp] theorem State.modC_tags (s : State) (f : Course → Course) : (s.modC f).tags = s.tags := rfl
@[simp] theorem State.modC_rels (s : State) (f : Course → Course) : (s.modC f).rels = s.rels := rfl
@[simp] theorem State.modC_lines (s : State) (f : Course → Course) : (s.modC f).lines = s.lines := rfl
@[simp] theorem State.modC_hostMem (s : State) (f : Course → Course) : (s.modC f).hostMem = s.hostMem := rfl
@[simp] theorem State.modC_waysOff (s : State) (f : Course → Course) : (s.modC f).waysOff = s.waysOff := rfl
@[simp] theorem State.modC_waysWake (s : State) (f : Course → Course) : (s.modC f).waysWake = s.waysWake := rfl
@[simp] theorem State.modC_granule (s : State) (f : Course → Course) : (s.modC f).granule = s.granule := rfl
@[simp] theorem State.modC_tlb (s : State) (f : Course → Course) : (s.modC f).tlb = s.tlb := rfl
@[simp] theorem State.modC_attrs (s : State) (f : Course → Course) : (s.modC f).attrs = s.attrs := rfl
@[simp] theorem State.modC_walls (s : State) (f : Course → Course) : (s.modC f).walls = s.walls := rfl
@[simp] theorem State.modC_planes (s : State) (f : Course → Course) : (s.modC f).planes = s.planes := rfl
@[simp] theorem State.modC_shelf (s : State) (f : Course → Course) : (s.modC f).shelf = s.shelf := rfl
@[simp] theorem State.modC_dies (s : State) (f : Course → Course) : (s.modC f).dies = s.dies := rfl
@[simp] theorem State.modC_shadows (s : State) (f : Course → Course) : (s.modC f).shadows = s.shadows := rfl
@[simp] theorem State.modC_past (s : State) (f : Course → Course) : (s.modC f).past = s.past := rfl
@[simp] theorem State.modC_gbars (s : State) (f : Course → Course) : (s.modC f).gbars = s.gbars := rfl
@[simp] theorem State.modC_launches (s : State) (f : Course → Course) : (s.modC f).launches = s.launches := rfl
@[simp] theorem State.modC_rota (s : State) (f : Course → Course) : (s.modC f).rota = s.rota := rfl
@[simp] theorem State.modC_accepted (s : State) (f : Course → Course) : (s.modC f).accepted = s.accepted := rfl
@[simp] theorem State.modC_featBytes (s : State) (f : Course → Course) : (s.modC f).featBytes = s.featBytes := rfl
@[simp] theorem State.modC_queues (s : State) (f : Course → Course) : (s.modC f).queues = s.queues := rfl
@[simp] theorem State.modC_ctrCodes (s : State) (f : Course → Course) : (s.modC f).ctrCodes = s.ctrCodes := rfl
@[simp] theorem State.modC_dregs (s : State) (f : Course → Course) : (s.modC f).dregs = s.dregs := rfl
@[simp] theorem State.modC_keys (s : State) (f : Course → Course) : (s.modC f).keys = s.keys := rfl
@[simp] theorem State.modC_did (s : State) (f : Course → Course) : (s.modC f).did = s.did := rfl
@[simp] theorem State.modC_fabric (s : State) (f : Course → Course) : (s.modC f).fabric = s.fabric := rfl
@[simp] theorem State.modC_monitor (s : State) (f : Course → Course) : (s.modC f).monitor = s.monitor := rfl
@[simp] theorem State.modC_sessions (s : State) (f : Course → Course) : (s.modC f).sessions = s.sessions := rfl
@[simp] theorem State.modC_outbox (s : State) (f : Course → Course) : (s.modC f).outbox = s.outbox := rfl
@[simp] theorem State.modC_vfs (s : State) (f : Course → Course) : (s.modC f).vfs = s.vfs := rfl
@[simp] theorem State.modC_windows (s : State) (f : Course → Course) : (s.modC f).windows = s.windows := rfl
@[simp] theorem State.modC_busOut (s : State) (f : Course → Course) : (s.modC f).busOut = s.busOut := rfl
@[simp] theorem State.modC_stalled (s : State) (f : Course → Course) : (s.modC f).stalled = s.stalled := rfl

/-! `State.modAll` -/

@[simp] theorem State.modAll_powered (s : State) (f : Course → Course) : (s.modAll f).powered = s.powered := rfl
@[simp] theorem State.modAll_agenda (s : State) (f : Course → Course) : (s.modAll f).agenda = s.agenda := rfl
@[simp] theorem State.modAll_cur (s : State) (f : Course → Course) : (s.modAll f).cur = f s.cur := rfl
@[simp] theorem State.modAll_parked (s : State) (f : Course → Course) : (s.modAll f).parked = s.parked.map f := rfl
@[simp] theorem State.modAll_word (s : State) (f : Course → Course) : (s.modAll f).word = s.word := rfl
@[simp] theorem State.modAll_free (s : State) (f : Course → Course) : (s.modAll f).free = s.free := rfl
@[simp] theorem State.modAll_nextId (s : State) (f : Course → Course) : (s.modAll f).nextId = s.nextId := rfl
@[simp] theorem State.modAll_nextStart (s : State) (f : Course → Course) : (s.modAll f).nextStart = s.nextStart := rfl
@[simp] theorem State.modAll_mem (s : State) (f : Course → Course) : (s.modAll f).mem = s.mem := rfl
@[simp] theorem State.modAll_poison (s : State) (f : Course → Course) : (s.modAll f).poison = s.poison := rfl
@[simp] theorem State.modAll_tags (s : State) (f : Course → Course) : (s.modAll f).tags = s.tags := rfl
@[simp] theorem State.modAll_rels (s : State) (f : Course → Course) : (s.modAll f).rels = s.rels := rfl
@[simp] theorem State.modAll_lines (s : State) (f : Course → Course) : (s.modAll f).lines = s.lines := rfl
@[simp] theorem State.modAll_hostMem (s : State) (f : Course → Course) : (s.modAll f).hostMem = s.hostMem := rfl
@[simp] theorem State.modAll_waysOff (s : State) (f : Course → Course) : (s.modAll f).waysOff = s.waysOff := rfl
@[simp] theorem State.modAll_waysWake (s : State) (f : Course → Course) : (s.modAll f).waysWake = s.waysWake := rfl
@[simp] theorem State.modAll_granule (s : State) (f : Course → Course) : (s.modAll f).granule = s.granule := rfl
@[simp] theorem State.modAll_tlb (s : State) (f : Course → Course) : (s.modAll f).tlb = s.tlb := rfl
@[simp] theorem State.modAll_attrs (s : State) (f : Course → Course) : (s.modAll f).attrs = s.attrs := rfl
@[simp] theorem State.modAll_walls (s : State) (f : Course → Course) : (s.modAll f).walls = s.walls := rfl
@[simp] theorem State.modAll_planes (s : State) (f : Course → Course) : (s.modAll f).planes = s.planes := rfl
@[simp] theorem State.modAll_shelf (s : State) (f : Course → Course) : (s.modAll f).shelf = s.shelf := rfl
@[simp] theorem State.modAll_dies (s : State) (f : Course → Course) : (s.modAll f).dies = s.dies := rfl
@[simp] theorem State.modAll_shadows (s : State) (f : Course → Course) : (s.modAll f).shadows = s.shadows := rfl
@[simp] theorem State.modAll_past (s : State) (f : Course → Course) : (s.modAll f).past = s.past := rfl
@[simp] theorem State.modAll_gbars (s : State) (f : Course → Course) : (s.modAll f).gbars = s.gbars := rfl
@[simp] theorem State.modAll_launches (s : State) (f : Course → Course) : (s.modAll f).launches = s.launches := rfl
@[simp] theorem State.modAll_rota (s : State) (f : Course → Course) : (s.modAll f).rota = s.rota := rfl
@[simp] theorem State.modAll_accepted (s : State) (f : Course → Course) : (s.modAll f).accepted = s.accepted := rfl
@[simp] theorem State.modAll_featBytes (s : State) (f : Course → Course) : (s.modAll f).featBytes = s.featBytes := rfl
@[simp] theorem State.modAll_queues (s : State) (f : Course → Course) : (s.modAll f).queues = s.queues := rfl
@[simp] theorem State.modAll_ctrCodes (s : State) (f : Course → Course) : (s.modAll f).ctrCodes = s.ctrCodes := rfl
@[simp] theorem State.modAll_dregs (s : State) (f : Course → Course) : (s.modAll f).dregs = s.dregs := rfl
@[simp] theorem State.modAll_keys (s : State) (f : Course → Course) : (s.modAll f).keys = s.keys := rfl
@[simp] theorem State.modAll_did (s : State) (f : Course → Course) : (s.modAll f).did = s.did := rfl
@[simp] theorem State.modAll_fabric (s : State) (f : Course → Course) : (s.modAll f).fabric = s.fabric := rfl
@[simp] theorem State.modAll_monitor (s : State) (f : Course → Course) : (s.modAll f).monitor = s.monitor := rfl
@[simp] theorem State.modAll_sessions (s : State) (f : Course → Course) : (s.modAll f).sessions = s.sessions := rfl
@[simp] theorem State.modAll_outbox (s : State) (f : Course → Course) : (s.modAll f).outbox = s.outbox := rfl
@[simp] theorem State.modAll_vfs (s : State) (f : Course → Course) : (s.modAll f).vfs = s.vfs := rfl
@[simp] theorem State.modAll_windows (s : State) (f : Course → Course) : (s.modAll f).windows = s.windows := rfl
@[simp] theorem State.modAll_busOut (s : State) (f : Course → Course) : (s.modAll f).busOut = s.busOut := rfl
@[simp] theorem State.modAll_stalled (s : State) (f : Course → Course) : (s.modAll f).stalled = s.stalled := rfl

/-! `State.modLaunch` -/

@[simp] theorem State.modLaunch_powered (s : State) (n : Nat) (f : Launch → Launch) : (s.modLaunch n f).powered = s.powered := rfl
@[simp] theorem State.modLaunch_agenda (s : State) (n : Nat) (f : Launch → Launch) : (s.modLaunch n f).agenda = s.agenda := rfl
@[simp] theorem State.modLaunch_cur (s : State) (n : Nat) (f : Launch → Launch) : (s.modLaunch n f).cur = s.cur := rfl
@[simp] theorem State.modLaunch_parked (s : State) (n : Nat) (f : Launch → Launch) : (s.modLaunch n f).parked = s.parked := rfl
@[simp] theorem State.modLaunch_word (s : State) (n : Nat) (f : Launch → Launch) : (s.modLaunch n f).word = s.word := rfl
@[simp] theorem State.modLaunch_free (s : State) (n : Nat) (f : Launch → Launch) : (s.modLaunch n f).free = s.free := rfl
@[simp] theorem State.modLaunch_nextId (s : State) (n : Nat) (f : Launch → Launch) : (s.modLaunch n f).nextId = s.nextId := rfl
@[simp] theorem State.modLaunch_nextStart (s : State) (n : Nat) (f : Launch → Launch) : (s.modLaunch n f).nextStart = s.nextStart := rfl
@[simp] theorem State.modLaunch_mem (s : State) (n : Nat) (f : Launch → Launch) : (s.modLaunch n f).mem = s.mem := rfl
@[simp] theorem State.modLaunch_poison (s : State) (n : Nat) (f : Launch → Launch) : (s.modLaunch n f).poison = s.poison := rfl
@[simp] theorem State.modLaunch_tags (s : State) (n : Nat) (f : Launch → Launch) : (s.modLaunch n f).tags = s.tags := rfl
@[simp] theorem State.modLaunch_rels (s : State) (n : Nat) (f : Launch → Launch) : (s.modLaunch n f).rels = s.rels := rfl
@[simp] theorem State.modLaunch_lines (s : State) (n : Nat) (f : Launch → Launch) : (s.modLaunch n f).lines = s.lines := rfl
@[simp] theorem State.modLaunch_hostMem (s : State) (n : Nat) (f : Launch → Launch) : (s.modLaunch n f).hostMem = s.hostMem := rfl
@[simp] theorem State.modLaunch_waysOff (s : State) (n : Nat) (f : Launch → Launch) : (s.modLaunch n f).waysOff = s.waysOff := rfl
@[simp] theorem State.modLaunch_waysWake (s : State) (n : Nat) (f : Launch → Launch) : (s.modLaunch n f).waysWake = s.waysWake := rfl
@[simp] theorem State.modLaunch_granule (s : State) (n : Nat) (f : Launch → Launch) : (s.modLaunch n f).granule = s.granule := rfl
@[simp] theorem State.modLaunch_tlb (s : State) (n : Nat) (f : Launch → Launch) : (s.modLaunch n f).tlb = s.tlb := rfl
@[simp] theorem State.modLaunch_attrs (s : State) (n : Nat) (f : Launch → Launch) : (s.modLaunch n f).attrs = s.attrs := rfl
@[simp] theorem State.modLaunch_walls (s : State) (n : Nat) (f : Launch → Launch) : (s.modLaunch n f).walls = s.walls := rfl
@[simp] theorem State.modLaunch_planes (s : State) (n : Nat) (f : Launch → Launch) : (s.modLaunch n f).planes = s.planes := rfl
@[simp] theorem State.modLaunch_shelf (s : State) (n : Nat) (f : Launch → Launch) : (s.modLaunch n f).shelf = s.shelf := rfl
@[simp] theorem State.modLaunch_dies (s : State) (n : Nat) (f : Launch → Launch) : (s.modLaunch n f).dies = s.dies := rfl
@[simp] theorem State.modLaunch_shadows (s : State) (n : Nat) (f : Launch → Launch) : (s.modLaunch n f).shadows = s.shadows := rfl
@[simp] theorem State.modLaunch_past (s : State) (n : Nat) (f : Launch → Launch) : (s.modLaunch n f).past = s.past := rfl
@[simp] theorem State.modLaunch_gbars (s : State) (n : Nat) (f : Launch → Launch) : (s.modLaunch n f).gbars = s.gbars := rfl
@[simp] theorem State.modLaunch_launches (s : State) (n : Nat) (f : Launch → Launch) : (s.modLaunch n f).launches = s.launches.modify n f := rfl
@[simp] theorem State.modLaunch_rota (s : State) (n : Nat) (f : Launch → Launch) : (s.modLaunch n f).rota = s.rota := rfl
@[simp] theorem State.modLaunch_accepted (s : State) (n : Nat) (f : Launch → Launch) : (s.modLaunch n f).accepted = s.accepted := rfl
@[simp] theorem State.modLaunch_featBytes (s : State) (n : Nat) (f : Launch → Launch) : (s.modLaunch n f).featBytes = s.featBytes := rfl
@[simp] theorem State.modLaunch_queues (s : State) (n : Nat) (f : Launch → Launch) : (s.modLaunch n f).queues = s.queues := rfl
@[simp] theorem State.modLaunch_ctrCodes (s : State) (n : Nat) (f : Launch → Launch) : (s.modLaunch n f).ctrCodes = s.ctrCodes := rfl
@[simp] theorem State.modLaunch_dregs (s : State) (n : Nat) (f : Launch → Launch) : (s.modLaunch n f).dregs = s.dregs := rfl
@[simp] theorem State.modLaunch_keys (s : State) (n : Nat) (f : Launch → Launch) : (s.modLaunch n f).keys = s.keys := rfl
@[simp] theorem State.modLaunch_did (s : State) (n : Nat) (f : Launch → Launch) : (s.modLaunch n f).did = s.did := rfl
@[simp] theorem State.modLaunch_fabric (s : State) (n : Nat) (f : Launch → Launch) : (s.modLaunch n f).fabric = s.fabric := rfl
@[simp] theorem State.modLaunch_monitor (s : State) (n : Nat) (f : Launch → Launch) : (s.modLaunch n f).monitor = s.monitor := rfl
@[simp] theorem State.modLaunch_sessions (s : State) (n : Nat) (f : Launch → Launch) : (s.modLaunch n f).sessions = s.sessions := rfl
@[simp] theorem State.modLaunch_outbox (s : State) (n : Nat) (f : Launch → Launch) : (s.modLaunch n f).outbox = s.outbox := rfl
@[simp] theorem State.modLaunch_vfs (s : State) (n : Nat) (f : Launch → Launch) : (s.modLaunch n f).vfs = s.vfs := rfl
@[simp] theorem State.modLaunch_windows (s : State) (n : Nat) (f : Launch → Launch) : (s.modLaunch n f).windows = s.windows := rfl
@[simp] theorem State.modLaunch_busOut (s : State) (n : Nat) (f : Launch → Launch) : (s.modLaunch n f).busOut = s.busOut := rfl
@[simp] theorem State.modLaunch_stalled (s : State) (n : Nat) (f : Launch → Launch) : (s.modLaunch n f).stalled = s.stalled := rfl

/-! `State.later` -/

@[simp] theorem State.later_powered (s : State) (es : List Instr) : (s.later es).powered = s.powered := rfl
@[simp] theorem State.later_agenda (s : State) (es : List Instr) : (s.later es).agenda = s.agenda ++ es := rfl
@[simp] theorem State.later_cur (s : State) (es : List Instr) : (s.later es).cur = s.cur := rfl
@[simp] theorem State.later_parked (s : State) (es : List Instr) : (s.later es).parked = s.parked := rfl
@[simp] theorem State.later_word (s : State) (es : List Instr) : (s.later es).word = s.word := rfl
@[simp] theorem State.later_free (s : State) (es : List Instr) : (s.later es).free = s.free := rfl
@[simp] theorem State.later_nextId (s : State) (es : List Instr) : (s.later es).nextId = s.nextId := rfl
@[simp] theorem State.later_nextStart (s : State) (es : List Instr) : (s.later es).nextStart = s.nextStart := rfl
@[simp] theorem State.later_mem (s : State) (es : List Instr) : (s.later es).mem = s.mem := rfl
@[simp] theorem State.later_poison (s : State) (es : List Instr) : (s.later es).poison = s.poison := rfl
@[simp] theorem State.later_tags (s : State) (es : List Instr) : (s.later es).tags = s.tags := rfl
@[simp] theorem State.later_rels (s : State) (es : List Instr) : (s.later es).rels = s.rels := rfl
@[simp] theorem State.later_lines (s : State) (es : List Instr) : (s.later es).lines = s.lines := rfl
@[simp] theorem State.later_hostMem (s : State) (es : List Instr) : (s.later es).hostMem = s.hostMem := rfl
@[simp] theorem State.later_waysOff (s : State) (es : List Instr) : (s.later es).waysOff = s.waysOff := rfl
@[simp] theorem State.later_waysWake (s : State) (es : List Instr) : (s.later es).waysWake = s.waysWake := rfl
@[simp] theorem State.later_granule (s : State) (es : List Instr) : (s.later es).granule = s.granule := rfl
@[simp] theorem State.later_tlb (s : State) (es : List Instr) : (s.later es).tlb = s.tlb := rfl
@[simp] theorem State.later_attrs (s : State) (es : List Instr) : (s.later es).attrs = s.attrs := rfl
@[simp] theorem State.later_walls (s : State) (es : List Instr) : (s.later es).walls = s.walls := rfl
@[simp] theorem State.later_planes (s : State) (es : List Instr) : (s.later es).planes = s.planes := rfl
@[simp] theorem State.later_shelf (s : State) (es : List Instr) : (s.later es).shelf = s.shelf := rfl
@[simp] theorem State.later_dies (s : State) (es : List Instr) : (s.later es).dies = s.dies := rfl
@[simp] theorem State.later_shadows (s : State) (es : List Instr) : (s.later es).shadows = s.shadows := rfl
@[simp] theorem State.later_past (s : State) (es : List Instr) : (s.later es).past = s.past := rfl
@[simp] theorem State.later_gbars (s : State) (es : List Instr) : (s.later es).gbars = s.gbars := rfl
@[simp] theorem State.later_launches (s : State) (es : List Instr) : (s.later es).launches = s.launches := rfl
@[simp] theorem State.later_rota (s : State) (es : List Instr) : (s.later es).rota = s.rota := rfl
@[simp] theorem State.later_accepted (s : State) (es : List Instr) : (s.later es).accepted = s.accepted := rfl
@[simp] theorem State.later_featBytes (s : State) (es : List Instr) : (s.later es).featBytes = s.featBytes := rfl
@[simp] theorem State.later_queues (s : State) (es : List Instr) : (s.later es).queues = s.queues := rfl
@[simp] theorem State.later_ctrCodes (s : State) (es : List Instr) : (s.later es).ctrCodes = s.ctrCodes := rfl
@[simp] theorem State.later_dregs (s : State) (es : List Instr) : (s.later es).dregs = s.dregs := rfl
@[simp] theorem State.later_keys (s : State) (es : List Instr) : (s.later es).keys = s.keys := rfl
@[simp] theorem State.later_did (s : State) (es : List Instr) : (s.later es).did = s.did := rfl
@[simp] theorem State.later_fabric (s : State) (es : List Instr) : (s.later es).fabric = s.fabric := rfl
@[simp] theorem State.later_monitor (s : State) (es : List Instr) : (s.later es).monitor = s.monitor := rfl
@[simp] theorem State.later_sessions (s : State) (es : List Instr) : (s.later es).sessions = s.sessions := rfl
@[simp] theorem State.later_outbox (s : State) (es : List Instr) : (s.later es).outbox = s.outbox := rfl
@[simp] theorem State.later_vfs (s : State) (es : List Instr) : (s.later es).vfs = s.vfs := rfl
@[simp] theorem State.later_windows (s : State) (es : List Instr) : (s.later es).windows = s.windows := rfl
@[simp] theorem State.later_busOut (s : State) (es : List Instr) : (s.later es).busOut = s.busOut := rfl
@[simp] theorem State.later_stalled (s : State) (es : List Instr) : (s.later es).stalled = s.stalled := rfl

/-! `State.answer` -/

@[simp] theorem State.answer_powered (s : State) (x : BusAns) : (s.answer x).powered = s.powered := rfl
@[simp] theorem State.answer_agenda (s : State) (x : BusAns) : (s.answer x).agenda = s.agenda := rfl
@[simp] theorem State.answer_cur (s : State) (x : BusAns) : (s.answer x).cur = s.cur := rfl
@[simp] theorem State.answer_parked (s : State) (x : BusAns) : (s.answer x).parked = s.parked := rfl
@[simp] theorem State.answer_word (s : State) (x : BusAns) : (s.answer x).word = s.word := rfl
@[simp] theorem State.answer_free (s : State) (x : BusAns) : (s.answer x).free = s.free := rfl
@[simp] theorem State.answer_nextId (s : State) (x : BusAns) : (s.answer x).nextId = s.nextId := rfl
@[simp] theorem State.answer_nextStart (s : State) (x : BusAns) : (s.answer x).nextStart = s.nextStart := rfl
@[simp] theorem State.answer_mem (s : State) (x : BusAns) : (s.answer x).mem = s.mem := rfl
@[simp] theorem State.answer_poison (s : State) (x : BusAns) : (s.answer x).poison = s.poison := rfl
@[simp] theorem State.answer_tags (s : State) (x : BusAns) : (s.answer x).tags = s.tags := rfl
@[simp] theorem State.answer_rels (s : State) (x : BusAns) : (s.answer x).rels = s.rels := rfl
@[simp] theorem State.answer_lines (s : State) (x : BusAns) : (s.answer x).lines = s.lines := rfl
@[simp] theorem State.answer_hostMem (s : State) (x : BusAns) : (s.answer x).hostMem = s.hostMem := rfl
@[simp] theorem State.answer_waysOff (s : State) (x : BusAns) : (s.answer x).waysOff = s.waysOff := rfl
@[simp] theorem State.answer_waysWake (s : State) (x : BusAns) : (s.answer x).waysWake = s.waysWake := rfl
@[simp] theorem State.answer_granule (s : State) (x : BusAns) : (s.answer x).granule = s.granule := rfl
@[simp] theorem State.answer_tlb (s : State) (x : BusAns) : (s.answer x).tlb = s.tlb := rfl
@[simp] theorem State.answer_attrs (s : State) (x : BusAns) : (s.answer x).attrs = s.attrs := rfl
@[simp] theorem State.answer_walls (s : State) (x : BusAns) : (s.answer x).walls = s.walls := rfl
@[simp] theorem State.answer_planes (s : State) (x : BusAns) : (s.answer x).planes = s.planes := rfl
@[simp] theorem State.answer_shelf (s : State) (x : BusAns) : (s.answer x).shelf = s.shelf := rfl
@[simp] theorem State.answer_dies (s : State) (x : BusAns) : (s.answer x).dies = s.dies := rfl
@[simp] theorem State.answer_shadows (s : State) (x : BusAns) : (s.answer x).shadows = s.shadows := rfl
@[simp] theorem State.answer_past (s : State) (x : BusAns) : (s.answer x).past = s.past := rfl
@[simp] theorem State.answer_gbars (s : State) (x : BusAns) : (s.answer x).gbars = s.gbars := rfl
@[simp] theorem State.answer_launches (s : State) (x : BusAns) : (s.answer x).launches = s.launches := rfl
@[simp] theorem State.answer_rota (s : State) (x : BusAns) : (s.answer x).rota = s.rota := rfl
@[simp] theorem State.answer_accepted (s : State) (x : BusAns) : (s.answer x).accepted = s.accepted := rfl
@[simp] theorem State.answer_featBytes (s : State) (x : BusAns) : (s.answer x).featBytes = s.featBytes := rfl
@[simp] theorem State.answer_queues (s : State) (x : BusAns) : (s.answer x).queues = s.queues := rfl
@[simp] theorem State.answer_ctrCodes (s : State) (x : BusAns) : (s.answer x).ctrCodes = s.ctrCodes := rfl
@[simp] theorem State.answer_dregs (s : State) (x : BusAns) : (s.answer x).dregs = s.dregs := rfl
@[simp] theorem State.answer_keys (s : State) (x : BusAns) : (s.answer x).keys = s.keys := rfl
@[simp] theorem State.answer_did (s : State) (x : BusAns) : (s.answer x).did = s.did := rfl
@[simp] theorem State.answer_fabric (s : State) (x : BusAns) : (s.answer x).fabric = s.fabric := rfl
@[simp] theorem State.answer_monitor (s : State) (x : BusAns) : (s.answer x).monitor = s.monitor := rfl
@[simp] theorem State.answer_sessions (s : State) (x : BusAns) : (s.answer x).sessions = s.sessions := rfl
@[simp] theorem State.answer_outbox (s : State) (x : BusAns) : (s.answer x).outbox = s.outbox := rfl
@[simp] theorem State.answer_vfs (s : State) (x : BusAns) : (s.answer x).vfs = s.vfs := rfl
@[simp] theorem State.answer_windows (s : State) (x : BusAns) : (s.answer x).windows = s.windows := rfl
@[simp] theorem State.answer_busOut (s : State) (x : BusAns) : (s.answer x).busOut = s.busOut ++ [x] := rfl
@[simp] theorem State.answer_stalled (s : State) (x : BusAns) : (s.answer x).stalled = s.stalled := rfl

/-! `Course.setFlag` -/

@[simp] theorem Course.setFlag_ident (c : Course) (n x : Nat) : (c.setFlag n x).ident = c.ident := rfl
@[simp] theorem Course.setFlag_lid (c : Course) (n x : Nat) : (c.setFlag n x).lid = c.lid := rfl
@[simp] theorem Course.setFlag_cid (c : Course) (n x : Nat) : (c.setFlag n x).cid = c.cid := rfl
@[simp] theorem Course.setFlag_nid (c : Course) (n x : Nat) : (c.setFlag n x).nid = c.nid := rfl
@[simp] theorem Course.setFlag_gcnt (c : Course) (n x : Nat) : (c.setFlag n x).gcnt = c.gcnt := rfl
@[simp] theorem Course.setFlag_nthr (c : Course) (n x : Nat) : (c.setFlag n x).nthr = c.nthr := rfl
@[simp] theorem Course.setFlag_vcnt (c : Course) (n x : Nat) : (c.setFlag n x).vcnt = c.vcnt := rfl
@[simp] theorem Course.setFlag_qcnt (c : Course) (n x : Nat) : (c.setFlag n x).qcnt = c.qcnt := rfl
@[simp] theorem Course.setFlag_asid (c : Course) (n x : Nat) : (c.setFlag n x).asid = c.asid := rfl
@[simp] theorem Course.setFlag_launch (c : Course) (n x : Nat) : (c.setFlag n x).launch = c.launch := rfl
@[simp] theorem Course.setFlag_resident (c : Course) (n x : Nat) : (c.setFlag n x).resident = c.resident := rfl
@[simp] theorem Course.setFlag_wall (c : Course) (n x : Nat) : (c.setFlag n x).wall = c.wall := rfl
@[simp] theorem Course.setFlag_plane (c : Course) (n x : Nat) : (c.setFlag n x).plane = c.plane := rfl
@[simp] theorem Course.setFlag_slot (c : Course) (n x : Nat) : (c.setFlag n x).slot = c.slot := rfl
@[simp] theorem Course.setFlag_lset (c : Course) (n x : Nat) : (c.setFlag n x).lset = c.lset := rfl
@[simp] theorem Course.setFlag_unified (c : Course) (n x : Nat) : (c.setFlag n x).unified = c.unified := rfl
@[simp] theorem Course.setFlag_w6 (c : Course) (n x : Nat) : (c.setFlag n x).w6 = c.w6 := rfl
@[simp] theorem Course.setFlag_pcA (c : Course) (n x : Nat) : (c.setFlag n x).pcA = c.pcA := rfl
@[simp] theorem Course.setFlag_pcC (c : Course) (n x : Nat) : (c.setFlag n x).pcC = c.pcC := rfl
@[simp] theorem Course.setFlag_endA (c : Course) (n x : Nat) : (c.setFlag n x).endA = c.endA := rfl
@[simp] theorem Course.setFlag_endC (c : Course) (n x : Nat) : (c.setFlag n x).endC = c.endC := rfl
@[simp] theorem Course.setFlag_trap (c : Course) (n x : Nat) : (c.setFlag n x).trap = c.trap := rfl
@[simp] theorem Course.setFlag_trapRec (c : Course) (n x : Nat) : (c.setFlag n x).trapRec = c.trapRec := rfl
@[simp] theorem Course.setFlag_halted (c : Course) (n x : Nat) : (c.setFlag n x).halted = c.halted := rfl
@[simp] theorem Course.setFlag_retired (c : Course) (n x : Nat) : (c.setFlag n x).retired = c.retired := rfl
@[simp] theorem Course.setFlag_moving (c : Course) (n x : Nat) : (c.setFlag n x).moving = c.moving := rfl
@[simp] theorem Course.setFlag_savedAt (c : Course) (n x : Nat) : (c.setFlag n x).savedAt = c.savedAt := rfl
@[simp] theorem Course.setFlag_hold (c : Course) (n x : Nat) : (c.setFlag n x).hold = c.hold := rfl
@[simp] theorem Course.setFlag_holdC (c : Course) (n x : Nat) : (c.setFlag n x).holdC = c.holdC := rfl
@[simp] theorem Course.setFlag_lastA (c : Course) (n x : Nat) : (c.setFlag n x).lastA = c.lastA := rfl
@[simp] theorem Course.setFlag_lastC (c : Course) (n x : Nat) : (c.setFlag n x).lastC = c.lastC := rfl
@[simp] theorem Course.setFlag_restA (c : Course) (n x : Nat) : (c.setFlag n x).restA = c.restA := rfl
@[simp] theorem Course.setFlag_restC (c : Course) (n x : Nat) : (c.setFlag n x).restC = c.restC := rfl
@[simp] theorem Course.setFlag_ageA (c : Course) (n x : Nat) : (c.setFlag n x).ageA = c.ageA := rfl
@[simp] theorem Course.setFlag_ageC (c : Course) (n x : Nat) : (c.setFlag n x).ageC = c.ageC := rfl
@[simp] theorem Course.setFlag_live (c : Course) (n x : Nat) : (c.setFlag n x).live = c.live := rfl
@[simp] theorem Course.setFlag_s (c : Course) (n x : Nat) : (c.setFlag n x).s = c.s := rfl
@[simp] theorem Course.setFlag_w (c : Course) (n x : Nat) : (c.setFlag n x).w = c.w := rfl
@[simp] theorem Course.setFlag_v (c : Course) (n x : Nat) : (c.setFlag n x).v = c.v := rfl
@[simp] theorem Course.setFlag_p (c : Course) (n x : Nat) : (c.setFlag n x).p = c.p := rfl
@[simp] theorem Course.setFlag_qe (c : Course) (n x : Nat) : (c.setFlag n x).qe = c.qe := rfl
@[simp] theorem Course.setFlag_qs (c : Course) (n x : Nat) : (c.setFlag n x).qs = c.qs := rfl
@[simp] theorem Course.setFlag_b (c : Course) (n x : Nat) : (c.setFlag n x).b = c.b := rfl
@[simp] theorem Course.setFlag_flags (c : Course) (n x : Nat) : (c.setFlag n x).flags = Sparse.set c.flags n x 0 := rfl
@[simp] theorem Course.setFlag_queues (c : Course) (n x : Nat) : (c.setFlag n x).queues = c.queues := rfl
@[simp] theorem Course.setFlag_gang (c : Course) (n x : Nat) : (c.setFlag n x).gang = c.gang := rfl
@[simp] theorem Course.setFlag_recon (c : Course) (n x : Nat) : (c.setFlag n x).recon = c.recon := rfl
@[simp] theorem Course.setFlag_meld (c : Course) (n x : Nat) : (c.setFlag n x).meld = c.meld := rfl
@[simp] theorem Course.setFlag_fslots (c : Course) (n x : Nat) : (c.setFlag n x).fslots = c.fslots := rfl
@[simp] theorem Course.setFlag_recs (c : Course) (n x : Nat) : (c.setFlag n x).recs = c.recs := rfl
@[simp] theorem Course.setFlag_latch (c : Course) (n x : Nat) : (c.setFlag n x).latch = c.latch := rfl
@[simp] theorem Course.setFlag_event (c : Course) (n x : Nat) : (c.setFlag n x).event = c.event := rfl
@[simp] theorem Course.setFlag_sync (c : Course) (n x : Nat) : (c.setFlag n x).sync = c.sync := rfl
@[simp] theorem Course.setFlag_relFences (c : Course) (n x : Nat) : (c.setFlag n x).relFences = c.relFences := rfl
@[simp] theorem Course.setFlag_relSeen (c : Course) (n x : Nat) : (c.setFlag n x).relSeen = c.relSeen := rfl
@[simp] theorem Course.setFlag_epochs (c : Course) (n x : Nat) : (c.setFlag n x).epochs = c.epochs := rfl
@[simp] theorem Course.setFlag_work (c : Course) (n x : Nat) : (c.setFlag n x).work = c.work := rfl
@[simp] theorem Course.setFlag_atoms (c : Course) (n x : Nat) : (c.setFlag n x).atoms = c.atoms := rfl
@[simp] theorem Course.setFlag_promises (c : Course) (n x : Nat) : (c.setFlag n x).promises = c.promises := rfl
@[simp] theorem Course.setFlag_held (c : Course) (n x : Nat) : (c.setFlag n x).held = c.held := rfl
@[simp] theorem Course.setFlag_depths (c : Course) (n x : Nat) : (c.setFlag n x).depths = c.depths := rfl
@[simp] theorem Course.setFlag_icacheA (c : Course) (n x : Nat) : (c.setFlag n x).icacheA = c.icacheA := rfl
@[simp] theorem Course.setFlag_icacheC (c : Course) (n x : Nat) : (c.setFlag n x).icacheC = c.icacheC := rfl
@[simp] theorem Course.setFlag_copyRels (c : Course) (n x : Nat) : (c.setFlag n x).copyRels = c.copyRels := rfl
@[simp] theorem Course.setFlag_cancelled (c : Course) (n x : Nat) : (c.setFlag n x).cancelled = c.cancelled := rfl
@[simp] theorem Course.setFlag_wasReset (c : Course) (n x : Nat) : (c.setFlag n x).wasReset = c.wasReset := rfl
@[simp] theorem Course.setFlag_damaged (c : Course) (n x : Nat) : (c.setFlag n x).damaged = c.damaged := rfl
@[simp] theorem Course.setFlag_twin (c : Course) (n x : Nat) : (c.setFlag n x).twin = c.twin := rfl
@[simp] theorem Course.setFlag_twinOut (c : Course) (n x : Nat) : (c.setFlag n x).twinOut = c.twinOut := rfl
@[simp] theorem Course.setFlag_twinSlot (c : Course) (n x : Nat) : (c.setFlag n x).twinSlot = c.twinSlot := rfl
@[simp] theorem Course.setFlag_twinSet (c : Course) (n x : Nat) : (c.setFlag n x).twinSet = c.twinSet := rfl
@[simp] theorem Course.setFlag_pairA (c : Course) (n x : Nat) : (c.setFlag n x).pairA = c.pairA := rfl
@[simp] theorem Course.setFlag_pairC (c : Course) (n x : Nat) : (c.setFlag n x).pairC = c.pairC := rfl
@[simp] theorem Course.setFlag_sys (c : Course) (n x : Nat) : (c.setFlag n x).sys = c.sys := rfl

/-! `Course.setQueue` -/

@[simp] theorem Course.setQueue_ident (c : Course) (n : Nat) (q : List QSlot) : (c.setQueue n q).ident = c.ident := rfl
@[simp] theorem Course.setQueue_lid (c : Course) (n : Nat) (q : List QSlot) : (c.setQueue n q).lid = c.lid := rfl
@[simp] theorem Course.setQueue_cid (c : Course) (n : Nat) (q : List QSlot) : (c.setQueue n q).cid = c.cid := rfl
@[simp] theorem Course.setQueue_nid (c : Course) (n : Nat) (q : List QSlot) : (c.setQueue n q).nid = c.nid := rfl
@[simp] theorem Course.setQueue_gcnt (c : Course) (n : Nat) (q : List QSlot) : (c.setQueue n q).gcnt = c.gcnt := rfl
@[simp] theorem Course.setQueue_nthr (c : Course) (n : Nat) (q : List QSlot) : (c.setQueue n q).nthr = c.nthr := rfl
@[simp] theorem Course.setQueue_vcnt (c : Course) (n : Nat) (q : List QSlot) : (c.setQueue n q).vcnt = c.vcnt := rfl
@[simp] theorem Course.setQueue_qcnt (c : Course) (n : Nat) (q : List QSlot) : (c.setQueue n q).qcnt = c.qcnt := rfl
@[simp] theorem Course.setQueue_asid (c : Course) (n : Nat) (q : List QSlot) : (c.setQueue n q).asid = c.asid := rfl
@[simp] theorem Course.setQueue_launch (c : Course) (n : Nat) (q : List QSlot) : (c.setQueue n q).launch = c.launch := rfl
@[simp] theorem Course.setQueue_resident (c : Course) (n : Nat) (q : List QSlot) : (c.setQueue n q).resident = c.resident := rfl
@[simp] theorem Course.setQueue_wall (c : Course) (n : Nat) (q : List QSlot) : (c.setQueue n q).wall = c.wall := rfl
@[simp] theorem Course.setQueue_plane (c : Course) (n : Nat) (q : List QSlot) : (c.setQueue n q).plane = c.plane := rfl
@[simp] theorem Course.setQueue_slot (c : Course) (n : Nat) (q : List QSlot) : (c.setQueue n q).slot = c.slot := rfl
@[simp] theorem Course.setQueue_lset (c : Course) (n : Nat) (q : List QSlot) : (c.setQueue n q).lset = c.lset := rfl
@[simp] theorem Course.setQueue_unified (c : Course) (n : Nat) (q : List QSlot) : (c.setQueue n q).unified = c.unified := rfl
@[simp] theorem Course.setQueue_w6 (c : Course) (n : Nat) (q : List QSlot) : (c.setQueue n q).w6 = c.w6 := rfl
@[simp] theorem Course.setQueue_pcA (c : Course) (n : Nat) (q : List QSlot) : (c.setQueue n q).pcA = c.pcA := rfl
@[simp] theorem Course.setQueue_pcC (c : Course) (n : Nat) (q : List QSlot) : (c.setQueue n q).pcC = c.pcC := rfl
@[simp] theorem Course.setQueue_endA (c : Course) (n : Nat) (q : List QSlot) : (c.setQueue n q).endA = c.endA := rfl
@[simp] theorem Course.setQueue_endC (c : Course) (n : Nat) (q : List QSlot) : (c.setQueue n q).endC = c.endC := rfl
@[simp] theorem Course.setQueue_trap (c : Course) (n : Nat) (q : List QSlot) : (c.setQueue n q).trap = c.trap := rfl
@[simp] theorem Course.setQueue_trapRec (c : Course) (n : Nat) (q : List QSlot) : (c.setQueue n q).trapRec = c.trapRec := rfl
@[simp] theorem Course.setQueue_halted (c : Course) (n : Nat) (q : List QSlot) : (c.setQueue n q).halted = c.halted := rfl
@[simp] theorem Course.setQueue_retired (c : Course) (n : Nat) (q : List QSlot) : (c.setQueue n q).retired = c.retired := rfl
@[simp] theorem Course.setQueue_moving (c : Course) (n : Nat) (q : List QSlot) : (c.setQueue n q).moving = c.moving := rfl
@[simp] theorem Course.setQueue_savedAt (c : Course) (n : Nat) (q : List QSlot) : (c.setQueue n q).savedAt = c.savedAt := rfl
@[simp] theorem Course.setQueue_hold (c : Course) (n : Nat) (q : List QSlot) : (c.setQueue n q).hold = c.hold := rfl
@[simp] theorem Course.setQueue_holdC (c : Course) (n : Nat) (q : List QSlot) : (c.setQueue n q).holdC = c.holdC := rfl
@[simp] theorem Course.setQueue_lastA (c : Course) (n : Nat) (q : List QSlot) : (c.setQueue n q).lastA = c.lastA := rfl
@[simp] theorem Course.setQueue_lastC (c : Course) (n : Nat) (q : List QSlot) : (c.setQueue n q).lastC = c.lastC := rfl
@[simp] theorem Course.setQueue_restA (c : Course) (n : Nat) (q : List QSlot) : (c.setQueue n q).restA = c.restA := rfl
@[simp] theorem Course.setQueue_restC (c : Course) (n : Nat) (q : List QSlot) : (c.setQueue n q).restC = c.restC := rfl
@[simp] theorem Course.setQueue_ageA (c : Course) (n : Nat) (q : List QSlot) : (c.setQueue n q).ageA = c.ageA := rfl
@[simp] theorem Course.setQueue_ageC (c : Course) (n : Nat) (q : List QSlot) : (c.setQueue n q).ageC = c.ageC := rfl
@[simp] theorem Course.setQueue_live (c : Course) (n : Nat) (q : List QSlot) : (c.setQueue n q).live = c.live := rfl
@[simp] theorem Course.setQueue_s (c : Course) (n : Nat) (q : List QSlot) : (c.setQueue n q).s = c.s := rfl
@[simp] theorem Course.setQueue_w (c : Course) (n : Nat) (q : List QSlot) : (c.setQueue n q).w = c.w := rfl
@[simp] theorem Course.setQueue_v (c : Course) (n : Nat) (q : List QSlot) : (c.setQueue n q).v = c.v := rfl
@[simp] theorem Course.setQueue_p (c : Course) (n : Nat) (q : List QSlot) : (c.setQueue n q).p = c.p := rfl
@[simp] theorem Course.setQueue_qe (c : Course) (n : Nat) (q : List QSlot) : (c.setQueue n q).qe = c.qe := rfl
@[simp] theorem Course.setQueue_qs (c : Course) (n : Nat) (q : List QSlot) : (c.setQueue n q).qs = c.qs := rfl
@[simp] theorem Course.setQueue_b (c : Course) (n : Nat) (q : List QSlot) : (c.setQueue n q).b = c.b := rfl
@[simp] theorem Course.setQueue_flags (c : Course) (n : Nat) (q : List QSlot) : (c.setQueue n q).flags = c.flags := rfl
@[simp] theorem Course.setQueue_queues (c : Course) (n : Nat) (q : List QSlot) : (c.setQueue n q).queues = Sparse.set c.queues n q [] := rfl
@[simp] theorem Course.setQueue_gang (c : Course) (n : Nat) (q : List QSlot) : (c.setQueue n q).gang = c.gang := rfl
@[simp] theorem Course.setQueue_recon (c : Course) (n : Nat) (q : List QSlot) : (c.setQueue n q).recon = c.recon := rfl
@[simp] theorem Course.setQueue_meld (c : Course) (n : Nat) (q : List QSlot) : (c.setQueue n q).meld = c.meld := rfl
@[simp] theorem Course.setQueue_fslots (c : Course) (n : Nat) (q : List QSlot) : (c.setQueue n q).fslots = c.fslots := rfl
@[simp] theorem Course.setQueue_recs (c : Course) (n : Nat) (q : List QSlot) : (c.setQueue n q).recs = c.recs := rfl
@[simp] theorem Course.setQueue_latch (c : Course) (n : Nat) (q : List QSlot) : (c.setQueue n q).latch = c.latch := rfl
@[simp] theorem Course.setQueue_event (c : Course) (n : Nat) (q : List QSlot) : (c.setQueue n q).event = c.event := rfl
@[simp] theorem Course.setQueue_sync (c : Course) (n : Nat) (q : List QSlot) : (c.setQueue n q).sync = c.sync := rfl
@[simp] theorem Course.setQueue_relFences (c : Course) (n : Nat) (q : List QSlot) : (c.setQueue n q).relFences = c.relFences := rfl
@[simp] theorem Course.setQueue_relSeen (c : Course) (n : Nat) (q : List QSlot) : (c.setQueue n q).relSeen = c.relSeen := rfl
@[simp] theorem Course.setQueue_epochs (c : Course) (n : Nat) (q : List QSlot) : (c.setQueue n q).epochs = c.epochs := rfl
@[simp] theorem Course.setQueue_work (c : Course) (n : Nat) (q : List QSlot) : (c.setQueue n q).work = c.work := rfl
@[simp] theorem Course.setQueue_atoms (c : Course) (n : Nat) (q : List QSlot) : (c.setQueue n q).atoms = c.atoms := rfl
@[simp] theorem Course.setQueue_promises (c : Course) (n : Nat) (q : List QSlot) : (c.setQueue n q).promises = c.promises := rfl
@[simp] theorem Course.setQueue_held (c : Course) (n : Nat) (q : List QSlot) : (c.setQueue n q).held = c.held := rfl
@[simp] theorem Course.setQueue_depths (c : Course) (n : Nat) (q : List QSlot) : (c.setQueue n q).depths = c.depths := rfl
@[simp] theorem Course.setQueue_icacheA (c : Course) (n : Nat) (q : List QSlot) : (c.setQueue n q).icacheA = c.icacheA := rfl
@[simp] theorem Course.setQueue_icacheC (c : Course) (n : Nat) (q : List QSlot) : (c.setQueue n q).icacheC = c.icacheC := rfl
@[simp] theorem Course.setQueue_copyRels (c : Course) (n : Nat) (q : List QSlot) : (c.setQueue n q).copyRels = c.copyRels := rfl
@[simp] theorem Course.setQueue_cancelled (c : Course) (n : Nat) (q : List QSlot) : (c.setQueue n q).cancelled = c.cancelled := rfl
@[simp] theorem Course.setQueue_wasReset (c : Course) (n : Nat) (q : List QSlot) : (c.setQueue n q).wasReset = c.wasReset := rfl
@[simp] theorem Course.setQueue_damaged (c : Course) (n : Nat) (q : List QSlot) : (c.setQueue n q).damaged = c.damaged := rfl
@[simp] theorem Course.setQueue_twin (c : Course) (n : Nat) (q : List QSlot) : (c.setQueue n q).twin = c.twin := rfl
@[simp] theorem Course.setQueue_twinOut (c : Course) (n : Nat) (q : List QSlot) : (c.setQueue n q).twinOut = c.twinOut := rfl
@[simp] theorem Course.setQueue_twinSlot (c : Course) (n : Nat) (q : List QSlot) : (c.setQueue n q).twinSlot = c.twinSlot := rfl
@[simp] theorem Course.setQueue_twinSet (c : Course) (n : Nat) (q : List QSlot) : (c.setQueue n q).twinSet = c.twinSet := rfl
@[simp] theorem Course.setQueue_pairA (c : Course) (n : Nat) (q : List QSlot) : (c.setQueue n q).pairA = c.pairA := rfl
@[simp] theorem Course.setQueue_pairC (c : Course) (n : Nat) (q : List QSlot) : (c.setQueue n q).pairC = c.pairC := rfl
@[simp] theorem Course.setQueue_sys (c : Course) (n : Nat) (q : List QSlot) : (c.setQueue n q).sys = c.sys := rfl

/-! `Course.setPc` -/

@[simp] theorem Course.setPc_ident (c : Course) (st : Stream) (x : DWord) : (c.setPc st x).ident = c.ident := by cases st <;> rfl
@[simp] theorem Course.setPc_lid (c : Course) (st : Stream) (x : DWord) : (c.setPc st x).lid = c.lid := by cases st <;> rfl
@[simp] theorem Course.setPc_cid (c : Course) (st : Stream) (x : DWord) : (c.setPc st x).cid = c.cid := by cases st <;> rfl
@[simp] theorem Course.setPc_nid (c : Course) (st : Stream) (x : DWord) : (c.setPc st x).nid = c.nid := by cases st <;> rfl
@[simp] theorem Course.setPc_gcnt (c : Course) (st : Stream) (x : DWord) : (c.setPc st x).gcnt = c.gcnt := by cases st <;> rfl
@[simp] theorem Course.setPc_nthr (c : Course) (st : Stream) (x : DWord) : (c.setPc st x).nthr = c.nthr := by cases st <;> rfl
@[simp] theorem Course.setPc_vcnt (c : Course) (st : Stream) (x : DWord) : (c.setPc st x).vcnt = c.vcnt := by cases st <;> rfl
@[simp] theorem Course.setPc_qcnt (c : Course) (st : Stream) (x : DWord) : (c.setPc st x).qcnt = c.qcnt := by cases st <;> rfl
@[simp] theorem Course.setPc_asid (c : Course) (st : Stream) (x : DWord) : (c.setPc st x).asid = c.asid := by cases st <;> rfl
@[simp] theorem Course.setPc_launch (c : Course) (st : Stream) (x : DWord) : (c.setPc st x).launch = c.launch := by cases st <;> rfl
@[simp] theorem Course.setPc_resident (c : Course) (st : Stream) (x : DWord) : (c.setPc st x).resident = c.resident := by cases st <;> rfl
@[simp] theorem Course.setPc_wall (c : Course) (st : Stream) (x : DWord) : (c.setPc st x).wall = c.wall := by cases st <;> rfl
@[simp] theorem Course.setPc_plane (c : Course) (st : Stream) (x : DWord) : (c.setPc st x).plane = c.plane := by cases st <;> rfl
@[simp] theorem Course.setPc_slot (c : Course) (st : Stream) (x : DWord) : (c.setPc st x).slot = c.slot := by cases st <;> rfl
@[simp] theorem Course.setPc_lset (c : Course) (st : Stream) (x : DWord) : (c.setPc st x).lset = c.lset := by cases st <;> rfl
@[simp] theorem Course.setPc_unified (c : Course) (st : Stream) (x : DWord) : (c.setPc st x).unified = c.unified := by cases st <;> rfl
@[simp] theorem Course.setPc_w6 (c : Course) (st : Stream) (x : DWord) : (c.setPc st x).w6 = c.w6 := by cases st <;> rfl
@[simp] theorem Course.setPc_endA (c : Course) (st : Stream) (x : DWord) : (c.setPc st x).endA = c.endA := by cases st <;> rfl
@[simp] theorem Course.setPc_endC (c : Course) (st : Stream) (x : DWord) : (c.setPc st x).endC = c.endC := by cases st <;> rfl
@[simp] theorem Course.setPc_trap (c : Course) (st : Stream) (x : DWord) : (c.setPc st x).trap = c.trap := by cases st <;> rfl
@[simp] theorem Course.setPc_trapRec (c : Course) (st : Stream) (x : DWord) : (c.setPc st x).trapRec = c.trapRec := by cases st <;> rfl
@[simp] theorem Course.setPc_halted (c : Course) (st : Stream) (x : DWord) : (c.setPc st x).halted = c.halted := by cases st <;> rfl
@[simp] theorem Course.setPc_retired (c : Course) (st : Stream) (x : DWord) : (c.setPc st x).retired = c.retired := by cases st <;> rfl
@[simp] theorem Course.setPc_moving (c : Course) (st : Stream) (x : DWord) : (c.setPc st x).moving = c.moving := by cases st <;> rfl
@[simp] theorem Course.setPc_savedAt (c : Course) (st : Stream) (x : DWord) : (c.setPc st x).savedAt = c.savedAt := by cases st <;> rfl
@[simp] theorem Course.setPc_hold (c : Course) (st : Stream) (x : DWord) : (c.setPc st x).hold = c.hold := by cases st <;> rfl
@[simp] theorem Course.setPc_holdC (c : Course) (st : Stream) (x : DWord) : (c.setPc st x).holdC = c.holdC := by cases st <;> rfl
@[simp] theorem Course.setPc_lastA (c : Course) (st : Stream) (x : DWord) : (c.setPc st x).lastA = c.lastA := by cases st <;> rfl
@[simp] theorem Course.setPc_lastC (c : Course) (st : Stream) (x : DWord) : (c.setPc st x).lastC = c.lastC := by cases st <;> rfl
@[simp] theorem Course.setPc_restA (c : Course) (st : Stream) (x : DWord) : (c.setPc st x).restA = c.restA := by cases st <;> rfl
@[simp] theorem Course.setPc_restC (c : Course) (st : Stream) (x : DWord) : (c.setPc st x).restC = c.restC := by cases st <;> rfl
@[simp] theorem Course.setPc_ageA (c : Course) (st : Stream) (x : DWord) : (c.setPc st x).ageA = c.ageA := by cases st <;> rfl
@[simp] theorem Course.setPc_ageC (c : Course) (st : Stream) (x : DWord) : (c.setPc st x).ageC = c.ageC := by cases st <;> rfl
@[simp] theorem Course.setPc_live (c : Course) (st : Stream) (x : DWord) : (c.setPc st x).live = c.live := by cases st <;> rfl
@[simp] theorem Course.setPc_s (c : Course) (st : Stream) (x : DWord) : (c.setPc st x).s = c.s := by cases st <;> rfl
@[simp] theorem Course.setPc_w (c : Course) (st : Stream) (x : DWord) : (c.setPc st x).w = c.w := by cases st <;> rfl
@[simp] theorem Course.setPc_v (c : Course) (st : Stream) (x : DWord) : (c.setPc st x).v = c.v := by cases st <;> rfl
@[simp] theorem Course.setPc_p (c : Course) (st : Stream) (x : DWord) : (c.setPc st x).p = c.p := by cases st <;> rfl
@[simp] theorem Course.setPc_qe (c : Course) (st : Stream) (x : DWord) : (c.setPc st x).qe = c.qe := by cases st <;> rfl
@[simp] theorem Course.setPc_qs (c : Course) (st : Stream) (x : DWord) : (c.setPc st x).qs = c.qs := by cases st <;> rfl
@[simp] theorem Course.setPc_b (c : Course) (st : Stream) (x : DWord) : (c.setPc st x).b = c.b := by cases st <;> rfl
@[simp] theorem Course.setPc_flags (c : Course) (st : Stream) (x : DWord) : (c.setPc st x).flags = c.flags := by cases st <;> rfl
@[simp] theorem Course.setPc_queues (c : Course) (st : Stream) (x : DWord) : (c.setPc st x).queues = c.queues := by cases st <;> rfl
@[simp] theorem Course.setPc_gang (c : Course) (st : Stream) (x : DWord) : (c.setPc st x).gang = c.gang := by cases st <;> rfl
@[simp] theorem Course.setPc_recon (c : Course) (st : Stream) (x : DWord) : (c.setPc st x).recon = c.recon := by cases st <;> rfl
@[simp] theorem Course.setPc_meld (c : Course) (st : Stream) (x : DWord) : (c.setPc st x).meld = c.meld := by cases st <;> rfl
@[simp] theorem Course.setPc_fslots (c : Course) (st : Stream) (x : DWord) : (c.setPc st x).fslots = c.fslots := by cases st <;> rfl
@[simp] theorem Course.setPc_recs (c : Course) (st : Stream) (x : DWord) : (c.setPc st x).recs = c.recs := by cases st <;> rfl
@[simp] theorem Course.setPc_latch (c : Course) (st : Stream) (x : DWord) : (c.setPc st x).latch = c.latch := by cases st <;> rfl
@[simp] theorem Course.setPc_event (c : Course) (st : Stream) (x : DWord) : (c.setPc st x).event = c.event := by cases st <;> rfl
@[simp] theorem Course.setPc_sync (c : Course) (st : Stream) (x : DWord) : (c.setPc st x).sync = c.sync := by cases st <;> rfl
@[simp] theorem Course.setPc_relFences (c : Course) (st : Stream) (x : DWord) : (c.setPc st x).relFences = c.relFences := by cases st <;> rfl
@[simp] theorem Course.setPc_relSeen (c : Course) (st : Stream) (x : DWord) : (c.setPc st x).relSeen = c.relSeen := by cases st <;> rfl
@[simp] theorem Course.setPc_epochs (c : Course) (st : Stream) (x : DWord) : (c.setPc st x).epochs = c.epochs := by cases st <;> rfl
@[simp] theorem Course.setPc_work (c : Course) (st : Stream) (x : DWord) : (c.setPc st x).work = c.work := by cases st <;> rfl
@[simp] theorem Course.setPc_atoms (c : Course) (st : Stream) (x : DWord) : (c.setPc st x).atoms = c.atoms := by cases st <;> rfl
@[simp] theorem Course.setPc_promises (c : Course) (st : Stream) (x : DWord) : (c.setPc st x).promises = c.promises := by cases st <;> rfl
@[simp] theorem Course.setPc_held (c : Course) (st : Stream) (x : DWord) : (c.setPc st x).held = c.held := by cases st <;> rfl
@[simp] theorem Course.setPc_depths (c : Course) (st : Stream) (x : DWord) : (c.setPc st x).depths = c.depths := by cases st <;> rfl
@[simp] theorem Course.setPc_icacheA (c : Course) (st : Stream) (x : DWord) : (c.setPc st x).icacheA = c.icacheA := by cases st <;> rfl
@[simp] theorem Course.setPc_icacheC (c : Course) (st : Stream) (x : DWord) : (c.setPc st x).icacheC = c.icacheC := by cases st <;> rfl
@[simp] theorem Course.setPc_copyRels (c : Course) (st : Stream) (x : DWord) : (c.setPc st x).copyRels = c.copyRels := by cases st <;> rfl
@[simp] theorem Course.setPc_cancelled (c : Course) (st : Stream) (x : DWord) : (c.setPc st x).cancelled = c.cancelled := by cases st <;> rfl
@[simp] theorem Course.setPc_wasReset (c : Course) (st : Stream) (x : DWord) : (c.setPc st x).wasReset = c.wasReset := by cases st <;> rfl
@[simp] theorem Course.setPc_damaged (c : Course) (st : Stream) (x : DWord) : (c.setPc st x).damaged = c.damaged := by cases st <;> rfl
@[simp] theorem Course.setPc_twin (c : Course) (st : Stream) (x : DWord) : (c.setPc st x).twin = c.twin := by cases st <;> rfl
@[simp] theorem Course.setPc_twinOut (c : Course) (st : Stream) (x : DWord) : (c.setPc st x).twinOut = c.twinOut := by cases st <;> rfl
@[simp] theorem Course.setPc_twinSlot (c : Course) (st : Stream) (x : DWord) : (c.setPc st x).twinSlot = c.twinSlot := by cases st <;> rfl
@[simp] theorem Course.setPc_twinSet (c : Course) (st : Stream) (x : DWord) : (c.setPc st x).twinSet = c.twinSet := by cases st <;> rfl
@[simp] theorem Course.setPc_pairA (c : Course) (st : Stream) (x : DWord) : (c.setPc st x).pairA = c.pairA := by cases st <;> rfl
@[simp] theorem Course.setPc_pairC (c : Course) (st : Stream) (x : DWord) : (c.setPc st x).pairC = c.pairC := by cases st <;> rfl
@[simp] theorem Course.setPc_sys (c : Course) (st : Stream) (x : DWord) : (c.setPc st x).sys = c.sys := by cases st <;> rfl
/-! `Course.setPair` -/

@[simp] theorem Course.setPair_ident (c : Course) (st : Stream) (p : Pair) : (c.setPair st p).ident = c.ident := by cases st <;> rfl
@[simp] theorem Course.setPair_lid (c : Course) (st : Stream) (p : Pair) : (c.setPair st p).lid = c.lid := by cases st <;> rfl
@[simp] theorem Course.setPair_cid (c : Course) (st : Stream) (p : Pair) : (c.setPair st p).cid = c.cid := by cases st <;> rfl
@[simp] theorem Course.setPair_nid (c : Course) (st : Stream) (p : Pair) : (c.setPair st p).nid = c.nid := by cases st <;> rfl
@[simp] theorem Course.setPair_gcnt (c : Course) (st : Stream) (p : Pair) : (c.setPair st p).gcnt = c.gcnt := by cases st <;> rfl
@[simp] theorem Course.setPair_nthr (c : Course) (st : Stream) (p : Pair) : (c.setPair st p).nthr = c.nthr := by cases st <;> rfl
@[simp] theorem Course.setPair_vcnt (c : Course) (st : Stream) (p : Pair) : (c.setPair st p).vcnt = c.vcnt := by cases st <;> rfl
@[simp] theorem Course.setPair_qcnt (c : Course) (st : Stream) (p : Pair) : (c.setPair st p).qcnt = c.qcnt := by cases st <;> rfl
@[simp] theorem Course.setPair_asid (c : Course) (st : Stream) (p : Pair) : (c.setPair st p).asid = c.asid := by cases st <;> rfl
@[simp] theorem Course.setPair_launch (c : Course) (st : Stream) (p : Pair) : (c.setPair st p).launch = c.launch := by cases st <;> rfl
@[simp] theorem Course.setPair_resident (c : Course) (st : Stream) (p : Pair) : (c.setPair st p).resident = c.resident := by cases st <;> rfl
@[simp] theorem Course.setPair_wall (c : Course) (st : Stream) (p : Pair) : (c.setPair st p).wall = c.wall := by cases st <;> rfl
@[simp] theorem Course.setPair_plane (c : Course) (st : Stream) (p : Pair) : (c.setPair st p).plane = c.plane := by cases st <;> rfl
@[simp] theorem Course.setPair_slot (c : Course) (st : Stream) (p : Pair) : (c.setPair st p).slot = c.slot := by cases st <;> rfl
@[simp] theorem Course.setPair_lset (c : Course) (st : Stream) (p : Pair) : (c.setPair st p).lset = c.lset := by cases st <;> rfl
@[simp] theorem Course.setPair_unified (c : Course) (st : Stream) (p : Pair) : (c.setPair st p).unified = c.unified := by cases st <;> rfl
@[simp] theorem Course.setPair_w6 (c : Course) (st : Stream) (p : Pair) : (c.setPair st p).w6 = c.w6 := by cases st <;> rfl
@[simp] theorem Course.setPair_pcA (c : Course) (st : Stream) (p : Pair) : (c.setPair st p).pcA = c.pcA := by cases st <;> rfl
@[simp] theorem Course.setPair_pcC (c : Course) (st : Stream) (p : Pair) : (c.setPair st p).pcC = c.pcC := by cases st <;> rfl
@[simp] theorem Course.setPair_endA (c : Course) (st : Stream) (p : Pair) : (c.setPair st p).endA = c.endA := by cases st <;> rfl
@[simp] theorem Course.setPair_endC (c : Course) (st : Stream) (p : Pair) : (c.setPair st p).endC = c.endC := by cases st <;> rfl
@[simp] theorem Course.setPair_trap (c : Course) (st : Stream) (p : Pair) : (c.setPair st p).trap = c.trap := by cases st <;> rfl
@[simp] theorem Course.setPair_trapRec (c : Course) (st : Stream) (p : Pair) : (c.setPair st p).trapRec = c.trapRec := by cases st <;> rfl
@[simp] theorem Course.setPair_halted (c : Course) (st : Stream) (p : Pair) : (c.setPair st p).halted = c.halted := by cases st <;> rfl
@[simp] theorem Course.setPair_retired (c : Course) (st : Stream) (p : Pair) : (c.setPair st p).retired = c.retired := by cases st <;> rfl
@[simp] theorem Course.setPair_moving (c : Course) (st : Stream) (p : Pair) : (c.setPair st p).moving = c.moving := by cases st <;> rfl
@[simp] theorem Course.setPair_savedAt (c : Course) (st : Stream) (p : Pair) : (c.setPair st p).savedAt = c.savedAt := by cases st <;> rfl
@[simp] theorem Course.setPair_hold (c : Course) (st : Stream) (p : Pair) : (c.setPair st p).hold = c.hold := by cases st <;> rfl
@[simp] theorem Course.setPair_holdC (c : Course) (st : Stream) (p : Pair) : (c.setPair st p).holdC = c.holdC := by cases st <;> rfl
@[simp] theorem Course.setPair_lastA (c : Course) (st : Stream) (p : Pair) : (c.setPair st p).lastA = c.lastA := by cases st <;> rfl
@[simp] theorem Course.setPair_lastC (c : Course) (st : Stream) (p : Pair) : (c.setPair st p).lastC = c.lastC := by cases st <;> rfl
@[simp] theorem Course.setPair_restA (c : Course) (st : Stream) (p : Pair) : (c.setPair st p).restA = c.restA := by cases st <;> rfl
@[simp] theorem Course.setPair_restC (c : Course) (st : Stream) (p : Pair) : (c.setPair st p).restC = c.restC := by cases st <;> rfl
@[simp] theorem Course.setPair_ageA (c : Course) (st : Stream) (p : Pair) : (c.setPair st p).ageA = c.ageA := by cases st <;> rfl
@[simp] theorem Course.setPair_ageC (c : Course) (st : Stream) (p : Pair) : (c.setPair st p).ageC = c.ageC := by cases st <;> rfl
@[simp] theorem Course.setPair_live (c : Course) (st : Stream) (p : Pair) : (c.setPair st p).live = c.live := by cases st <;> rfl
@[simp] theorem Course.setPair_s (c : Course) (st : Stream) (p : Pair) : (c.setPair st p).s = c.s := by cases st <;> rfl
@[simp] theorem Course.setPair_w (c : Course) (st : Stream) (p : Pair) : (c.setPair st p).w = c.w := by cases st <;> rfl
@[simp] theorem Course.setPair_v (c : Course) (st : Stream) (p : Pair) : (c.setPair st p).v = c.v := by cases st <;> rfl
@[simp] theorem Course.setPair_p (c : Course) (st : Stream) (p : Pair) : (c.setPair st p).p = c.p := by cases st <;> rfl
@[simp] theorem Course.setPair_qe (c : Course) (st : Stream) (p : Pair) : (c.setPair st p).qe = c.qe := by cases st <;> rfl
@[simp] theorem Course.setPair_qs (c : Course) (st : Stream) (p : Pair) : (c.setPair st p).qs = c.qs := by cases st <;> rfl
@[simp] theorem Course.setPair_b (c : Course) (st : Stream) (p : Pair) : (c.setPair st p).b = c.b := by cases st <;> rfl
@[simp] theorem Course.setPair_flags (c : Course) (st : Stream) (p : Pair) : (c.setPair st p).flags = c.flags := by cases st <;> rfl
@[simp] theorem Course.setPair_queues (c : Course) (st : Stream) (p : Pair) : (c.setPair st p).queues = c.queues := by cases st <;> rfl
@[simp] theorem Course.setPair_gang (c : Course) (st : Stream) (p : Pair) : (c.setPair st p).gang = c.gang := by cases st <;> rfl
@[simp] theorem Course.setPair_recon (c : Course) (st : Stream) (p : Pair) : (c.setPair st p).recon = c.recon := by cases st <;> rfl
@[simp] theorem Course.setPair_meld (c : Course) (st : Stream) (p : Pair) : (c.setPair st p).meld = c.meld := by cases st <;> rfl
@[simp] theorem Course.setPair_fslots (c : Course) (st : Stream) (p : Pair) : (c.setPair st p).fslots = c.fslots := by cases st <;> rfl
@[simp] theorem Course.setPair_recs (c : Course) (st : Stream) (p : Pair) : (c.setPair st p).recs = c.recs := by cases st <;> rfl
@[simp] theorem Course.setPair_latch (c : Course) (st : Stream) (p : Pair) : (c.setPair st p).latch = c.latch := by cases st <;> rfl
@[simp] theorem Course.setPair_event (c : Course) (st : Stream) (p : Pair) : (c.setPair st p).event = c.event := by cases st <;> rfl
@[simp] theorem Course.setPair_sync (c : Course) (st : Stream) (p : Pair) : (c.setPair st p).sync = c.sync := by cases st <;> rfl
@[simp] theorem Course.setPair_relFences (c : Course) (st : Stream) (p : Pair) : (c.setPair st p).relFences = c.relFences := by cases st <;> rfl
@[simp] theorem Course.setPair_relSeen (c : Course) (st : Stream) (p : Pair) : (c.setPair st p).relSeen = c.relSeen := by cases st <;> rfl
@[simp] theorem Course.setPair_epochs (c : Course) (st : Stream) (p : Pair) : (c.setPair st p).epochs = c.epochs := by cases st <;> rfl
@[simp] theorem Course.setPair_work (c : Course) (st : Stream) (p : Pair) : (c.setPair st p).work = c.work := by cases st <;> rfl
@[simp] theorem Course.setPair_atoms (c : Course) (st : Stream) (p : Pair) : (c.setPair st p).atoms = c.atoms := by cases st <;> rfl
@[simp] theorem Course.setPair_promises (c : Course) (st : Stream) (p : Pair) : (c.setPair st p).promises = c.promises := by cases st <;> rfl
@[simp] theorem Course.setPair_held (c : Course) (st : Stream) (p : Pair) : (c.setPair st p).held = c.held := by cases st <;> rfl
@[simp] theorem Course.setPair_depths (c : Course) (st : Stream) (p : Pair) : (c.setPair st p).depths = c.depths := by cases st <;> rfl
@[simp] theorem Course.setPair_icacheA (c : Course) (st : Stream) (p : Pair) : (c.setPair st p).icacheA = c.icacheA := by cases st <;> rfl
@[simp] theorem Course.setPair_icacheC (c : Course) (st : Stream) (p : Pair) : (c.setPair st p).icacheC = c.icacheC := by cases st <;> rfl
@[simp] theorem Course.setPair_copyRels (c : Course) (st : Stream) (p : Pair) : (c.setPair st p).copyRels = c.copyRels := by cases st <;> rfl
@[simp] theorem Course.setPair_cancelled (c : Course) (st : Stream) (p : Pair) : (c.setPair st p).cancelled = c.cancelled := by cases st <;> rfl
@[simp] theorem Course.setPair_wasReset (c : Course) (st : Stream) (p : Pair) : (c.setPair st p).wasReset = c.wasReset := by cases st <;> rfl
@[simp] theorem Course.setPair_damaged (c : Course) (st : Stream) (p : Pair) : (c.setPair st p).damaged = c.damaged := by cases st <;> rfl
@[simp] theorem Course.setPair_twin (c : Course) (st : Stream) (p : Pair) : (c.setPair st p).twin = c.twin := by cases st <;> rfl
@[simp] theorem Course.setPair_twinOut (c : Course) (st : Stream) (p : Pair) : (c.setPair st p).twinOut = c.twinOut := by cases st <;> rfl
@[simp] theorem Course.setPair_twinSlot (c : Course) (st : Stream) (p : Pair) : (c.setPair st p).twinSlot = c.twinSlot := by cases st <;> rfl
@[simp] theorem Course.setPair_twinSet (c : Course) (st : Stream) (p : Pair) : (c.setPair st p).twinSet = c.twinSet := by cases st <;> rfl
@[simp] theorem Course.setPair_sys (c : Course) (st : Stream) (p : Pair) : (c.setPair st p).sys = c.sys := by cases st <;> rfl
@[simp] theorem Course.pair_setPair (c : Course) (st : Stream) (p : Pair) : (c.setPair st p).pair st = p := by cases st <;> rfl
@[simp] theorem Course.setPc_pcA (c : Course) (st : Stream) (x : DWord) :
    (c.setPc st x).pcA = if st = .addr then x else c.pcA := by cases st <;> rfl
@[simp] theorem Course.setPc_pcC (c : Course) (st : Stream) (x : DWord) :
    (c.setPc st x).pcC = if st = .comp then x else c.pcC := by cases st <;> rfl
@[simp] theorem Course.pc_setPc (c : Course) (st : Stream) (x : DWord) : (c.setPc st x).pc st = x := by cases st <;> rfl

end Sys2Proof.Machine
end

