-- ==== Sys2Proof/Laws/Tables.lean ====
section
/-! SUPPORT. The laws of tables and of memory: reading after writing, and the canonical form that every operation keeps. -/

namespace Sys2Proof.Machine

variable {β : Type}

/-! Tables. -/

theorem Sparse.get_put_self (m : Sparse β) (k : Nat) (x d : β) : Sparse.get (Sparse.put m k x) k d = x := by
  induction m with
  | nil => simp [Sparse.put, Sparse.get]
  | cons e r ih =>
    unfold Sparse.put
    split
    · simp [Sparse.get]
    · split
      · simp [Sparse.get]
      · rename_i h _
        simp [Sparse.get, h, ih]

theorem Sparse.get_put_other (m : Sparse β) {k j : Nat} (h : j ≠ k) (x d : β) :
    Sparse.get (Sparse.put m k x) j d = Sparse.get m j d := by
  induction m with
  | nil => simp [Sparse.put, Sparse.get, Ne.symm h]
  | cons e r ih =>
    unfold Sparse.put
    split
    · rename_i he
      simp [Sparse.get, Ne.symm h, he]
    · split
      · simp [Sparse.get, Ne.symm h]
      · by_cases hj : e.1 = j <;> simp [Sparse.get, hj, ih]

theorem Sparse.get_del_self (m : Sparse β) (k : Nat) (d : β) : Sparse.get (Sparse.del m k) k d = d := by
  induction m with
  | nil => simp [Sparse.del, Sparse.get]
  | cons e r ih =>
    unfold Sparse.del at *
    by_cases h : e.1 = k
    · simpa [h] using ih
    · simpa [h, Sparse.get] using ih

theorem Sparse.get_del_other (m : Sparse β) {k j : Nat} (h : j ≠ k) (d : β) :
    Sparse.get (Sparse.del m k) j d = Sparse.get m j d := by
  induction m with
  | nil => simp [Sparse.del]
  | cons e r ih =>
    unfold Sparse.del at *
    by_cases hk : e.1 = k
    · have hj : ¬ e.1 = j := fun hj => h (hj.symm.trans hk)
      simpa [hk, Sparse.get, Ne.symm h] using ih
    · by_cases hj : e.1 = j
      · simp [Sparse.get, hj, h]
      · simpa [hk, Sparse.get, hj] using ih

/-- Reading a table after one write. -/
theorem Sparse.get_set [DecidableEq β] (m : Sparse β) (k j : Nat) (x d : β) :
    Sparse.get (Sparse.set m k x d) j d = if j = k then x else Sparse.get m j d := by
  by_cases hj : j = k
  · subst hj
    by_cases hx : x = d
    · simp [Sparse.set, hx, Sparse.get_del_self]
    · simp [Sparse.set, hx, Sparse.get_put_self]
  · by_cases hx : x = d
    · simp [Sparse.set, hx, hj, Sparse.get_del_other m hj]
    · simp [Sparse.set, hx, hj, Sparse.get_put_other m hj]

/-- Canonical form, as a statement about all entries. -/
def Sparse.Canon (m : Sparse β) (d : β) : Prop := m.Pairwise (fun a b => a.1 < b.1) ∧ ∀ e ∈ m, e.2 ≠ d

theorem Sparse.wf_iff_canon [DecidableEq β] (m : Sparse β) (d : β) : Sparse.wf m d = true ↔ Sparse.Canon m d := by
  induction m with
  | nil => simp [Sparse.wf, Sparse.Canon]
  | cons e r ih =>
    cases r with
    | nil => simp [Sparse.wf, Sparse.Canon]
    | cons f r =>
      simp only [Sparse.wf, Bool.and_eq_true, bne_iff_ne, decide_eq_true_eq, ih, Sparse.Canon, List.pairwise_cons,
        List.mem_cons, forall_eq_or_imp]
      constructor
      · rintro ⟨⟨he, hlt⟩, ⟨hf, hr⟩, hd⟩
        exact ⟨⟨⟨hlt, fun a ha => Nat.lt_trans hlt (hf a ha)⟩, hf, hr⟩, he, hd⟩
      · rintro ⟨⟨⟨hlt, _⟩, hf, hr⟩, he, hd⟩
        exact ⟨⟨he, hlt⟩, ⟨hf, hr⟩, hd⟩

theorem Sparse.mem_put {m : Sparse β} {k : Nat} {x : β} {a : Nat × β} (h : a ∈ Sparse.put m k x) : a = (k, x) ∨ a ∈ m := by
  induction m with
  | nil => simpa [Sparse.put] using h
  | cons e r ih =>
    unfold Sparse.put at h
    split at h
    · rcases List.mem_cons.1 h with h | h
      · exact .inl h
      · exact .inr (List.mem_cons_of_mem _ h)
    · split at h
      · rcases List.mem_cons.1 h with h | h
        · exact .inl h
        · exact .inr h
      · rcases List.mem_cons.1 h with h | h
        · exact .inr (h ▸ List.mem_cons_self)
        · exact (ih h).imp id (List.mem_cons_of_mem _)

theorem Sparse.canon_put {m : Sparse β} {d : β} (h : Sparse.Canon m d) (k : Nat) {x : β} (hx : x ≠ d) :
    Sparse.Canon (Sparse.put m k x) d := by
  refine ⟨?_, fun e he => ?_⟩
  · have hp := h.1
    clear h
    induction m with
    | nil => simp [Sparse.put]
    | cons e r ih =>
      obtain ⟨hlt, hr⟩ := List.pairwise_cons.1 hp
      unfold Sparse.put
      split
      · rename_i he
        exact List.pairwise_cons.2 ⟨fun a ha => he ▸ hlt a ha, hr⟩
      · split
        · rename_i hk
          refine List.pairwise_cons.2 ⟨fun a ha => ?_, hp⟩
          rcases List.mem_cons.1 ha with rfl | ha
          · exact hk
          · exact Nat.lt_trans hk (hlt a ha)
        · rename_i h1 h2
          refine List.pairwise_cons.2 ⟨fun a ha => ?_, ih hr⟩
          rcases Sparse.mem_put ha with rfl | ha
          · show e.1 < k
            omega
          · exact hlt a ha
  · rcases Sparse.mem_put he with rfl | he
    · exact hx
    · exact h.2 e he

theorem Sparse.canon_filter {m : Sparse β} {d : β} (h : Sparse.Canon m d) (q : Nat × β → Bool) :
    Sparse.Canon (m.filter q) d := ⟨h.1.filter q, fun e he => h.2 e (List.mem_filter.1 he).1⟩

theorem Sparse.canon_set [DecidableEq β] {m : Sparse β} {d : β} (h : Sparse.Canon m d) (k : Nat) (x : β) :
    Sparse.Canon (Sparse.set m k x d) d := by
  unfold Sparse.set
  split
  · exact Sparse.canon_filter h _
  · exact Sparse.canon_put h k ‹_›

/-- Two canonical tables that read alike everywhere are equal. -/
theorem Sparse.canon_ext {m n : Sparse β} {d : β} (hm : Sparse.Canon m d) (hn : Sparse.Canon n d)
    (h : ∀ k, Sparse.get m k d = Sparse.get n k d) : m = n := by
  have low : ∀ (l : Sparse β) (k : Nat), (∀ e ∈ l, k < e.1) → Sparse.get l k d = d := by
    intro l k hl
    induction l with
    | nil => rfl
    | cons e r ih =>
      have : ¬ e.1 = k := fun he => Nat.lt_irrefl _ (he ▸ hl e List.mem_cons_self)
      simp [Sparse.get, this, ih (fun a ha => hl a (List.mem_cons_of_mem _ ha))]
  induction m generalizing n with
  | nil =>
    cases n with
    | nil => rfl
    | cons f s => exact absurd (by simpa [Sparse.get] using (h f.1).symm) (hn.2 f List.mem_cons_self)
  | cons e r ih =>
    cases n with
    | nil => exact absurd (by simpa [Sparse.get] using h e.1) (hm.2 e List.mem_cons_self)
    | cons f s =>
      obtain ⟨hel, her⟩ := List.pairwise_cons.1 hm.1
      obtain ⟨hfl, hfs⟩ := List.pairwise_cons.1 hn.1
      have he := hm.2 e List.mem_cons_self
      have hf := hn.2 f List.mem_cons_self
      have hk : e.1 = f.1 := by
        by_contra hne
        rcases Nat.lt_or_gt_of_ne hne with hlt | hlt
        · have := h e.1
          rw [low (f :: s) e.1 (by
            intro a ha
            rcases List.mem_cons.1 ha with rfl | ha
            · exact hlt
            · exact Nat.lt_trans hlt (hfl a ha))] at this
          exact he (by simpa [Sparse.get] using this)
        · have := h f.1
          rw [low (e :: r) f.1 (by
            intro a ha
            rcases List.mem_cons.1 ha with rfl | ha
            · exact hlt
            · exact Nat.lt_trans hlt (hel a ha))] at this
          exact hf (by simpa [Sparse.get] using this.symm)
      have hv : e.2 = f.2 := by simpa [Sparse.get, hk] using h e.1
      have hef : e = f := Prod.ext hk hv
      have hrs : r = s := by
        refine ih ⟨her, fun a ha => hm.2 a (List.mem_cons_of_mem _ ha)⟩ ⟨hfs, fun a ha => hn.2 a (List.mem_cons_of_mem _ ha)⟩ ?_
        intro k
        by_cases hke : e.1 = k
        · rw [low r k (fun a ha => hke ▸ hel a ha), low s k (fun a ha => (hk.symm.trans hke) ▸ hfl a ha)]
        · have := h k
          simpa [Sparse.get, hke, hk ▸ hke] using this
      rw [hef, hrs]

/-! Memory. -/

theorem Memory.wf_iff_canon (m : List Host.Cell) : Memory.wf m = true ↔ Sparse.Canon m (0 : Byte) := Sparse.wf_iff_canon m 0

/-- Storing keeps memory's canonical form. -/
theorem Memory.wf_store {m : List Host.Cell} (h : Memory.wf m = true) (a : Nat) (bs : List Byte) :
    Memory.wf (Memory.store m a bs) = true := by
  rw [Memory.wf_iff_canon] at *
  induction bs generalizing m a with
  | nil => exact h
  | cons b r ih => exact ih (Sparse.canon_set h a b) (a + 1)

theorem Memory.wf_set {m : List Host.Cell} (h : Memory.wf m = true) (a : Nat) (b : Byte) :
    Memory.wf (Sparse.set m a b 0) = true := by
  rw [Memory.wf_iff_canon] at *
  exact Sparse.canon_set h a b

theorem Memory.wf_filter {m : List Host.Cell} (h : Memory.wf m = true) (q : Host.Cell → Bool) :
    Memory.wf (m.filter q) = true := by
  rw [Memory.wf_iff_canon] at *
  exact Sparse.canon_filter h q

/-- A byte of memory after a store. -/
theorem Memory.get_store (m : List Host.Cell) (a : Nat) (bs : List Byte) (x : Nat) :
    Sparse.get (Memory.store m a bs) x (0 : Byte) =
      if h : a ≤ x ∧ x - a < bs.length then bs[x - a]'h.2 else Sparse.get m x 0 := by
  induction bs generalizing m a with
  | nil => simp [Memory.store]
  | cons b r ih =>
    rw [Memory.store, ih]
    by_cases h1 : a + 1 ≤ x ∧ x - (a + 1) < r.length
    · have h2 : a ≤ x ∧ x - a < (b :: r).length := ⟨by omega, by simp only [List.length_cons]; omega⟩
      rw [dif_pos h1, dif_pos h2]
      have : x - a = (x - (a + 1)) + 1 := by omega
      simp [this]
    · rw [dif_neg h1, Sparse.get_set]
      by_cases hx : x = a
      · subst hx
        simp
      · have h2 : ¬ (a ≤ x ∧ x - a < (b :: r).length) := by
          simp only [List.length_cons]
          omega
        rw [if_neg hx, dif_neg h2]

/-- What one byte reads after `State.store`. -/
theorem State.byte_store (s : State) (a : Nat) (bs : List Byte) (x : Nat) :
    (s.store a bs).byte x = if h : a ≤ x ∧ x - a < bs.length then bs[x - a]'h.2 else s.byte x :=
  Memory.get_store s.mem a bs x

/-- A byte outside a store reads as before. -/
theorem State.byte_store_outside (s : State) (a : Nat) (bs : List Byte) {x : Nat} (h : x < a ∨ a + bs.length ≤ x) :
    (s.store a bs).byte x = s.byte x := by
  rw [State.byte_store, dif_neg (by omega)]

theorem State.wf_store {s : State} (h : Memory.wf s.mem = true) (a : Nat) (bs : List Byte) :
    Memory.wf (s.store a bs).mem = true := Memory.wf_store h a bs

theorem State.wf_storeNat {s : State} (h : Memory.wf s.mem = true) (a n x : Nat) :
    Memory.wf (s.storeNat a n x).mem = true := Memory.wf_store h a _

theorem State.wf_blank {s : State} (h : Memory.wf s.mem = true) (a n : Nat) : Memory.wf (s.blank a n).mem = true :=
  Memory.wf_filter h _

theorem State.wf_foldl {α : Type} (f : State → α → State) (hf : ∀ s x, Memory.wf s.mem = true → Memory.wf (f s x).mem = true)
    (l : List α) {s : State} (h : Memory.wf s.mem = true) : Memory.wf (l.foldl f s).mem = true := by
  induction l generalizing s with
  | nil => exact h
  | cons x r ih => exact ih (hf s x h)

theorem State.wf_putFields {s : State} (h : Memory.wf s.mem = true) (a : Nat) (fs : List (Nat × Nat × Nat)) :
    Memory.wf (s.putFields a fs).mem = true :=
  State.wf_foldl _ (fun _ _ hs => State.wf_storeNat hs _ _ _) fs h

theorem State.wf_writeArea {s : State} (h : Memory.wf s.mem = true) (a n : Nat) (fs : List (Nat × Nat × Nat)) :
    Memory.wf (s.writeArea a n fs).mem = true := State.wf_putFields (State.wf_blank h a n) a fs

theorem State.wf_moveBytes {s : State} (h : Memory.wf s.mem = true) (src n dst : Nat) :
    Memory.wf (s.moveBytes src n dst).mem = true := by
  have key : ∀ (cs : List Host.Cell) (m : List Host.Cell), Memory.wf m = true →
      Memory.wf (cs.foldl (fun m c => Sparse.set m c.1 c.2 0) m) = true := by
    intro cs
    induction cs with
    | nil => exact fun _ hm => hm
    | cons c r ih => exact fun m hm => ih _ (Memory.wf_set hm c.1 c.2)
  exact key _ _ (State.wf_blank h dst n)

theorem bytesLE_length (n w : Nat) : (bytesLE n w).length = n := by simp [bytesLE]

theorem ofBytesLE_bytesLE (n w : Nat) : ofBytesLE (bytesLE n w) = w % 256 ^ n := by
  induction n generalizing w with
  | zero => simp [bytesLE, ofBytesLE, Nat.mod_one]
  | succ n ih =>
    have hsplit : bytesLE (n + 1) w = BitVec.ofNat 8 w :: bytesLE n (w / 256) := by
      simp only [bytesLE, List.range_succ_eq_map, List.map_cons, List.map_map, Nat.mul_zero, Nat.pow_zero, Nat.div_one]
      congr 1
      refine List.map_congr_left fun i _ => ?_
      simp only [Function.comp, Nat.div_div_eq_div_mul]
      congr 2
      rw [Nat.mul_succ, Nat.pow_add, Nat.mul_comm]
    rw [hsplit, ofBytesLE, ih, BitVec.toNat_ofNat]
    have := (Nat.mod_mul (x := w) (a := 256) (b := 256 ^ n)).symm
    rwa [← Nat.pow_succ'] at this

/-- A number read where it has just been stored. -/
theorem State.loadNat_storeNat (s : State) (a n x : Nat) : (s.storeNat a n x).loadNat a n = x % 256 ^ n := by
  have hb : (s.storeNat a n x).load a n = bytesLE n x := by
    refine List.ext_getElem (by simp [State.load, bytesLE_length]) fun i h1 h2 => ?_
    have hi : i < n := by simpa [State.load] using h1
    simp only [State.load, List.getElem_map, List.getElem_range, State.storeNat, State.byte_store, bytesLE_length]
    rw [dif_pos ⟨by omega, by omega⟩]
    congr 1
    omega
  rw [State.loadNat, hb, ofBytesLE_bytesLE]

end Sys2Proof.Machine
end

