-- ==== Sys2Proof/Laws/Issue.lean ====
section
/-! SUPPORT. The laws of issue: what `State.issue` answers in each case, and what an issue leaves unchanged. -/

namespace Sys2Proof.Machine

/-! Counters and accounts leave everything but walls and launches. -/

@[simp] theorem State.countEvent_powered (s : State) (w code n : Nat) : (s.countEvent w code n).powered = s.powered := by
  unfold State.countEvent; dsimp only; split <;> rfl
@[simp] theorem State.countEvent_cycle (s : State) (w code n : Nat) : (s.countEvent w code n).cycle = s.cycle := by
  unfold State.countEvent; dsimp only; split <;> rfl
@[simp] theorem State.countEvent_agenda (s : State) (w code n : Nat) : (s.countEvent w code n).agenda = s.agenda := by
  unfold State.countEvent; dsimp only; split <;> rfl
@[simp] theorem State.countEvent_cur (s : State) (w code n : Nat) : (s.countEvent w code n).cur = s.cur := by
  unfold State.countEvent; dsimp only; split <;> rfl
@[simp] theorem State.countEvent_parked (s : State) (w code n : Nat) : (s.countEvent w code n).parked = s.parked := by
  unfold State.countEvent; dsimp only; split <;> rfl
@[simp] theorem State.countEvent_word (s : State) (w code n : Nat) : (s.countEvent w code n).word = s.word := by
  unfold State.countEvent; dsimp only; split <;> rfl
@[simp] theorem State.countEvent_free (s : State) (w code n : Nat) : (s.countEvent w code n).free = s.free := by
  unfold State.countEvent; dsimp only; split <;> rfl
@[simp] theorem State.countEvent_nextId (s : State) (w code n : Nat) : (s.countEvent w code n).nextId = s.nextId := by
  unfold State.countEvent; dsimp only; split <;> rfl
@[simp] theorem State.countEvent_nextStart (s : State) (w code n : Nat) : (s.countEvent w code n).nextStart = s.nextStart := by
  unfold State.countEvent; dsimp only; split <;> rfl
@[simp] theorem State.countEvent_mem (s : State) (w code n : Nat) : (s.countEvent w code n).mem = s.mem := by
  unfold State.countEvent; dsimp only; split <;> rfl
@[simp] theorem State.countEvent_poison (s : State) (w code n : Nat) : (s.countEvent w code n).poison = s.poison := by
  unfold State.countEvent; dsimp only; split <;> rfl
@[simp] theorem State.countEvent_tags (s : State) (w code n : Nat) : (s.countEvent w code n).tags = s.tags := by
  unfold State.countEvent; dsimp only; split <;> rfl
@[simp] theorem State.countEvent_rels (s : State) (w code n : Nat) : (s.countEvent w code n).rels = s.rels := by
  unfold State.countEvent; dsimp only; split <;> rfl
@[simp] theorem State.countEvent_lines (s : State) (w code n : Nat) : (s.countEvent w code n).lines = s.lines := by
  unfold State.countEvent; dsimp only; split <;> rfl
@[simp] theorem State.countEvent_hostMem (s : State) (w code n : Nat) : (s.countEvent w code n).hostMem = s.hostMem := by
  unfold State.countEvent; dsimp only; split <;> rfl
@[simp] theorem State.countEvent_waysOff (s : State) (w code n : Nat) : (s.countEvent w code n).waysOff = s.waysOff := by
  unfold State.countEvent; dsimp only; split <;> rfl
@[simp] theorem State.countEvent_waysWake (s : State) (w code n : Nat) : (s.countEvent w code n).waysWake = s.waysWake := by
  unfold State.countEvent; dsimp only; split <;> rfl
@[simp] theorem State.countEvent_granule (s : State) (w code n : Nat) : (s.countEvent w code n).granule = s.granule := by
  unfold State.countEvent; dsimp only; split <;> rfl
@[simp] theorem State.countEvent_tlb (s : State) (w code n : Nat) : (s.countEvent w code n).tlb = s.tlb := by
  unfold State.countEvent; dsimp only; split <;> rfl
@[simp] theorem State.countEvent_planes (s : State) (w code n : Nat) : (s.countEvent w code n).planes = s.planes := by
  unfold State.countEvent; dsimp only; split <;> rfl
@[simp] theorem State.countEvent_shelf (s : State) (w code n : Nat) : (s.countEvent w code n).shelf = s.shelf := by
  unfold State.countEvent; dsimp only; split <;> rfl
@[simp] theorem State.countEvent_dies (s : State) (w code n : Nat) : (s.countEvent w code n).dies = s.dies := by
  unfold State.countEvent; dsimp only; split <;> rfl
@[simp] theorem State.countEvent_shadows (s : State) (w code n : Nat) : (s.countEvent w code n).shadows = s.shadows := by
  unfold State.countEvent; dsimp only; split <;> rfl
@[simp] theorem State.countEvent_past (s : State) (w code n : Nat) : (s.countEvent w code n).past = s.past := by
  unfold State.countEvent; dsimp only; split <;> rfl
@[simp] theorem State.countEvent_gbars (s : State) (w code n : Nat) : (s.countEvent w code n).gbars = s.gbars := by
  unfold State.countEvent; dsimp only; split <;> rfl
@[simp] theorem State.countEvent_launches (s : State) (w code n : Nat) : (s.countEvent w code n).launches = s.launches := by
  unfold State.countEvent; dsimp only; split <;> rfl
@[simp] theorem State.countEvent_rota (s : State) (w code n : Nat) : (s.countEvent w code n).rota = s.rota := by
  unfold State.countEvent; dsimp only; split <;> rfl
@[simp] theorem State.countEvent_accepted (s : State) (w code n : Nat) : (s.countEvent w code n).accepted = s.accepted := by
  unfold State.countEvent; dsimp only; split <;> rfl
@[simp] theorem State.countEvent_featBytes (s : State) (w code n : Nat) : (s.countEvent w code n).featBytes = s.featBytes := by
  unfold State.countEvent; dsimp only; split <;> rfl
@[simp] theorem State.countEvent_queues (s : State) (w code n : Nat) : (s.countEvent w code n).queues = s.queues := by
  unfold State.countEvent; dsimp only; split <;> rfl
@[simp] theorem State.countEvent_ctrCodes (s : State) (w code n : Nat) : (s.countEvent w code n).ctrCodes = s.ctrCodes := by
  unfold State.countEvent; dsimp only; split <;> rfl
@[simp] theorem State.countEvent_dregs (s : State) (w code n : Nat) : (s.countEvent w code n).dregs = s.dregs := by
  unfold State.countEvent; dsimp only; split <;> rfl
@[simp] theorem State.countEvent_keys (s : State) (w code n : Nat) : (s.countEvent w code n).keys = s.keys := by
  unfold State.countEvent; dsimp only; split <;> rfl
@[simp] theorem State.countEvent_did (s : State) (w code n : Nat) : (s.countEvent w code n).did = s.did := by
  unfold State.countEvent; dsimp only; split <;> rfl
@[simp] theorem State.countEvent_fabric (s : State) (w code n : Nat) : (s.countEvent w code n).fabric = s.fabric := by
  unfold State.countEvent; dsimp only; split <;> rfl
@[simp] theorem State.countEvent_monitor (s : State) (w code n : Nat) : (s.countEvent w code n).monitor = s.monitor := by
  unfold State.countEvent; dsimp only; split <;> rfl
@[simp] theorem State.countEvent_sessions (s : State) (w code n : Nat) : (s.countEvent w code n).sessions = s.sessions := by
  unfold State.countEvent; dsimp only; split <;> rfl
@[simp] theorem State.countEvent_outbox (s : State) (w code n : Nat) : (s.countEvent w code n).outbox = s.outbox := by
  unfold State.countEvent; dsimp only; split <;> rfl
@[simp] theorem State.countEvent_vfs (s : State) (w code n : Nat) : (s.countEvent w code n).vfs = s.vfs := by
  unfold State.countEvent; dsimp only; split <;> rfl
@[simp] theorem State.countEvent_windows (s : State) (w code n : Nat) : (s.countEvent w code n).windows = s.windows := by
  unfold State.countEvent; dsimp only; split <;> rfl
@[simp] theorem State.countEvent_attrs (s : State) (w code n : Nat) : (s.countEvent w code n).attrs = s.attrs := by
  unfold State.countEvent; dsimp only; split <;> rfl
@[simp] theorem State.countEvent_stalled (s : State) (w code n : Nat) : (s.countEvent w code n).stalled = s.stalled := by
  unfold State.countEvent; dsimp only; split <;> rfl
@[simp] theorem State.countEvent_busOut (s : State) (w code n : Nat) : (s.countEvent w code n).busOut = s.busOut := by
  unfold State.countEvent; dsimp only; split <;> rfl

@[simp] theorem State.account_powered (s : State) (st : Stream) (p : Plan) : (s.account st p).powered = s.powered := by
  cases st <;> simp [State.account]
@[simp] theorem State.account_agenda (s : State) (st : Stream) (p : Plan) : (s.account st p).agenda = s.agenda := by
  cases st <;> simp [State.account]
@[simp] theorem State.account_cur (s : State) (st : Stream) (p : Plan) : (s.account st p).cur = s.cur := by
  cases st <;> simp [State.account]
@[simp] theorem State.account_parked (s : State) (st : Stream) (p : Plan) : (s.account st p).parked = s.parked := by
  cases st <;> simp [State.account]
@[simp] theorem State.account_word (s : State) (st : Stream) (p : Plan) : (s.account st p).word = s.word := by
  cases st <;> simp [State.account]
@[simp] theorem State.account_free (s : State) (st : Stream) (p : Plan) : (s.account st p).free = s.free := by
  cases st <;> simp [State.account]
@[simp] theorem State.account_nextId (s : State) (st : Stream) (p : Plan) : (s.account st p).nextId = s.nextId := by
  cases st <;> simp [State.account]
@[simp] theorem State.account_nextStart (s : State) (st : Stream) (p : Plan) : (s.account st p).nextStart = s.nextStart := by
  cases st <;> simp [State.account]
@[simp] theorem State.account_mem (s : State) (st : Stream) (p : Plan) : (s.account st p).mem = s.mem := by
  cases st <;> simp [State.account]
@[simp] theorem State.account_poison (s : State) (st : Stream) (p : Plan) : (s.account st p).poison = s.poison := by
  cases st <;> simp [State.account]
@[simp] theorem State.account_tags (s : State) (st : Stream) (p : Plan) : (s.account st p).tags = s.tags := by
  cases st <;> simp [State.account]
@[simp] theorem State.account_rels (s : State) (st : Stream) (p : Plan) : (s.account st p).rels = s.rels := by
  cases st <;> simp [State.account]
@[simp] theorem State.account_lines (s : State) (st : Stream) (p : Plan) : (s.account st p).lines = s.lines := by
  cases st <;> simp [State.account]
@[simp] theorem State.account_hostMem (s : State) (st : Stream) (p : Plan) : (s.account st p).hostMem = s.hostMem := by
  cases st <;> simp [State.account]
@[simp] theorem State.account_waysOff (s : State) (st : Stream) (p : Plan) : (s.account st p).waysOff = s.waysOff := by
  cases st <;> simp [State.account]
@[simp] theorem State.account_waysWake (s : State) (st : Stream) (p : Plan) : (s.account st p).waysWake = s.waysWake := by
  cases st <;> simp [State.account]
@[simp] theorem State.account_granule (s : State) (st : Stream) (p : Plan) : (s.account st p).granule = s.granule := by
  cases st <;> simp [State.account]
@[simp] theorem State.account_tlb (s : State) (st : Stream) (p : Plan) : (s.account st p).tlb = s.tlb := by
  cases st <;> simp [State.account]
@[simp] theorem State.account_planes (s : State) (st : Stream) (p : Plan) : (s.account st p).planes = s.planes := by
  cases st <;> simp [State.account]
@[simp] theorem State.account_shelf (s : State) (st : Stream) (p : Plan) : (s.account st p).shelf = s.shelf := by
  cases st <;> simp [State.account]
@[simp] theorem State.account_dies (s : State) (st : Stream) (p : Plan) : (s.account st p).dies = s.dies := by
  cases st <;> simp [State.account]
@[simp] theorem State.account_shadows (s : State) (st : Stream) (p : Plan) : (s.account st p).shadows = s.shadows := by
  cases st <;> simp [State.account]
@[simp] theorem State.account_past (s : State) (st : Stream) (p : Plan) : (s.account st p).past = s.past := by
  cases st <;> simp [State.account]
@[simp] theorem State.account_gbars (s : State) (st : Stream) (p : Plan) : (s.account st p).gbars = s.gbars := by
  cases st <;> simp [State.account]
@[simp] theorem State.account_rota (s : State) (st : Stream) (p : Plan) : (s.account st p).rota = s.rota := by
  cases st <;> simp [State.account]
@[simp] theorem State.account_accepted (s : State) (st : Stream) (p : Plan) : (s.account st p).accepted = s.accepted := by
  cases st <;> simp [State.account]
@[simp] theorem State.account_featBytes (s : State) (st : Stream) (p : Plan) : (s.account st p).featBytes = s.featBytes := by
  cases st <;> simp [State.account]
@[simp] theorem State.account_queues (s : State) (st : Stream) (p : Plan) : (s.account st p).queues = s.queues := by
  cases st <;> simp [State.account]
@[simp] theorem State.account_ctrCodes (s : State) (st : Stream) (p : Plan) : (s.account st p).ctrCodes = s.ctrCodes := by
  cases st <;> simp [State.account]
@[simp] theorem State.account_dregs (s : State) (st : Stream) (p : Plan) : (s.account st p).dregs = s.dregs := by
  cases st <;> simp [State.account]
@[simp] theorem State.account_keys (s : State) (st : Stream) (p : Plan) : (s.account st p).keys = s.keys := by
  cases st <;> simp [State.account]
@[simp] theorem State.account_did (s : State) (st : Stream) (p : Plan) : (s.account st p).did = s.did := by
  cases st <;> simp [State.account]
@[simp] theorem State.account_fabric (s : State) (st : Stream) (p : Plan) : (s.account st p).fabric = s.fabric := by
  cases st <;> simp [State.account]
@[simp] theorem State.account_monitor (s : State) (st : Stream) (p : Plan) : (s.account st p).monitor = s.monitor := by
  cases st <;> simp [State.account]
@[simp] theorem State.account_sessions (s : State) (st : Stream) (p : Plan) : (s.account st p).sessions = s.sessions := by
  cases st <;> simp [State.account]
@[simp] theorem State.account_outbox (s : State) (st : Stream) (p : Plan) : (s.account st p).outbox = s.outbox := by
  cases st <;> simp [State.account]
@[simp] theorem State.account_vfs (s : State) (st : Stream) (p : Plan) : (s.account st p).vfs = s.vfs := by
  cases st <;> simp [State.account]
@[simp] theorem State.account_windows (s : State) (st : Stream) (p : Plan) : (s.account st p).windows = s.windows := by
  cases st <;> simp [State.account]
@[simp] theorem State.account_attrs (s : State) (st : Stream) (p : Plan) : (s.account st p).attrs = s.attrs := by
  cases st <;> simp [State.account]
@[simp] theorem State.account_stalled (s : State) (st : Stream) (p : Plan) : (s.account st p).stalled = s.stalled := by
  cases st <;> simp [State.account]
@[simp] theorem State.account_busOut (s : State) (st : Stream) (p : Plan) : (s.account st p).busOut = s.busOut := by
  cases st <;> simp [State.account]
@[simp] theorem State.account_cycle (s : State) (st : Stream) (p : Plan) : (s.account st p).cycle = s.cycle := by
  simp [State.cycle, State.cycleOf, State.die]

/-! What an issue leaves. -/

theorem State.issued_cur (s : State) (st : Stream) (sig : Option Nat) (io : QueueUse) (p : Plan) :
    (s.issued st sig io p).cur = s.cur.issued st sig io p s.nextId s.cycle := by
  unfold State.issued; dsimp only; split <;> simp

theorem State.issued_nextId (s : State) (st : Stream) (sig : Option Nat) (io : QueueUse) (p : Plan) :
    (s.issued st sig io p).nextId = s.nextId + 2 := by
  unfold State.issued; dsimp only; split <;> simp

@[simp] theorem State.issued_powered (s : State) (st : Stream) (sig : Option Nat) (io : QueueUse) (p : Plan) :
    (s.issued st sig io p).powered = s.powered := by
  unfold State.issued; dsimp only; split <;> simp
@[simp] theorem State.issued_agenda (s : State) (st : Stream) (sig : Option Nat) (io : QueueUse) (p : Plan) :
    (s.issued st sig io p).agenda = s.agenda := by
  unfold State.issued; dsimp only; split <;> simp
@[simp] theorem State.issued_parked (s : State) (st : Stream) (sig : Option Nat) (io : QueueUse) (p : Plan) :
    (s.issued st sig io p).parked = s.parked := by
  unfold State.issued; dsimp only; split <;> simp
@[simp] theorem State.issued_word (s : State) (st : Stream) (sig : Option Nat) (io : QueueUse) (p : Plan) :
    (s.issued st sig io p).word = s.word := by
  unfold State.issued; dsimp only; split <;> simp
@[simp] theorem State.issued_free (s : State) (st : Stream) (sig : Option Nat) (io : QueueUse) (p : Plan) :
    (s.issued st sig io p).free = s.free := by
  unfold State.issued; dsimp only; split <;> simp
@[simp] theorem State.issued_nextStart (s : State) (st : Stream) (sig : Option Nat) (io : QueueUse) (p : Plan) :
    (s.issued st sig io p).nextStart = s.nextStart := by
  unfold State.issued; dsimp only; split <;> simp
@[simp] theorem State.issued_mem (s : State) (st : Stream) (sig : Option Nat) (io : QueueUse) (p : Plan) :
    (s.issued st sig io p).mem = s.mem := by
  unfold State.issued; dsimp only; split <;> simp
@[simp] theorem State.issued_poison (s : State) (st : Stream) (sig : Option Nat) (io : QueueUse) (p : Plan) :
    (s.issued st sig io p).poison = s.poison := by
  unfold State.issued; dsimp only; split <;> simp
@[simp] theorem State.issued_tags (s : State) (st : Stream) (sig : Option Nat) (io : QueueUse) (p : Plan) :
    (s.issued st sig io p).tags = s.tags := by
  unfold State.issued; dsimp only; split <;> simp
@[simp] theorem State.issued_rels (s : State) (st : Stream) (sig : Option Nat) (io : QueueUse) (p : Plan) :
    (s.issued st sig io p).rels = s.rels := by
  unfold State.issued; dsimp only; split <;> simp
@[simp] theorem State.issued_lines (s : State) (st : Stream) (sig : Option Nat) (io : QueueUse) (p : Plan) :
    (s.issued st sig io p).lines = s.lines := by
  unfold State.issued; dsimp only; split <;> simp
@[simp] theorem State.issued_hostMem (s : State) (st : Stream) (sig : Option Nat) (io : QueueUse) (p : Plan) :
    (s.issued st sig io p).hostMem = s.hostMem := by
  unfold State.issued; dsimp only; split <;> simp
@[simp] theorem State.issued_waysOff (s : State) (st : Stream) (sig : Option Nat) (io : QueueUse) (p : Plan) :
    (s.issued st sig io p).waysOff = s.waysOff := by
  unfold State.issued; dsimp only; split <;> simp
@[simp] theorem State.issued_waysWake (s : State) (st : Stream) (sig : Option Nat) (io : QueueUse) (p : Plan) :
    (s.issued st sig io p).waysWake = s.waysWake := by
  unfold State.issued; dsimp only; split <;> simp
@[simp] theorem State.issued_granule (s : State) (st : Stream) (sig : Option Nat) (io : QueueUse) (p : Plan) :
    (s.issued st sig io p).granule = s.granule := by
  unfold State.issued; dsimp only; split <;> simp
@[simp] theorem State.issued_tlb (s : State) (st : Stream) (sig : Option Nat) (io : QueueUse) (p : Plan) :
    (s.issued st sig io p).tlb = s.tlb := by
  unfold State.issued; dsimp only; split <;> simp
@[simp] theorem State.issued_planes (s : State) (st : Stream) (sig : Option Nat) (io : QueueUse) (p : Plan) :
    (s.issued st sig io p).planes = s.planes := by
  unfold State.issued; dsimp only; split <;> simp
@[simp] theorem State.issued_shelf (s : State) (st : Stream) (sig : Option Nat) (io : QueueUse) (p : Plan) :
    (s.issued st sig io p).shelf = s.shelf := by
  unfold State.issued; dsimp only; split <;> simp
@[simp] theorem State.issued_dies (s : State) (st : Stream) (sig : Option Nat) (io : QueueUse) (p : Plan) :
    (s.issued st sig io p).dies = s.dies := by
  unfold State.issued; dsimp only; split <;> simp
@[simp] theorem State.issued_shadows (s : State) (st : Stream) (sig : Option Nat) (io : QueueUse) (p : Plan) :
    (s.issued st sig io p).shadows = s.shadows := by
  unfold State.issued; dsimp only; split <;> simp
@[simp] theorem State.issued_past (s : State) (st : Stream) (sig : Option Nat) (io : QueueUse) (p : Plan) :
    (s.issued st sig io p).past = s.past := by
  unfold State.issued; dsimp only; split <;> simp
@[simp] theorem State.issued_gbars (s : State) (st : Stream) (sig : Option Nat) (io : QueueUse) (p : Plan) :
    (s.issued st sig io p).gbars = s.gbars := by
  unfold State.issued; dsimp only; split <;> simp
@[simp] theorem State.issued_rota (s : State) (st : Stream) (sig : Option Nat) (io : QueueUse) (p : Plan) :
    (s.issued st sig io p).rota = s.rota := by
  unfold State.issued; dsimp only; split <;> simp
@[simp] theorem State.issued_accepted (s : State) (st : Stream) (sig : Option Nat) (io : QueueUse) (p : Plan) :
    (s.issued st sig io p).accepted = s.accepted := by
  unfold State.issued; dsimp only; split <;> simp
@[simp] theorem State.issued_featBytes (s : State) (st : Stream) (sig : Option Nat) (io : QueueUse) (p : Plan) :
    (s.issued st sig io p).featBytes = s.featBytes := by
  unfold State.issued; dsimp only; split <;> simp
@[simp] theorem State.issued_queues (s : State) (st : Stream) (sig : Option Nat) (io : QueueUse) (p : Plan) :
    (s.issued st sig io p).queues = s.queues := by
  unfold State.issued; dsimp only; split <;> simp
@[simp] theorem State.issued_ctrCodes (s : State) (st : Stream) (sig : Option Nat) (io : QueueUse) (p : Plan) :
    (s.issued st sig io p).ctrCodes = s.ctrCodes := by
  unfold State.issued; dsimp only; split <;> simp
@[simp] theorem State.issued_dregs (s : State) (st : Stream) (sig : Option Nat) (io : QueueUse) (p : Plan) :
    (s.issued st sig io p).dregs = s.dregs := by
  unfold State.issued; dsimp only; split <;> simp
@[simp] theorem State.issued_keys (s : State) (st : Stream) (sig : Option Nat) (io : QueueUse) (p : Plan) :
    (s.issued st sig io p).keys = s.keys := by
  unfold State.issued; dsimp only; split <;> simp
@[simp] theorem State.issued_did (s : State) (st : Stream) (sig : Option Nat) (io : QueueUse) (p : Plan) :
    (s.issued st sig io p).did = s.did := by
  unfold State.issued; dsimp only; split <;> simp
@[simp] theorem State.issued_fabric (s : State) (st : Stream) (sig : Option Nat) (io : QueueUse) (p : Plan) :
    (s.issued st sig io p).fabric = s.fabric := by
  unfold State.issued; dsimp only; split <;> simp
@[simp] theorem State.issued_monitor (s : State) (st : Stream) (sig : Option Nat) (io : QueueUse) (p : Plan) :
    (s.issued st sig io p).monitor = s.monitor := by
  unfold State.issued; dsimp only; split <;> simp
@[simp] theorem State.issued_sessions (s : State) (st : Stream) (sig : Option Nat) (io : QueueUse) (p : Plan) :
    (s.issued st sig io p).sessions = s.sessions := by
  unfold State.issued; dsimp only; split <;> simp
@[simp] theorem State.issued_outbox (s : State) (st : Stream) (sig : Option Nat) (io : QueueUse) (p : Plan) :
    (s.issued st sig io p).outbox = s.outbox := by
  unfold State.issued; dsimp only; split <;> simp
@[simp] theorem State.issued_vfs (s : State) (st : Stream) (sig : Option Nat) (io : QueueUse) (p : Plan) :
    (s.issued st sig io p).vfs = s.vfs := by
  unfold State.issued; dsimp only; split <;> simp
@[simp] theorem State.issued_windows (s : State) (st : Stream) (sig : Option Nat) (io : QueueUse) (p : Plan) :
    (s.issued st sig io p).windows = s.windows := by
  unfold State.issued; dsimp only; split <;> simp
@[simp] theorem State.issued_attrs (s : State) (st : Stream) (sig : Option Nat) (io : QueueUse) (p : Plan) :
    (s.issued st sig io p).attrs = s.attrs := by
  unfold State.issued; dsimp only; split <;> simp
@[simp] theorem State.issued_stalled (s : State) (st : Stream) (sig : Option Nat) (io : QueueUse) (p : Plan) :
    (s.issued st sig io p).stalled = s.stalled := by
  unfold State.issued; dsimp only; split <;> simp
@[simp] theorem State.issued_busOut (s : State) (st : Stream) (sig : Option Nat) (io : QueueUse) (p : Plan) :
    (s.issued st sig io p).busOut = s.busOut := by
  unfold State.issued; dsimp only; split <;> simp

/-! The queues that an issue moves touch nothing but queues. -/

@[simp] theorem Course.moveQueues_ident (c : Course) (io : QueueUse) (id : Nat) : (c.moveQueues io id).ident = c.ident := by
  have pops : ∀ (l : List (Nat × Nat)) (c : Course),
      (l.foldl (fun c e => c.setQueue e.1 ((c.queue e.1).drop e.2)) c).ident = c.ident := by
    intro l; induction l with
    | nil => exact fun _ => rfl
    | cons e r ih => exact fun c => (ih _).trans (by simp)
  have pushes : ∀ (l : List (Nat × Nat)) (c : Course), (l.foldl (fun c e =>
      c.setQueue e.1 (c.queue e.1 ++ (List.range e.2).map (fun j => QSlot.mk (pushTag id j) none))) c).ident = c.ident := by
    intro l; induction l with
    | nil => exact fun _ => rfl
    | cons e r ih => exact fun c => (ih _).trans (by simp)
  exact (pushes _ _).trans (pops _ _)
@[simp] theorem Course.moveQueues_lid (c : Course) (io : QueueUse) (id : Nat) : (c.moveQueues io id).lid = c.lid := by
  have pops : ∀ (l : List (Nat × Nat)) (c : Course),
      (l.foldl (fun c e => c.setQueue e.1 ((c.queue e.1).drop e.2)) c).lid = c.lid := by
    intro l; induction l with
    | nil => exact fun _ => rfl
    | cons e r ih => exact fun c => (ih _).trans (by simp)
  have pushes : ∀ (l : List (Nat × Nat)) (c : Course), (l.foldl (fun c e =>
      c.setQueue e.1 (c.queue e.1 ++ (List.range e.2).map (fun j => QSlot.mk (pushTag id j) none))) c).lid = c.lid := by
    intro l; induction l with
    | nil => exact fun _ => rfl
    | cons e r ih => exact fun c => (ih _).trans (by simp)
  exact (pushes _ _).trans (pops _ _)
@[simp] theorem Course.moveQueues_cid (c : Course) (io : QueueUse) (id : Nat) : (c.moveQueues io id).cid = c.cid := by
  have pops : ∀ (l : List (Nat × Nat)) (c : Course),
      (l.foldl (fun c e => c.setQueue e.1 ((c.queue e.1).drop e.2)) c).cid = c.cid := by
    intro l; induction l with
    | nil => exact fun _ => rfl
    | cons e r ih => exact fun c => (ih _).trans (by simp)
  have pushes : ∀ (l : List (Nat × Nat)) (c : Course), (l.foldl (fun c e =>
      c.setQueue e.1 (c.queue e.1 ++ (List.range e.2).map (fun j => QSlot.mk (pushTag id j) none))) c).cid = c.cid := by
    intro l; induction l with
    | nil => exact fun _ => rfl
    | cons e r ih => exact fun c => (ih _).trans (by simp)
  exact (pushes _ _).trans (pops _ _)
@[simp] theorem Course.moveQueues_nid (c : Course) (io : QueueUse) (id : Nat) : (c.moveQueues io id).nid = c.nid := by
  have pops : ∀ (l : List (Nat × Nat)) (c : Course),
      (l.foldl (fun c e => c.setQueue e.1 ((c.queue e.1).drop e.2)) c).nid = c.nid := by
    intro l; induction l with
    | nil => exact fun _ => rfl
    | cons e r ih => exact fun c => (ih _).trans (by simp)
  have pushes : ∀ (l : List (Nat × Nat)) (c : Course), (l.foldl (fun c e =>
      c.setQueue e.1 (c.queue e.1 ++ (List.range e.2).map (fun j => QSlot.mk (pushTag id j) none))) c).nid = c.nid := by
    intro l; induction l with
    | nil => exact fun _ => rfl
    | cons e r ih => exact fun c => (ih _).trans (by simp)
  exact (pushes _ _).trans (pops _ _)
@[simp] theorem Course.moveQueues_gcnt (c : Course) (io : QueueUse) (id : Nat) : (c.moveQueues io id).gcnt = c.gcnt := by
  have pops : ∀ (l : List (Nat × Nat)) (c : Course),
      (l.foldl (fun c e => c.setQueue e.1 ((c.queue e.1).drop e.2)) c).gcnt = c.gcnt := by
    intro l; induction l with
    | nil => exact fun _ => rfl
    | cons e r ih => exact fun c => (ih _).trans (by simp)
  have pushes : ∀ (l : List (Nat × Nat)) (c : Course), (l.foldl (fun c e =>
      c.setQueue e.1 (c.queue e.1 ++ (List.range e.2).map (fun j => QSlot.mk (pushTag id j) none))) c).gcnt = c.gcnt := by
    intro l; induction l with
    | nil => exact fun _ => rfl
    | cons e r ih => exact fun c => (ih _).trans (by simp)
  exact (pushes _ _).trans (pops _ _)
@[simp] theorem Course.moveQueues_nthr (c : Course) (io : QueueUse) (id : Nat) : (c.moveQueues io id).nthr = c.nthr := by
  have pops : ∀ (l : List (Nat × Nat)) (c : Course),
      (l.foldl (fun c e => c.setQueue e.1 ((c.queue e.1).drop e.2)) c).nthr = c.nthr := by
    intro l; induction l with
    | nil => exact fun _ => rfl
    | cons e r ih => exact fun c => (ih _).trans (by simp)
  have pushes : ∀ (l : List (Nat × Nat)) (c : Course), (l.foldl (fun c e =>
      c.setQueue e.1 (c.queue e.1 ++ (List.range e.2).map (fun j => QSlot.mk (pushTag id j) none))) c).nthr = c.nthr := by
    intro l; induction l with
    | nil => exact fun _ => rfl
    | cons e r ih => exact fun c => (ih _).trans (by simp)
  exact (pushes _ _).trans (pops _ _)
@[simp] theorem Course.moveQueues_vcnt (c : Course) (io : QueueUse) (id : Nat) : (c.moveQueues io id).vcnt = c.vcnt := by
  have pops : ∀ (l : List (Nat × Nat)) (c : Course),
      (l.foldl (fun c e => c.setQueue e.1 ((c.queue e.1).drop e.2)) c).vcnt = c.vcnt := by
    intro l; induction l with
    | nil => exact fun _ => rfl
    | cons e r ih => exact fun c => (ih _).trans (by simp)
  have pushes : ∀ (l : List (Nat × Nat)) (c : Course), (l.foldl (fun c e =>
      c.setQueue e.1 (c.queue e.1 ++ (List.range e.2).map (fun j => QSlot.mk (pushTag id j) none))) c).vcnt = c.vcnt := by
    intro l; induction l with
    | nil => exact fun _ => rfl
    | cons e r ih => exact fun c => (ih _).trans (by simp)
  exact (pushes _ _).trans (pops _ _)
@[simp] theorem Course.moveQueues_qcnt (c : Course) (io : QueueUse) (id : Nat) : (c.moveQueues io id).qcnt = c.qcnt := by
  have pops : ∀ (l : List (Nat × Nat)) (c : Course),
      (l.foldl (fun c e => c.setQueue e.1 ((c.queue e.1).drop e.2)) c).qcnt = c.qcnt := by
    intro l; induction l with
    | nil => exact fun _ => rfl
    | cons e r ih => exact fun c => (ih _).trans (by simp)
  have pushes : ∀ (l : List (Nat × Nat)) (c : Course), (l.foldl (fun c e =>
      c.setQueue e.1 (c.queue e.1 ++ (List.range e.2).map (fun j => QSlot.mk (pushTag id j) none))) c).qcnt = c.qcnt := by
    intro l; induction l with
    | nil => exact fun _ => rfl
    | cons e r ih => exact fun c => (ih _).trans (by simp)
  exact (pushes _ _).trans (pops _ _)
@[simp] theorem Course.moveQueues_asid (c : Course) (io : QueueUse) (id : Nat) : (c.moveQueues io id).asid = c.asid := by
  have pops : ∀ (l : List (Nat × Nat)) (c : Course),
      (l.foldl (fun c e => c.setQueue e.1 ((c.queue e.1).drop e.2)) c).asid = c.asid := by
    intro l; induction l with
    | nil => exact fun _ => rfl
    | cons e r ih => exact fun c => (ih _).trans (by simp)
  have pushes : ∀ (l : List (Nat × Nat)) (c : Course), (l.foldl (fun c e =>
      c.setQueue e.1 (c.queue e.1 ++ (List.range e.2).map (fun j => QSlot.mk (pushTag id j) none))) c).asid = c.asid := by
    intro l; induction l with
    | nil => exact fun _ => rfl
    | cons e r ih => exact fun c => (ih _).trans (by simp)
  exact (pushes _ _).trans (pops _ _)
@[simp] theorem Course.moveQueues_launch (c : Course) (io : QueueUse) (id : Nat) : (c.moveQueues io id).launch = c.launch := by
  have pops : ∀ (l : List (Nat × Nat)) (c : Course),
      (l.foldl (fun c e => c.setQueue e.1 ((c.queue e.1).drop e.2)) c).launch = c.launch := by
    intro l; induction l with
    | nil => exact fun _ => rfl
    | cons e r ih => exact fun c => (ih _).trans (by simp)
  have pushes : ∀ (l : List (Nat × Nat)) (c : Course), (l.foldl (fun c e =>
      c.setQueue e.1 (c.queue e.1 ++ (List.range e.2).map (fun j => QSlot.mk (pushTag id j) none))) c).launch = c.launch := by
    intro l; induction l with
    | nil => exact fun _ => rfl
    | cons e r ih => exact fun c => (ih _).trans (by simp)
  exact (pushes _ _).trans (pops _ _)
@[simp] theorem Course.moveQueues_resident (c : Course) (io : QueueUse) (id : Nat) : (c.moveQueues io id).resident = c.resident := by
  have pops : ∀ (l : List (Nat × Nat)) (c : Course),
      (l.foldl (fun c e => c.setQueue e.1 ((c.queue e.1).drop e.2)) c).resident = c.resident := by
    intro l; induction l with
    | nil => exact fun _ => rfl
    | cons e r ih => exact fun c => (ih _).trans (by simp)
  have pushes : ∀ (l : List (Nat × Nat)) (c : Course), (l.foldl (fun c e =>
      c.setQueue e.1 (c.queue e.1 ++ (List.range e.2).map (fun j => QSlot.mk (pushTag id j) none))) c).resident = c.resident := by
    intro l; induction l with
    | nil => exact fun _ => rfl
    | cons e r ih => exact fun c => (ih _).trans (by simp)
  exact (pushes _ _).trans (pops _ _)
@[simp] theorem Course.moveQueues_wall (c : Course) (io : QueueUse) (id : Nat) : (c.moveQueues io id).wall = c.wall := by
  have pops : ∀ (l : List (Nat × Nat)) (c : Course),
      (l.foldl (fun c e => c.setQueue e.1 ((c.queue e.1).drop e.2)) c).wall = c.wall := by
    intro l; induction l with
    | nil => exact fun _ => rfl
    | cons e r ih => exact fun c => (ih _).trans (by simp)
  have pushes : ∀ (l : List (Nat × Nat)) (c : Course), (l.foldl (fun c e =>
      c.setQueue e.1 (c.queue e.1 ++ (List.range e.2).map (fun j => QSlot.mk (pushTag id j) none))) c).wall = c.wall := by
    intro l; induction l with
    | nil => exact fun _ => rfl
    | cons e r ih => exact fun c => (ih _).trans (by simp)
  exact (pushes _ _).trans (pops _ _)
@[simp] theorem Course.moveQueues_plane (c : Course) (io : QueueUse) (id : Nat) : (c.moveQueues io id).plane = c.plane := by
  have pops : ∀ (l : List (Nat × Nat)) (c : Course),
      (l.foldl (fun c e => c.setQueue e.1 ((c.queue e.1).drop e.2)) c).plane = c.plane := by
    intro l; induction l with
    | nil => exact fun _ => rfl
    | cons e r ih => exact fun c => (ih _).trans (by simp)
  have pushes : ∀ (l : List (Nat × Nat)) (c : Course), (l.foldl (fun c e =>
      c.setQueue e.1 (c.queue e.1 ++ (List.range e.2).map (fun j => QSlot.mk (pushTag id j) none))) c).plane = c.plane := by
    intro l; induction l with
    | nil => exact fun _ => rfl
    | cons e r ih => exact fun c => (ih _).trans (by simp)
  exact (pushes _ _).trans (pops _ _)
@[simp] theorem Course.moveQueues_slot (c : Course) (io : QueueUse) (id : Nat) : (c.moveQueues io id).slot = c.slot := by
  have pops : ∀ (l : List (Nat × Nat)) (c : Course),
      (l.foldl (fun c e => c.setQueue e.1 ((c.queue e.1).drop e.2)) c).slot = c.slot := by
    intro l; induction l with
    | nil => exact fun _ => rfl
    | cons e r ih => exact fun c => (ih _).trans (by simp)
  have pushes : ∀ (l : List (Nat × Nat)) (c : Course), (l.foldl (fun c e =>
      c.setQueue e.1 (c.queue e.1 ++ (List.range e.2).map (fun j => QSlot.mk (pushTag id j) none))) c).slot = c.slot := by
    intro l; induction l with
    | nil => exact fun _ => rfl
    | cons e r ih => exact fun c => (ih _).trans (by simp)
  exact (pushes _ _).trans (pops _ _)
@[simp] theorem Course.moveQueues_lset (c : Course) (io : QueueUse) (id : Nat) : (c.moveQueues io id).lset = c.lset := by
  have pops : ∀ (l : List (Nat × Nat)) (c : Course),
      (l.foldl (fun c e => c.setQueue e.1 ((c.queue e.1).drop e.2)) c).lset = c.lset := by
    intro l; induction l with
    | nil => exact fun _ => rfl
    | cons e r ih => exact fun c => (ih _).trans (by simp)
  have pushes : ∀ (l : List (Nat × Nat)) (c : Course), (l.foldl (fun c e =>
      c.setQueue e.1 (c.queue e.1 ++ (List.range e.2).map (fun j => QSlot.mk (pushTag id j) none))) c).lset = c.lset := by
    intro l; induction l with
    | nil => exact fun _ => rfl
    | cons e r ih => exact fun c => (ih _).trans (by simp)
  exact (pushes _ _).trans (pops _ _)
@[simp] theorem Course.moveQueues_unified (c : Course) (io : QueueUse) (id : Nat) : (c.moveQueues io id).unified = c.unified := by
  have pops : ∀ (l : List (Nat × Nat)) (c : Course),
      (l.foldl (fun c e => c.setQueue e.1 ((c.queue e.1).drop e.2)) c).unified = c.unified := by
    intro l; induction l with
    | nil => exact fun _ => rfl
    | cons e r ih => exact fun c => (ih _).trans (by simp)
  have pushes : ∀ (l : List (Nat × Nat)) (c : Course), (l.foldl (fun c e =>
      c.setQueue e.1 (c.queue e.1 ++ (List.range e.2).map (fun j => QSlot.mk (pushTag id j) none))) c).unified = c.unified := by
    intro l; induction l with
    | nil => exact fun _ => rfl
    | cons e r ih => exact fun c => (ih _).trans (by simp)
  exact (pushes _ _).trans (pops _ _)
@[simp] theorem Course.moveQueues_w6 (c : Course) (io : QueueUse) (id : Nat) : (c.moveQueues io id).w6 = c.w6 := by
  have pops : ∀ (l : List (Nat × Nat)) (c : Course),
      (l.foldl (fun c e => c.setQueue e.1 ((c.queue e.1).drop e.2)) c).w6 = c.w6 := by
    intro l; induction l with
    | nil => exact fun _ => rfl
    | cons e r ih => exact fun c => (ih _).trans (by simp)
  have pushes : ∀ (l : List (Nat × Nat)) (c : Course), (l.foldl (fun c e =>
      c.setQueue e.1 (c.queue e.1 ++ (List.range e.2).map (fun j => QSlot.mk (pushTag id j) none))) c).w6 = c.w6 := by
    intro l; induction l with
    | nil => exact fun _ => rfl
    | cons e r ih => exact fun c => (ih _).trans (by simp)
  exact (pushes _ _).trans (pops _ _)
@[simp] theorem Course.moveQueues_pcA (c : Course) (io : QueueUse) (id : Nat) : (c.moveQueues io id).pcA = c.pcA := by
  have pops : ∀ (l : List (Nat × Nat)) (c : Course),
      (l.foldl (fun c e => c.setQueue e.1 ((c.queue e.1).drop e.2)) c).pcA = c.pcA := by
    intro l; induction l with
    | nil => exact fun _ => rfl
    | cons e r ih => exact fun c => (ih _).trans (by simp)
  have pushes : ∀ (l : List (Nat × Nat)) (c : Course), (l.foldl (fun c e =>
      c.setQueue e.1 (c.queue e.1 ++ (List.range e.2).map (fun j => QSlot.mk (pushTag id j) none))) c).pcA = c.pcA := by
    intro l; induction l with
    | nil => exact fun _ => rfl
    | cons e r ih => exact fun c => (ih _).trans (by simp)
  exact (pushes _ _).trans (pops _ _)
@[simp] theorem Course.moveQueues_pcC (c : Course) (io : QueueUse) (id : Nat) : (c.moveQueues io id).pcC = c.pcC := by
  have pops : ∀ (l : List (Nat × Nat)) (c : Course),
      (l.foldl (fun c e => c.setQueue e.1 ((c.queue e.1).drop e.2)) c).pcC = c.pcC := by
    intro l; induction l with
    | nil => exact fun _ => rfl
    | cons e r ih => exact fun c => (ih _).trans (by simp)
  have pushes : ∀ (l : List (Nat × Nat)) (c : Course), (l.foldl (fun c e =>
      c.setQueue e.1 (c.queue e.1 ++ (List.range e.2).map (fun j => QSlot.mk (pushTag id j) none))) c).pcC = c.pcC := by
    intro l; induction l with
    | nil => exact fun _ => rfl
    | cons e r ih => exact fun c => (ih _).trans (by simp)
  exact (pushes _ _).trans (pops _ _)
@[simp] theorem Course.moveQueues_endA (c : Course) (io : QueueUse) (id : Nat) : (c.moveQueues io id).endA = c.endA := by
  have pops : ∀ (l : List (Nat × Nat)) (c : Course),
      (l.foldl (fun c e => c.setQueue e.1 ((c.queue e.1).drop e.2)) c).endA = c.endA := by
    intro l; induction l with
    | nil => exact fun _ => rfl
    | cons e r ih => exact fun c => (ih _).trans (by simp)
  have pushes : ∀ (l : List (Nat × Nat)) (c : Course), (l.foldl (fun c e =>
      c.setQueue e.1 (c.queue e.1 ++ (List.range e.2).map (fun j => QSlot.mk (pushTag id j) none))) c).endA = c.endA := by
    intro l; induction l with
    | nil => exact fun _ => rfl
    | cons e r ih => exact fun c => (ih _).trans (by simp)
  exact (pushes _ _).trans (pops _ _)
@[simp] theorem Course.moveQueues_endC (c : Course) (io : QueueUse) (id : Nat) : (c.moveQueues io id).endC = c.endC := by
  have pops : ∀ (l : List (Nat × Nat)) (c : Course),
      (l.foldl (fun c e => c.setQueue e.1 ((c.queue e.1).drop e.2)) c).endC = c.endC := by
    intro l; induction l with
    | nil => exact fun _ => rfl
    | cons e r ih => exact fun c => (ih _).trans (by simp)
  have pushes : ∀ (l : List (Nat × Nat)) (c : Course), (l.foldl (fun c e =>
      c.setQueue e.1 (c.queue e.1 ++ (List.range e.2).map (fun j => QSlot.mk (pushTag id j) none))) c).endC = c.endC := by
    intro l; induction l with
    | nil => exact fun _ => rfl
    | cons e r ih => exact fun c => (ih _).trans (by simp)
  exact (pushes _ _).trans (pops _ _)
@[simp] theorem Course.moveQueues_trap (c : Course) (io : QueueUse) (id : Nat) : (c.moveQueues io id).trap = c.trap := by
  have pops : ∀ (l : List (Nat × Nat)) (c : Course),
      (l.foldl (fun c e => c.setQueue e.1 ((c.queue e.1).drop e.2)) c).trap = c.trap := by
    intro l; induction l with
    | nil => exact fun _ => rfl
    | cons e r ih => exact fun c => (ih _).trans (by simp)
  have pushes : ∀ (l : List (Nat × Nat)) (c : Course), (l.foldl (fun c e =>
      c.setQueue e.1 (c.queue e.1 ++ (List.range e.2).map (fun j => QSlot.mk (pushTag id j) none))) c).trap = c.trap := by
    intro l; induction l with
    | nil => exact fun _ => rfl
    | cons e r ih => exact fun c => (ih _).trans (by simp)
  exact (pushes _ _).trans (pops _ _)
@[simp] theorem Course.moveQueues_trapRec (c : Course) (io : QueueUse) (id : Nat) : (c.moveQueues io id).trapRec = c.trapRec := by
  have pops : ∀ (l : List (Nat × Nat)) (c : Course),
      (l.foldl (fun c e => c.setQueue e.1 ((c.queue e.1).drop e.2)) c).trapRec = c.trapRec := by
    intro l; induction l with
    | nil => exact fun _ => rfl
    | cons e r ih => exact fun c => (ih _).trans (by simp)
  have pushes : ∀ (l : List (Nat × Nat)) (c : Course), (l.foldl (fun c e =>
      c.setQueue e.1 (c.queue e.1 ++ (List.range e.2).map (fun j => QSlot.mk (pushTag id j) none))) c).trapRec = c.trapRec := by
    intro l; induction l with
    | nil => exact fun _ => rfl
    | cons e r ih => exact fun c => (ih _).trans (by simp)
  exact (pushes _ _).trans (pops _ _)
@[simp] theorem Course.moveQueues_halted (c : Course) (io : QueueUse) (id : Nat) : (c.moveQueues io id).halted = c.halted := by
  have pops : ∀ (l : List (Nat × Nat)) (c : Course),
      (l.foldl (fun c e => c.setQueue e.1 ((c.queue e.1).drop e.2)) c).halted = c.halted := by
    intro l; induction l with
    | nil => exact fun _ => rfl
    | cons e r ih => exact fun c => (ih _).trans (by simp)
  have pushes : ∀ (l : List (Nat × Nat)) (c : Course), (l.foldl (fun c e =>
      c.setQueue e.1 (c.queue e.1 ++ (List.range e.2).map (fun j => QSlot.mk (pushTag id j) none))) c).halted = c.halted := by
    intro l; induction l with
    | nil => exact fun _ => rfl
    | cons e r ih => exact fun c => (ih _).trans (by simp)
  exact (pushes _ _).trans (pops _ _)
@[simp] theorem Course.moveQueues_retired (c : Course) (io : QueueUse) (id : Nat) : (c.moveQueues io id).retired = c.retired := by
  have pops : ∀ (l : List (Nat × Nat)) (c : Course),
      (l.foldl (fun c e => c.setQueue e.1 ((c.queue e.1).drop e.2)) c).retired = c.retired := by
    intro l; induction l with
    | nil => exact fun _ => rfl
    | cons e r ih => exact fun c => (ih _).trans (by simp)
  have pushes : ∀ (l : List (Nat × Nat)) (c : Course), (l.foldl (fun c e =>
      c.setQueue e.1 (c.queue e.1 ++ (List.range e.2).map (fun j => QSlot.mk (pushTag id j) none))) c).retired = c.retired := by
    intro l; induction l with
    | nil => exact fun _ => rfl
    | cons e r ih => exact fun c => (ih _).trans (by simp)
  exact (pushes _ _).trans (pops _ _)
@[simp] theorem Course.moveQueues_moving (c : Course) (io : QueueUse) (id : Nat) : (c.moveQueues io id).moving = c.moving := by
  have pops : ∀ (l : List (Nat × Nat)) (c : Course),
      (l.foldl (fun c e => c.setQueue e.1 ((c.queue e.1).drop e.2)) c).moving = c.moving := by
    intro l; induction l with
    | nil => exact fun _ => rfl
    | cons e r ih => exact fun c => (ih _).trans (by simp)
  have pushes : ∀ (l : List (Nat × Nat)) (c : Course), (l.foldl (fun c e =>
      c.setQueue e.1 (c.queue e.1 ++ (List.range e.2).map (fun j => QSlot.mk (pushTag id j) none))) c).moving = c.moving := by
    intro l; induction l with
    | nil => exact fun _ => rfl
    | cons e r ih => exact fun c => (ih _).trans (by simp)
  exact (pushes _ _).trans (pops _ _)
@[simp] theorem Course.moveQueues_savedAt (c : Course) (io : QueueUse) (id : Nat) : (c.moveQueues io id).savedAt = c.savedAt := by
  have pops : ∀ (l : List (Nat × Nat)) (c : Course),
      (l.foldl (fun c e => c.setQueue e.1 ((c.queue e.1).drop e.2)) c).savedAt = c.savedAt := by
    intro l; induction l with
    | nil => exact fun _ => rfl
    | cons e r ih => exact fun c => (ih _).trans (by simp)
  have pushes : ∀ (l : List (Nat × Nat)) (c : Course), (l.foldl (fun c e =>
      c.setQueue e.1 (c.queue e.1 ++ (List.range e.2).map (fun j => QSlot.mk (pushTag id j) none))) c).savedAt = c.savedAt := by
    intro l; induction l with
    | nil => exact fun _ => rfl
    | cons e r ih => exact fun c => (ih _).trans (by simp)
  exact (pushes _ _).trans (pops _ _)
@[simp] theorem Course.moveQueues_hold (c : Course) (io : QueueUse) (id : Nat) : (c.moveQueues io id).hold = c.hold := by
  have pops : ∀ (l : List (Nat × Nat)) (c : Course),
      (l.foldl (fun c e => c.setQueue e.1 ((c.queue e.1).drop e.2)) c).hold = c.hold := by
    intro l; induction l with
    | nil => exact fun _ => rfl
    | cons e r ih => exact fun c => (ih _).trans (by simp)
  have pushes : ∀ (l : List (Nat × Nat)) (c : Course), (l.foldl (fun c e =>
      c.setQueue e.1 (c.queue e.1 ++ (List.range e.2).map (fun j => QSlot.mk (pushTag id j) none))) c).hold = c.hold := by
    intro l; induction l with
    | nil => exact fun _ => rfl
    | cons e r ih => exact fun c => (ih _).trans (by simp)
  exact (pushes _ _).trans (pops _ _)
@[simp] theorem Course.moveQueues_holdC (c : Course) (io : QueueUse) (id : Nat) : (c.moveQueues io id).holdC = c.holdC := by
  have pops : ∀ (l : List (Nat × Nat)) (c : Course),
      (l.foldl (fun c e => c.setQueue e.1 ((c.queue e.1).drop e.2)) c).holdC = c.holdC := by
    intro l; induction l with
    | nil => exact fun _ => rfl
    | cons e r ih => exact fun c => (ih _).trans (by simp)
  have pushes : ∀ (l : List (Nat × Nat)) (c : Course), (l.foldl (fun c e =>
      c.setQueue e.1 (c.queue e.1 ++ (List.range e.2).map (fun j => QSlot.mk (pushTag id j) none))) c).holdC = c.holdC := by
    intro l; induction l with
    | nil => exact fun _ => rfl
    | cons e r ih => exact fun c => (ih _).trans (by simp)
  exact (pushes _ _).trans (pops _ _)
@[simp] theorem Course.moveQueues_lastA (c : Course) (io : QueueUse) (id : Nat) : (c.moveQueues io id).lastA = c.lastA := by
  have pops : ∀ (l : List (Nat × Nat)) (c : Course),
      (l.foldl (fun c e => c.setQueue e.1 ((c.queue e.1).drop e.2)) c).lastA = c.lastA := by
    intro l; induction l with
    | nil => exact fun _ => rfl
    | cons e r ih => exact fun c => (ih _).trans (by simp)
  have pushes : ∀ (l : List (Nat × Nat)) (c : Course), (l.foldl (fun c e =>
      c.setQueue e.1 (c.queue e.1 ++ (List.range e.2).map (fun j => QSlot.mk (pushTag id j) none))) c).lastA = c.lastA := by
    intro l; induction l with
    | nil => exact fun _ => rfl
    | cons e r ih => exact fun c => (ih _).trans (by simp)
  exact (pushes _ _).trans (pops _ _)
@[simp] theorem Course.moveQueues_lastC (c : Course) (io : QueueUse) (id : Nat) : (c.moveQueues io id).lastC = c.lastC := by
  have pops : ∀ (l : List (Nat × Nat)) (c : Course),
      (l.foldl (fun c e => c.setQueue e.1 ((c.queue e.1).drop e.2)) c).lastC = c.lastC := by
    intro l; induction l with
    | nil => exact fun _ => rfl
    | cons e r ih => exact fun c => (ih _).trans (by simp)
  have pushes : ∀ (l : List (Nat × Nat)) (c : Course), (l.foldl (fun c e =>
      c.setQueue e.1 (c.queue e.1 ++ (List.range e.2).map (fun j => QSlot.mk (pushTag id j) none))) c).lastC = c.lastC := by
    intro l; induction l with
    | nil => exact fun _ => rfl
    | cons e r ih => exact fun c => (ih _).trans (by simp)
  exact (pushes _ _).trans (pops _ _)
@[simp] theorem Course.moveQueues_ageA (c : Course) (io : QueueUse) (id : Nat) : (c.moveQueues io id).ageA = c.ageA := by
  have pops : ∀ (l : List (Nat × Nat)) (c : Course),
      (l.foldl (fun c e => c.setQueue e.1 ((c.queue e.1).drop e.2)) c).ageA = c.ageA := by
    intro l; induction l with
    | nil => exact fun _ => rfl
    | cons e r ih => exact fun c => (ih _).trans (by simp)
  have pushes : ∀ (l : List (Nat × Nat)) (c : Course), (l.foldl (fun c e =>
      c.setQueue e.1 (c.queue e.1 ++ (List.range e.2).map (fun j => QSlot.mk (pushTag id j) none))) c).ageA = c.ageA := by
    intro l; induction l with
    | nil => exact fun _ => rfl
    | cons e r ih => exact fun c => (ih _).trans (by simp)
  exact (pushes _ _).trans (pops _ _)
@[simp] theorem Course.moveQueues_ageC (c : Course) (io : QueueUse) (id : Nat) : (c.moveQueues io id).ageC = c.ageC := by
  have pops : ∀ (l : List (Nat × Nat)) (c : Course),
      (l.foldl (fun c e => c.setQueue e.1 ((c.queue e.1).drop e.2)) c).ageC = c.ageC := by
    intro l; induction l with
    | nil => exact fun _ => rfl
    | cons e r ih => exact fun c => (ih _).trans (by simp)
  have pushes : ∀ (l : List (Nat × Nat)) (c : Course), (l.foldl (fun c e =>
      c.setQueue e.1 (c.queue e.1 ++ (List.range e.2).map (fun j => QSlot.mk (pushTag id j) none))) c).ageC = c.ageC := by
    intro l; induction l with
    | nil => exact fun _ => rfl
    | cons e r ih => exact fun c => (ih _).trans (by simp)
  exact (pushes _ _).trans (pops _ _)
@[simp] theorem Course.moveQueues_live (c : Course) (io : QueueUse) (id : Nat) : (c.moveQueues io id).live = c.live := by
  have pops : ∀ (l : List (Nat × Nat)) (c : Course),
      (l.foldl (fun c e => c.setQueue e.1 ((c.queue e.1).drop e.2)) c).live = c.live := by
    intro l; induction l with
    | nil => exact fun _ => rfl
    | cons e r ih => exact fun c => (ih _).trans (by simp)
  have pushes : ∀ (l : List (Nat × Nat)) (c : Course), (l.foldl (fun c e =>
      c.setQueue e.1 (c.queue e.1 ++ (List.range e.2).map (fun j => QSlot.mk (pushTag id j) none))) c).live = c.live := by
    intro l; induction l with
    | nil => exact fun _ => rfl
    | cons e r ih => exact fun c => (ih _).trans (by simp)
  exact (pushes _ _).trans (pops _ _)
@[simp] theorem Course.moveQueues_s (c : Course) (io : QueueUse) (id : Nat) : (c.moveQueues io id).s = c.s := by
  have pops : ∀ (l : List (Nat × Nat)) (c : Course),
      (l.foldl (fun c e => c.setQueue e.1 ((c.queue e.1).drop e.2)) c).s = c.s := by
    intro l; induction l with
    | nil => exact fun _ => rfl
    | cons e r ih => exact fun c => (ih _).trans (by simp)
  have pushes : ∀ (l : List (Nat × Nat)) (c : Course), (l.foldl (fun c e =>
      c.setQueue e.1 (c.queue e.1 ++ (List.range e.2).map (fun j => QSlot.mk (pushTag id j) none))) c).s = c.s := by
    intro l; induction l with
    | nil => exact fun _ => rfl
    | cons e r ih => exact fun c => (ih _).trans (by simp)
  exact (pushes _ _).trans (pops _ _)
@[simp] theorem Course.moveQueues_w (c : Course) (io : QueueUse) (id : Nat) : (c.moveQueues io id).w = c.w := by
  have pops : ∀ (l : List (Nat × Nat)) (c : Course),
      (l.foldl (fun c e => c.setQueue e.1 ((c.queue e.1).drop e.2)) c).w = c.w := by
    intro l; induction l with
    | nil => exact fun _ => rfl
    | cons e r ih => exact fun c => (ih _).trans (by simp)
  have pushes : ∀ (l : List (Nat × Nat)) (c : Course), (l.foldl (fun c e =>
      c.setQueue e.1 (c.queue e.1 ++ (List.range e.2).map (fun j => QSlot.mk (pushTag id j) none))) c).w = c.w := by
    intro l; induction l with
    | nil => exact fun _ => rfl
    | cons e r ih => exact fun c => (ih _).trans (by simp)
  exact (pushes _ _).trans (pops _ _)
@[simp] theorem Course.moveQueues_v (c : Course) (io : QueueUse) (id : Nat) : (c.moveQueues io id).v = c.v := by
  have pops : ∀ (l : List (Nat × Nat)) (c : Course),
      (l.foldl (fun c e => c.setQueue e.1 ((c.queue e.1).drop e.2)) c).v = c.v := by
    intro l; induction l with
    | nil => exact fun _ => rfl
    | cons e r ih => exact fun c => (ih _).trans (by simp)
  have pushes : ∀ (l : List (Nat × Nat)) (c : Course), (l.foldl (fun c e =>
      c.setQueue e.1 (c.queue e.1 ++ (List.range e.2).map (fun j => QSlot.mk (pushTag id j) none))) c).v = c.v := by
    intro l; induction l with
    | nil => exact fun _ => rfl
    | cons e r ih => exact fun c => (ih _).trans (by simp)
  exact (pushes _ _).trans (pops _ _)
@[simp] theorem Course.moveQueues_p (c : Course) (io : QueueUse) (id : Nat) : (c.moveQueues io id).p = c.p := by
  have pops : ∀ (l : List (Nat × Nat)) (c : Course),
      (l.foldl (fun c e => c.setQueue e.1 ((c.queue e.1).drop e.2)) c).p = c.p := by
    intro l; induction l with
    | nil => exact fun _ => rfl
    | cons e r ih => exact fun c => (ih _).trans (by simp)
  have pushes : ∀ (l : List (Nat × Nat)) (c : Course), (l.foldl (fun c e =>
      c.setQueue e.1 (c.queue e.1 ++ (List.range e.2).map (fun j => QSlot.mk (pushTag id j) none))) c).p = c.p := by
    intro l; induction l with
    | nil => exact fun _ => rfl
    | cons e r ih => exact fun c => (ih _).trans (by simp)
  exact (pushes _ _).trans (pops _ _)
@[simp] theorem Course.moveQueues_qe (c : Course) (io : QueueUse) (id : Nat) : (c.moveQueues io id).qe = c.qe := by
  have pops : ∀ (l : List (Nat × Nat)) (c : Course),
      (l.foldl (fun c e => c.setQueue e.1 ((c.queue e.1).drop e.2)) c).qe = c.qe := by
    intro l; induction l with
    | nil => exact fun _ => rfl
    | cons e r ih => exact fun c => (ih _).trans (by simp)
  have pushes : ∀ (l : List (Nat × Nat)) (c : Course), (l.foldl (fun c e =>
      c.setQueue e.1 (c.queue e.1 ++ (List.range e.2).map (fun j => QSlot.mk (pushTag id j) none))) c).qe = c.qe := by
    intro l; induction l with
    | nil => exact fun _ => rfl
    | cons e r ih => exact fun c => (ih _).trans (by simp)
  exact (pushes _ _).trans (pops _ _)
@[simp] theorem Course.moveQueues_qs (c : Course) (io : QueueUse) (id : Nat) : (c.moveQueues io id).qs = c.qs := by
  have pops : ∀ (l : List (Nat × Nat)) (c : Course),
      (l.foldl (fun c e => c.setQueue e.1 ((c.queue e.1).drop e.2)) c).qs = c.qs := by
    intro l; induction l with
    | nil => exact fun _ => rfl
    | cons e r ih => exact fun c => (ih _).trans (by simp)
  have pushes : ∀ (l : List (Nat × Nat)) (c : Course), (l.foldl (fun c e =>
      c.setQueue e.1 (c.queue e.1 ++ (List.range e.2).map (fun j => QSlot.mk (pushTag id j) none))) c).qs = c.qs := by
    intro l; induction l with
    | nil => exact fun _ => rfl
    | cons e r ih => exact fun c => (ih _).trans (by simp)
  exact (pushes _ _).trans (pops _ _)
@[simp] theorem Course.moveQueues_b (c : Course) (io : QueueUse) (id : Nat) : (c.moveQueues io id).b = c.b := by
  have pops : ∀ (l : List (Nat × Nat)) (c : Course),
      (l.foldl (fun c e => c.setQueue e.1 ((c.queue e.1).drop e.2)) c).b = c.b := by
    intro l; induction l with
    | nil => exact fun _ => rfl
    | cons e r ih => exact fun c => (ih _).trans (by simp)
  have pushes : ∀ (l : List (Nat × Nat)) (c : Course), (l.foldl (fun c e =>
      c.setQueue e.1 (c.queue e.1 ++ (List.range e.2).map (fun j => QSlot.mk (pushTag id j) none))) c).b = c.b := by
    intro l; induction l with
    | nil => exact fun _ => rfl
    | cons e r ih => exact fun c => (ih _).trans (by simp)
  exact (pushes _ _).trans (pops _ _)
@[simp] theorem Course.moveQueues_flags (c : Course) (io : QueueUse) (id : Nat) : (c.moveQueues io id).flags = c.flags := by
  have pops : ∀ (l : List (Nat × Nat)) (c : Course),
      (l.foldl (fun c e => c.setQueue e.1 ((c.queue e.1).drop e.2)) c).flags = c.flags := by
    intro l; induction l with
    | nil => exact fun _ => rfl
    | cons e r ih => exact fun c => (ih _).trans (by simp)
  have pushes : ∀ (l : List (Nat × Nat)) (c : Course), (l.foldl (fun c e =>
      c.setQueue e.1 (c.queue e.1 ++ (List.range e.2).map (fun j => QSlot.mk (pushTag id j) none))) c).flags = c.flags := by
    intro l; induction l with
    | nil => exact fun _ => rfl
    | cons e r ih => exact fun c => (ih _).trans (by simp)
  exact (pushes _ _).trans (pops _ _)
@[simp] theorem Course.moveQueues_gang (c : Course) (io : QueueUse) (id : Nat) : (c.moveQueues io id).gang = c.gang := by
  have pops : ∀ (l : List (Nat × Nat)) (c : Course),
      (l.foldl (fun c e => c.setQueue e.1 ((c.queue e.1).drop e.2)) c).gang = c.gang := by
    intro l; induction l with
    | nil => exact fun _ => rfl
    | cons e r ih => exact fun c => (ih _).trans (by simp)
  have pushes : ∀ (l : List (Nat × Nat)) (c : Course), (l.foldl (fun c e =>
      c.setQueue e.1 (c.queue e.1 ++ (List.range e.2).map (fun j => QSlot.mk (pushTag id j) none))) c).gang = c.gang := by
    intro l; induction l with
    | nil => exact fun _ => rfl
    | cons e r ih => exact fun c => (ih _).trans (by simp)
  exact (pushes _ _).trans (pops _ _)
@[simp] theorem Course.moveQueues_recon (c : Course) (io : QueueUse) (id : Nat) : (c.moveQueues io id).recon = c.recon := by
  have pops : ∀ (l : List (Nat × Nat)) (c : Course),
      (l.foldl (fun c e => c.setQueue e.1 ((c.queue e.1).drop e.2)) c).recon = c.recon := by
    intro l; induction l with
    | nil => exact fun _ => rfl
    | cons e r ih => exact fun c => (ih _).trans (by simp)
  have pushes : ∀ (l : List (Nat × Nat)) (c : Course), (l.foldl (fun c e =>
      c.setQueue e.1 (c.queue e.1 ++ (List.range e.2).map (fun j => QSlot.mk (pushTag id j) none))) c).recon = c.recon := by
    intro l; induction l with
    | nil => exact fun _ => rfl
    | cons e r ih => exact fun c => (ih _).trans (by simp)
  exact (pushes _ _).trans (pops _ _)
@[simp] theorem Course.moveQueues_meld (c : Course) (io : QueueUse) (id : Nat) : (c.moveQueues io id).meld = c.meld := by
  have pops : ∀ (l : List (Nat × Nat)) (c : Course),
      (l.foldl (fun c e => c.setQueue e.1 ((c.queue e.1).drop e.2)) c).meld = c.meld := by
    intro l; induction l with
    | nil => exact fun _ => rfl
    | cons e r ih => exact fun c => (ih _).trans (by simp)
  have pushes : ∀ (l : List (Nat × Nat)) (c : Course), (l.foldl (fun c e =>
      c.setQueue e.1 (c.queue e.1 ++ (List.range e.2).map (fun j => QSlot.mk (pushTag id j) none))) c).meld = c.meld := by
    intro l; induction l with
    | nil => exact fun _ => rfl
    | cons e r ih => exact fun c => (ih _).trans (by simp)
  exact (pushes _ _).trans (pops _ _)
@[simp] theorem Course.moveQueues_fslots (c : Course) (io : QueueUse) (id : Nat) : (c.moveQueues io id).fslots = c.fslots := by
  have pops : ∀ (l : List (Nat × Nat)) (c : Course),
      (l.foldl (fun c e => c.setQueue e.1 ((c.queue e.1).drop e.2)) c).fslots = c.fslots := by
    intro l; induction l with
    | nil => exact fun _ => rfl
    | cons e r ih => exact fun c => (ih _).trans (by simp)
  have pushes : ∀ (l : List (Nat × Nat)) (c : Course), (l.foldl (fun c e =>
      c.setQueue e.1 (c.queue e.1 ++ (List.range e.2).map (fun j => QSlot.mk (pushTag id j) none))) c).fslots = c.fslots := by
    intro l; induction l with
    | nil => exact fun _ => rfl
    | cons e r ih => exact fun c => (ih _).trans (by simp)
  exact (pushes _ _).trans (pops _ _)
@[simp] theorem Course.moveQueues_recs (c : Course) (io : QueueUse) (id : Nat) : (c.moveQueues io id).recs = c.recs := by
  have pops : ∀ (l : List (Nat × Nat)) (c : Course),
      (l.foldl (fun c e => c.setQueue e.1 ((c.queue e.1).drop e.2)) c).recs = c.recs := by
    intro l; induction l with
    | nil => exact fun _ => rfl
    | cons e r ih => exact fun c => (ih _).trans (by simp)
  have pushes : ∀ (l : List (Nat × Nat)) (c : Course), (l.foldl (fun c e =>
      c.setQueue e.1 (c.queue e.1 ++ (List.range e.2).map (fun j => QSlot.mk (pushTag id j) none))) c).recs = c.recs := by
    intro l; induction l with
    | nil => exact fun _ => rfl
    | cons e r ih => exact fun c => (ih _).trans (by simp)
  exact (pushes _ _).trans (pops _ _)
@[simp] theorem Course.moveQueues_latch (c : Course) (io : QueueUse) (id : Nat) : (c.moveQueues io id).latch = c.latch := by
  have pops : ∀ (l : List (Nat × Nat)) (c : Course),
      (l.foldl (fun c e => c.setQueue e.1 ((c.queue e.1).drop e.2)) c).latch = c.latch := by
    intro l; induction l with
    | nil => exact fun _ => rfl
    | cons e r ih => exact fun c => (ih _).trans (by simp)
  have pushes : ∀ (l : List (Nat × Nat)) (c : Course), (l.foldl (fun c e =>
      c.setQueue e.1 (c.queue e.1 ++ (List.range e.2).map (fun j => QSlot.mk (pushTag id j) none))) c).latch = c.latch := by
    intro l; induction l with
    | nil => exact fun _ => rfl
    | cons e r ih => exact fun c => (ih _).trans (by simp)
  exact (pushes _ _).trans (pops _ _)
@[simp] theorem Course.moveQueues_event (c : Course) (io : QueueUse) (id : Nat) : (c.moveQueues io id).event = c.event := by
  have pops : ∀ (l : List (Nat × Nat)) (c : Course),
      (l.foldl (fun c e => c.setQueue e.1 ((c.queue e.1).drop e.2)) c).event = c.event := by
    intro l; induction l with
    | nil => exact fun _ => rfl
    | cons e r ih => exact fun c => (ih _).trans (by simp)
  have pushes : ∀ (l : List (Nat × Nat)) (c : Course), (l.foldl (fun c e =>
      c.setQueue e.1 (c.queue e.1 ++ (List.range e.2).map (fun j => QSlot.mk (pushTag id j) none))) c).event = c.event := by
    intro l; induction l with
    | nil => exact fun _ => rfl
    | cons e r ih => exact fun c => (ih _).trans (by simp)
  exact (pushes _ _).trans (pops _ _)
@[simp] theorem Course.moveQueues_sync (c : Course) (io : QueueUse) (id : Nat) : (c.moveQueues io id).sync = c.sync := by
  have pops : ∀ (l : List (Nat × Nat)) (c : Course),
      (l.foldl (fun c e => c.setQueue e.1 ((c.queue e.1).drop e.2)) c).sync = c.sync := by
    intro l; induction l with
    | nil => exact fun _ => rfl
    | cons e r ih => exact fun c => (ih _).trans (by simp)
  have pushes : ∀ (l : List (Nat × Nat)) (c : Course), (l.foldl (fun c e =>
      c.setQueue e.1 (c.queue e.1 ++ (List.range e.2).map (fun j => QSlot.mk (pushTag id j) none))) c).sync = c.sync := by
    intro l; induction l with
    | nil => exact fun _ => rfl
    | cons e r ih => exact fun c => (ih _).trans (by simp)
  exact (pushes _ _).trans (pops _ _)
@[simp] theorem Course.moveQueues_relFences (c : Course) (io : QueueUse) (id : Nat) : (c.moveQueues io id).relFences = c.relFences := by
  have pops : ∀ (l : List (Nat × Nat)) (c : Course),
      (l.foldl (fun c e => c.setQueue e.1 ((c.queue e.1).drop e.2)) c).relFences = c.relFences := by
    intro l; induction l with
    | nil => exact fun _ => rfl
    | cons e r ih => exact fun c => (ih _).trans (by simp)
  have pushes : ∀ (l : List (Nat × Nat)) (c : Course), (l.foldl (fun c e =>
      c.setQueue e.1 (c.queue e.1 ++ (List.range e.2).map (fun j => QSlot.mk (pushTag id j) none))) c).relFences = c.relFences := by
    intro l; induction l with
    | nil => exact fun _ => rfl
    | cons e r ih => exact fun c => (ih _).trans (by simp)
  exact (pushes _ _).trans (pops _ _)
@[simp] theorem Course.moveQueues_relSeen (c : Course) (io : QueueUse) (id : Nat) : (c.moveQueues io id).relSeen = c.relSeen := by
  have pops : ∀ (l : List (Nat × Nat)) (c : Course),
      (l.foldl (fun c e => c.setQueue e.1 ((c.queue e.1).drop e.2)) c).relSeen = c.relSeen := by
    intro l; induction l with
    | nil => exact fun _ => rfl
    | cons e r ih => exact fun c => (ih _).trans (by simp)
  have pushes : ∀ (l : List (Nat × Nat)) (c : Course), (l.foldl (fun c e =>
      c.setQueue e.1 (c.queue e.1 ++ (List.range e.2).map (fun j => QSlot.mk (pushTag id j) none))) c).relSeen = c.relSeen := by
    intro l; induction l with
    | nil => exact fun _ => rfl
    | cons e r ih => exact fun c => (ih _).trans (by simp)
  exact (pushes _ _).trans (pops _ _)
@[simp] theorem Course.moveQueues_epochs (c : Course) (io : QueueUse) (id : Nat) : (c.moveQueues io id).epochs = c.epochs := by
  have pops : ∀ (l : List (Nat × Nat)) (c : Course),
      (l.foldl (fun c e => c.setQueue e.1 ((c.queue e.1).drop e.2)) c).epochs = c.epochs := by
    intro l; induction l with
    | nil => exact fun _ => rfl
    | cons e r ih => exact fun c => (ih _).trans (by simp)
  have pushes : ∀ (l : List (Nat × Nat)) (c : Course), (l.foldl (fun c e =>
      c.setQueue e.1 (c.queue e.1 ++ (List.range e.2).map (fun j => QSlot.mk (pushTag id j) none))) c).epochs = c.epochs := by
    intro l; induction l with
    | nil => exact fun _ => rfl
    | cons e r ih => exact fun c => (ih _).trans (by simp)
  exact (pushes _ _).trans (pops _ _)
@[simp] theorem Course.moveQueues_work (c : Course) (io : QueueUse) (id : Nat) : (c.moveQueues io id).work = c.work := by
  have pops : ∀ (l : List (Nat × Nat)) (c : Course),
      (l.foldl (fun c e => c.setQueue e.1 ((c.queue e.1).drop e.2)) c).work = c.work := by
    intro l; induction l with
    | nil => exact fun _ => rfl
    | cons e r ih => exact fun c => (ih _).trans (by simp)
  have pushes : ∀ (l : List (Nat × Nat)) (c : Course), (l.foldl (fun c e =>
      c.setQueue e.1 (c.queue e.1 ++ (List.range e.2).map (fun j => QSlot.mk (pushTag id j) none))) c).work = c.work := by
    intro l; induction l with
    | nil => exact fun _ => rfl
    | cons e r ih => exact fun c => (ih _).trans (by simp)
  exact (pushes _ _).trans (pops _ _)
@[simp] theorem Course.moveQueues_atoms (c : Course) (io : QueueUse) (id : Nat) : (c.moveQueues io id).atoms = c.atoms := by
  have pops : ∀ (l : List (Nat × Nat)) (c : Course),
      (l.foldl (fun c e => c.setQueue e.1 ((c.queue e.1).drop e.2)) c).atoms = c.atoms := by
    intro l; induction l with
    | nil => exact fun _ => rfl
    | cons e r ih => exact fun c => (ih _).trans (by simp)
  have pushes : ∀ (l : List (Nat × Nat)) (c : Course), (l.foldl (fun c e =>
      c.setQueue e.1 (c.queue e.1 ++ (List.range e.2).map (fun j => QSlot.mk (pushTag id j) none))) c).atoms = c.atoms := by
    intro l; induction l with
    | nil => exact fun _ => rfl
    | cons e r ih => exact fun c => (ih _).trans (by simp)
  exact (pushes _ _).trans (pops _ _)
@[simp] theorem Course.moveQueues_promises (c : Course) (io : QueueUse) (id : Nat) : (c.moveQueues io id).promises = c.promises := by
  have pops : ∀ (l : List (Nat × Nat)) (c : Course),
      (l.foldl (fun c e => c.setQueue e.1 ((c.queue e.1).drop e.2)) c).promises = c.promises := by
    intro l; induction l with
    | nil => exact fun _ => rfl
    | cons e r ih => exact fun c => (ih _).trans (by simp)
  have pushes : ∀ (l : List (Nat × Nat)) (c : Course), (l.foldl (fun c e =>
      c.setQueue e.1 (c.queue e.1 ++ (List.range e.2).map (fun j => QSlot.mk (pushTag id j) none))) c).promises = c.promises := by
    intro l; induction l with
    | nil => exact fun _ => rfl
    | cons e r ih => exact fun c => (ih _).trans (by simp)
  exact (pushes _ _).trans (pops _ _)
@[simp] theorem Course.moveQueues_held (c : Course) (io : QueueUse) (id : Nat) : (c.moveQueues io id).held = c.held := by
  have pops : ∀ (l : List (Nat × Nat)) (c : Course),
      (l.foldl (fun c e => c.setQueue e.1 ((c.queue e.1).drop e.2)) c).held = c.held := by
    intro l; induction l with
    | nil => exact fun _ => rfl
    | cons e r ih => exact fun c => (ih _).trans (by simp)
  have pushes : ∀ (l : List (Nat × Nat)) (c : Course), (l.foldl (fun c e =>
      c.setQueue e.1 (c.queue e.1 ++ (List.range e.2).map (fun j => QSlot.mk (pushTag id j) none))) c).held = c.held := by
    intro l; induction l with
    | nil => exact fun _ => rfl
    | cons e r ih => exact fun c => (ih _).trans (by simp)
  exact (pushes _ _).trans (pops _ _)
@[simp] theorem Course.moveQueues_depths (c : Course) (io : QueueUse) (id : Nat) : (c.moveQueues io id).depths = c.depths := by
  have pops : ∀ (l : List (Nat × Nat)) (c : Course),
      (l.foldl (fun c e => c.setQueue e.1 ((c.queue e.1).drop e.2)) c).depths = c.depths := by
    intro l; induction l with
    | nil => exact fun _ => rfl
    | cons e r ih => exact fun c => (ih _).trans (by simp)
  have pushes : ∀ (l : List (Nat × Nat)) (c : Course), (l.foldl (fun c e =>
      c.setQueue e.1 (c.queue e.1 ++ (List.range e.2).map (fun j => QSlot.mk (pushTag id j) none))) c).depths = c.depths := by
    intro l; induction l with
    | nil => exact fun _ => rfl
    | cons e r ih => exact fun c => (ih _).trans (by simp)
  exact (pushes _ _).trans (pops _ _)
@[simp] theorem Course.moveQueues_icacheA (c : Course) (io : QueueUse) (id : Nat) : (c.moveQueues io id).icacheA = c.icacheA := by
  have pops : ∀ (l : List (Nat × Nat)) (c : Course),
      (l.foldl (fun c e => c.setQueue e.1 ((c.queue e.1).drop e.2)) c).icacheA = c.icacheA := by
    intro l; induction l with
    | nil => exact fun _ => rfl
    | cons e r ih => exact fun c => (ih _).trans (by simp)
  have pushes : ∀ (l : List (Nat × Nat)) (c : Course), (l.foldl (fun c e =>
      c.setQueue e.1 (c.queue e.1 ++ (List.range e.2).map (fun j => QSlot.mk (pushTag id j) none))) c).icacheA = c.icacheA := by
    intro l; induction l with
    | nil => exact fun _ => rfl
    | cons e r ih => exact fun c => (ih _).trans (by simp)
  exact (pushes _ _).trans (pops _ _)
@[simp] theorem Course.moveQueues_icacheC (c : Course) (io : QueueUse) (id : Nat) : (c.moveQueues io id).icacheC = c.icacheC := by
  have pops : ∀ (l : List (Nat × Nat)) (c : Course),
      (l.foldl (fun c e => c.setQueue e.1 ((c.queue e.1).drop e.2)) c).icacheC = c.icacheC := by
    intro l; induction l with
    | nil => exact fun _ => rfl
    | cons e r ih => exact fun c => (ih _).trans (by simp)
  have pushes : ∀ (l : List (Nat × Nat)) (c : Course), (l.foldl (fun c e =>
      c.setQueue e.1 (c.queue e.1 ++ (List.range e.2).map (fun j => QSlot.mk (pushTag id j) none))) c).icacheC = c.icacheC := by
    intro l; induction l with
    | nil => exact fun _ => rfl
    | cons e r ih => exact fun c => (ih _).trans (by simp)
  exact (pushes _ _).trans (pops _ _)
@[simp] theorem Course.moveQueues_copyRels (c : Course) (io : QueueUse) (id : Nat) : (c.moveQueues io id).copyRels = c.copyRels := by
  have pops : ∀ (l : List (Nat × Nat)) (c : Course),
      (l.foldl (fun c e => c.setQueue e.1 ((c.queue e.1).drop e.2)) c).copyRels = c.copyRels := by
    intro l; induction l with
    | nil => exact fun _ => rfl
    | cons e r ih => exact fun c => (ih _).trans (by simp)
  have pushes : ∀ (l : List (Nat × Nat)) (c : Course), (l.foldl (fun c e =>
      c.setQueue e.1 (c.queue e.1 ++ (List.range e.2).map (fun j => QSlot.mk (pushTag id j) none))) c).copyRels = c.copyRels := by
    intro l; induction l with
    | nil => exact fun _ => rfl
    | cons e r ih => exact fun c => (ih _).trans (by simp)
  exact (pushes _ _).trans (pops _ _)
@[simp] theorem Course.moveQueues_cancelled (c : Course) (io : QueueUse) (id : Nat) : (c.moveQueues io id).cancelled = c.cancelled := by
  have pops : ∀ (l : List (Nat × Nat)) (c : Course),
      (l.foldl (fun c e => c.setQueue e.1 ((c.queue e.1).drop e.2)) c).cancelled = c.cancelled := by
    intro l; induction l with
    | nil => exact fun _ => rfl
    | cons e r ih => exact fun c => (ih _).trans (by simp)
  have pushes : ∀ (l : List (Nat × Nat)) (c : Course), (l.foldl (fun c e =>
      c.setQueue e.1 (c.queue e.1 ++ (List.range e.2).map (fun j => QSlot.mk (pushTag id j) none))) c).cancelled = c.cancelled := by
    intro l; induction l with
    | nil => exact fun _ => rfl
    | cons e r ih => exact fun c => (ih _).trans (by simp)
  exact (pushes _ _).trans (pops _ _)
@[simp] theorem Course.moveQueues_twin (c : Course) (io : QueueUse) (id : Nat) : (c.moveQueues io id).twin = c.twin := by
  have pops : ∀ (l : List (Nat × Nat)) (c : Course),
      (l.foldl (fun c e => c.setQueue e.1 ((c.queue e.1).drop e.2)) c).twin = c.twin := by
    intro l; induction l with
    | nil => exact fun _ => rfl
    | cons e r ih => exact fun c => (ih _).trans (by simp)
  have pushes : ∀ (l : List (Nat × Nat)) (c : Course), (l.foldl (fun c e =>
      c.setQueue e.1 (c.queue e.1 ++ (List.range e.2).map (fun j => QSlot.mk (pushTag id j) none))) c).twin = c.twin := by
    intro l; induction l with
    | nil => exact fun _ => rfl
    | cons e r ih => exact fun c => (ih _).trans (by simp)
  exact (pushes _ _).trans (pops _ _)
@[simp] theorem Course.moveQueues_twinSet (c : Course) (io : QueueUse) (id : Nat) : (c.moveQueues io id).twinSet = c.twinSet := by
  have pops : ∀ (l : List (Nat × Nat)) (c : Course),
      (l.foldl (fun c e => c.setQueue e.1 ((c.queue e.1).drop e.2)) c).twinSet = c.twinSet := by
    intro l; induction l with
    | nil => exact fun _ => rfl
    | cons e r ih => exact fun c => (ih _).trans (by simp)
  have pushes : ∀ (l : List (Nat × Nat)) (c : Course), (l.foldl (fun c e =>
      c.setQueue e.1 (c.queue e.1 ++ (List.range e.2).map (fun j => QSlot.mk (pushTag id j) none))) c).twinSet = c.twinSet := by
    intro l; induction l with
    | nil => exact fun _ => rfl
    | cons e r ih => exact fun c => (ih _).trans (by simp)
  exact (pushes _ _).trans (pops _ _)
@[simp] theorem Course.moveQueues_twinSlot (c : Course) (io : QueueUse) (id : Nat) : (c.moveQueues io id).twinSlot = c.twinSlot := by
  have pops : ∀ (l : List (Nat × Nat)) (c : Course),
      (l.foldl (fun c e => c.setQueue e.1 ((c.queue e.1).drop e.2)) c).twinSlot = c.twinSlot := by
    intro l; induction l with
    | nil => exact fun _ => rfl
    | cons e r ih => exact fun c => (ih _).trans (by simp)
  have pushes : ∀ (l : List (Nat × Nat)) (c : Course), (l.foldl (fun c e =>
      c.setQueue e.1 (c.queue e.1 ++ (List.range e.2).map (fun j => QSlot.mk (pushTag id j) none))) c).twinSlot = c.twinSlot := by
    intro l; induction l with
    | nil => exact fun _ => rfl
    | cons e r ih => exact fun c => (ih _).trans (by simp)
  exact (pushes _ _).trans (pops _ _)
@[simp] theorem Course.moveQueues_wasReset (c : Course) (io : QueueUse) (id : Nat) : (c.moveQueues io id).wasReset = c.wasReset := by
  have pops : ∀ (l : List (Nat × Nat)) (c : Course),
      (l.foldl (fun c e => c.setQueue e.1 ((c.queue e.1).drop e.2)) c).wasReset = c.wasReset := by
    intro l; induction l with
    | nil => exact fun _ => rfl
    | cons e r ih => exact fun c => (ih _).trans (by simp)
  have pushes : ∀ (l : List (Nat × Nat)) (c : Course), (l.foldl (fun c e =>
      c.setQueue e.1 (c.queue e.1 ++ (List.range e.2).map (fun j => QSlot.mk (pushTag id j) none))) c).wasReset = c.wasReset := by
    intro l; induction l with
    | nil => exact fun _ => rfl
    | cons e r ih => exact fun c => (ih _).trans (by simp)
  exact (pushes _ _).trans (pops _ _)
@[simp] theorem Course.moveQueues_damaged (c : Course) (io : QueueUse) (id : Nat) : (c.moveQueues io id).damaged = c.damaged := by
  have pops : ∀ (l : List (Nat × Nat)) (c : Course),
      (l.foldl (fun c e => c.setQueue e.1 ((c.queue e.1).drop e.2)) c).damaged = c.damaged := by
    intro l; induction l with
    | nil => exact fun _ => rfl
    | cons e r ih => exact fun c => (ih _).trans (by simp)
  have pushes : ∀ (l : List (Nat × Nat)) (c : Course), (l.foldl (fun c e =>
      c.setQueue e.1 (c.queue e.1 ++ (List.range e.2).map (fun j => QSlot.mk (pushTag id j) none))) c).damaged = c.damaged := by
    intro l; induction l with
    | nil => exact fun _ => rfl
    | cons e r ih => exact fun c => (ih _).trans (by simp)
  exact (pushes _ _).trans (pops _ _)
@[simp] theorem Course.moveQueues_twinOut (c : Course) (io : QueueUse) (id : Nat) : (c.moveQueues io id).twinOut = c.twinOut := by
  have pops : ∀ (l : List (Nat × Nat)) (c : Course),
      (l.foldl (fun c e => c.setQueue e.1 ((c.queue e.1).drop e.2)) c).twinOut = c.twinOut := by
    intro l; induction l with
    | nil => exact fun _ => rfl
    | cons e r ih => exact fun c => (ih _).trans (by simp)
  have pushes : ∀ (l : List (Nat × Nat)) (c : Course), (l.foldl (fun c e =>
      c.setQueue e.1 (c.queue e.1 ++ (List.range e.2).map (fun j => QSlot.mk (pushTag id j) none))) c).twinOut = c.twinOut := by
    intro l; induction l with
    | nil => exact fun _ => rfl
    | cons e r ih => exact fun c => (ih _).trans (by simp)
  exact (pushes _ _).trans (pops _ _)
@[simp] theorem Course.moveQueues_pairA (c : Course) (io : QueueUse) (id : Nat) : (c.moveQueues io id).pairA = c.pairA := by
  have pops : ∀ (l : List (Nat × Nat)) (c : Course),
      (l.foldl (fun c e => c.setQueue e.1 ((c.queue e.1).drop e.2)) c).pairA = c.pairA := by
    intro l; induction l with
    | nil => exact fun _ => rfl
    | cons e r ih => exact fun c => (ih _).trans (by simp)
  have pushes : ∀ (l : List (Nat × Nat)) (c : Course), (l.foldl (fun c e =>
      c.setQueue e.1 (c.queue e.1 ++ (List.range e.2).map (fun j => QSlot.mk (pushTag id j) none))) c).pairA = c.pairA := by
    intro l; induction l with
    | nil => exact fun _ => rfl
    | cons e r ih => exact fun c => (ih _).trans (by simp)
  exact (pushes _ _).trans (pops _ _)
@[simp] theorem Course.moveQueues_pairC (c : Course) (io : QueueUse) (id : Nat) : (c.moveQueues io id).pairC = c.pairC := by
  have pops : ∀ (l : List (Nat × Nat)) (c : Course),
      (l.foldl (fun c e => c.setQueue e.1 ((c.queue e.1).drop e.2)) c).pairC = c.pairC := by
    intro l; induction l with
    | nil => exact fun _ => rfl
    | cons e r ih => exact fun c => (ih _).trans (by simp)
  have pushes : ∀ (l : List (Nat × Nat)) (c : Course), (l.foldl (fun c e =>
      c.setQueue e.1 (c.queue e.1 ++ (List.range e.2).map (fun j => QSlot.mk (pushTag id j) none))) c).pairC = c.pairC := by
    intro l; induction l with
    | nil => exact fun _ => rfl
    | cons e r ih => exact fun c => (ih _).trans (by simp)
  exact (pushes _ _).trans (pops _ _)
@[simp] theorem Course.moveQueues_restA (c : Course) (io : QueueUse) (id : Nat) : (c.moveQueues io id).restA = c.restA := by
  have pops : ∀ (l : List (Nat × Nat)) (c : Course),
      (l.foldl (fun c e => c.setQueue e.1 ((c.queue e.1).drop e.2)) c).restA = c.restA := by
    intro l; induction l with
    | nil => exact fun _ => rfl
    | cons e r ih => exact fun c => (ih _).trans (by simp)
  have pushes : ∀ (l : List (Nat × Nat)) (c : Course), (l.foldl (fun c e =>
      c.setQueue e.1 (c.queue e.1 ++ (List.range e.2).map (fun j => QSlot.mk (pushTag id j) none))) c).restA = c.restA := by
    intro l; induction l with
    | nil => exact fun _ => rfl
    | cons e r ih => exact fun c => (ih _).trans (by simp)
  exact (pushes _ _).trans (pops _ _)
@[simp] theorem Course.moveQueues_restC (c : Course) (io : QueueUse) (id : Nat) : (c.moveQueues io id).restC = c.restC := by
  have pops : ∀ (l : List (Nat × Nat)) (c : Course),
      (l.foldl (fun c e => c.setQueue e.1 ((c.queue e.1).drop e.2)) c).restC = c.restC := by
    intro l; induction l with
    | nil => exact fun _ => rfl
    | cons e r ih => exact fun c => (ih _).trans (by simp)
  have pushes : ∀ (l : List (Nat × Nat)) (c : Course), (l.foldl (fun c e =>
      c.setQueue e.1 (c.queue e.1 ++ (List.range e.2).map (fun j => QSlot.mk (pushTag id j) none))) c).restC = c.restC := by
    intro l; induction l with
    | nil => exact fun _ => rfl
    | cons e r ih => exact fun c => (ih _).trans (by simp)
  exact (pushes _ _).trans (pops _ _)
@[simp] theorem Course.moveQueues_sys (c : Course) (io : QueueUse) (id : Nat) : (c.moveQueues io id).sys = c.sys := by
  have pops : ∀ (l : List (Nat × Nat)) (c : Course),
      (l.foldl (fun c e => c.setQueue e.1 ((c.queue e.1).drop e.2)) c).sys = c.sys := by
    intro l; induction l with
    | nil => exact fun _ => rfl
    | cons e r ih => exact fun c => (ih _).trans (by simp)
  have pushes : ∀ (l : List (Nat × Nat)) (c : Course), (l.foldl (fun c e =>
      c.setQueue e.1 (c.queue e.1 ++ (List.range e.2).map (fun j => QSlot.mk (pushTag id j) none))) c).sys = c.sys := by
    intro l; induction l with
    | nil => exact fun _ => rfl
    | cons e r ih => exact fun c => (ih _).trans (by simp)
  exact (pushes _ _).trans (pops _ _)

theorem Course.moveQueues_none (c : Course) (id : Nat) : c.moveQueues {} id = c := rfl

@[simp] theorem Course.issued_ident (c : Course) (st : Stream) (sig : Option Nat) (io : QueueUse) (p : Plan) (id cycle : Nat) :
    (c.issued st sig io p id cycle).ident = c.ident := by
  cases st <;> cases sig <;> simp [Course.issued]
@[simp] theorem Course.issued_lid (c : Course) (st : Stream) (sig : Option Nat) (io : QueueUse) (p : Plan) (id cycle : Nat) :
    (c.issued st sig io p id cycle).lid = c.lid := by
  cases st <;> cases sig <;> simp [Course.issued]
@[simp] theorem Course.issued_cid (c : Course) (st : Stream) (sig : Option Nat) (io : QueueUse) (p : Plan) (id cycle : Nat) :
    (c.issued st sig io p id cycle).cid = c.cid := by
  cases st <;> cases sig <;> simp [Course.issued]
@[simp] theorem Course.issued_nid (c : Course) (st : Stream) (sig : Option Nat) (io : QueueUse) (p : Plan) (id cycle : Nat) :
    (c.issued st sig io p id cycle).nid = c.nid := by
  cases st <;> cases sig <;> simp [Course.issued]
@[simp] theorem Course.issued_gcnt (c : Course) (st : Stream) (sig : Option Nat) (io : QueueUse) (p : Plan) (id cycle : Nat) :
    (c.issued st sig io p id cycle).gcnt = c.gcnt := by
  cases st <;> cases sig <;> simp [Course.issued]
@[simp] theorem Course.issued_nthr (c : Course) (st : Stream) (sig : Option Nat) (io : QueueUse) (p : Plan) (id cycle : Nat) :
    (c.issued st sig io p id cycle).nthr = c.nthr := by
  cases st <;> cases sig <;> simp [Course.issued]
@[simp] theorem Course.issued_vcnt (c : Course) (st : Stream) (sig : Option Nat) (io : QueueUse) (p : Plan) (id cycle : Nat) :
    (c.issued st sig io p id cycle).vcnt = c.vcnt := by
  cases st <;> cases sig <;> simp [Course.issued]
@[simp] theorem Course.issued_qcnt (c : Course) (st : Stream) (sig : Option Nat) (io : QueueUse) (p : Plan) (id cycle : Nat) :
    (c.issued st sig io p id cycle).qcnt = c.qcnt := by
  cases st <;> cases sig <;> simp [Course.issued]
@[simp] theorem Course.issued_asid (c : Course) (st : Stream) (sig : Option Nat) (io : QueueUse) (p : Plan) (id cycle : Nat) :
    (c.issued st sig io p id cycle).asid = c.asid := by
  cases st <;> cases sig <;> simp [Course.issued]
@[simp] theorem Course.issued_launch (c : Course) (st : Stream) (sig : Option Nat) (io : QueueUse) (p : Plan) (id cycle : Nat) :
    (c.issued st sig io p id cycle).launch = c.launch := by
  cases st <;> cases sig <;> simp [Course.issued]
@[simp] theorem Course.issued_resident (c : Course) (st : Stream) (sig : Option Nat) (io : QueueUse) (p : Plan) (id cycle : Nat) :
    (c.issued st sig io p id cycle).resident = c.resident := by
  cases st <;> cases sig <;> simp [Course.issued]
@[simp] theorem Course.issued_wall (c : Course) (st : Stream) (sig : Option Nat) (io : QueueUse) (p : Plan) (id cycle : Nat) :
    (c.issued st sig io p id cycle).wall = c.wall := by
  cases st <;> cases sig <;> simp [Course.issued]
@[simp] theorem Course.issued_plane (c : Course) (st : Stream) (sig : Option Nat) (io : QueueUse) (p : Plan) (id cycle : Nat) :
    (c.issued st sig io p id cycle).plane = c.plane := by
  cases st <;> cases sig <;> simp [Course.issued]
@[simp] theorem Course.issued_slot (c : Course) (st : Stream) (sig : Option Nat) (io : QueueUse) (p : Plan) (id cycle : Nat) :
    (c.issued st sig io p id cycle).slot = c.slot := by
  cases st <;> cases sig <;> simp [Course.issued]
@[simp] theorem Course.issued_lset (c : Course) (st : Stream) (sig : Option Nat) (io : QueueUse) (p : Plan) (id cycle : Nat) :
    (c.issued st sig io p id cycle).lset = c.lset := by
  cases st <;> cases sig <;> simp [Course.issued]
@[simp] theorem Course.issued_unified (c : Course) (st : Stream) (sig : Option Nat) (io : QueueUse) (p : Plan) (id cycle : Nat) :
    (c.issued st sig io p id cycle).unified = c.unified := by
  cases st <;> cases sig <;> simp [Course.issued]
@[simp] theorem Course.issued_w6 (c : Course) (st : Stream) (sig : Option Nat) (io : QueueUse) (p : Plan) (id cycle : Nat) :
    (c.issued st sig io p id cycle).w6 = c.w6 := by
  cases st <;> cases sig <;> simp [Course.issued]
@[simp] theorem Course.issued_endA (c : Course) (st : Stream) (sig : Option Nat) (io : QueueUse) (p : Plan) (id cycle : Nat) :
    (c.issued st sig io p id cycle).endA = c.endA := by
  cases st <;> cases sig <;> simp [Course.issued]
@[simp] theorem Course.issued_endC (c : Course) (st : Stream) (sig : Option Nat) (io : QueueUse) (p : Plan) (id cycle : Nat) :
    (c.issued st sig io p id cycle).endC = c.endC := by
  cases st <;> cases sig <;> simp [Course.issued]
@[simp] theorem Course.issued_trap (c : Course) (st : Stream) (sig : Option Nat) (io : QueueUse) (p : Plan) (id cycle : Nat) :
    (c.issued st sig io p id cycle).trap = c.trap := by
  cases st <;> cases sig <;> simp [Course.issued]
@[simp] theorem Course.issued_trapRec (c : Course) (st : Stream) (sig : Option Nat) (io : QueueUse) (p : Plan) (id cycle : Nat) :
    (c.issued st sig io p id cycle).trapRec = c.trapRec := by
  cases st <;> cases sig <;> simp [Course.issued]
@[simp] theorem Course.issued_halted (c : Course) (st : Stream) (sig : Option Nat) (io : QueueUse) (p : Plan) (id cycle : Nat) :
    (c.issued st sig io p id cycle).halted = c.halted := by
  cases st <;> cases sig <;> simp [Course.issued]
@[simp] theorem Course.issued_retired (c : Course) (st : Stream) (sig : Option Nat) (io : QueueUse) (p : Plan) (id cycle : Nat) :
    (c.issued st sig io p id cycle).retired = c.retired := by
  cases st <;> cases sig <;> simp [Course.issued]
@[simp] theorem Course.issued_moving (c : Course) (st : Stream) (sig : Option Nat) (io : QueueUse) (p : Plan) (id cycle : Nat) :
    (c.issued st sig io p id cycle).moving = c.moving := by
  cases st <;> cases sig <;> simp [Course.issued]
@[simp] theorem Course.issued_savedAt (c : Course) (st : Stream) (sig : Option Nat) (io : QueueUse) (p : Plan) (id cycle : Nat) :
    (c.issued st sig io p id cycle).savedAt = c.savedAt := by
  cases st <;> cases sig <;> simp [Course.issued]
@[simp] theorem Course.issued_hold (c : Course) (st : Stream) (sig : Option Nat) (io : QueueUse) (p : Plan) (id cycle : Nat) :
    (c.issued st sig io p id cycle).hold = c.hold := by
  cases st <;> cases sig <;> simp [Course.issued]
@[simp] theorem Course.issued_live (c : Course) (st : Stream) (sig : Option Nat) (io : QueueUse) (p : Plan) (id cycle : Nat) :
    (c.issued st sig io p id cycle).live = c.live := by
  cases st <;> cases sig <;> simp [Course.issued]
@[simp] theorem Course.issued_s (c : Course) (st : Stream) (sig : Option Nat) (io : QueueUse) (p : Plan) (id cycle : Nat) :
    (c.issued st sig io p id cycle).s = c.s := by
  cases st <;> cases sig <;> simp [Course.issued]
@[simp] theorem Course.issued_w (c : Course) (st : Stream) (sig : Option Nat) (io : QueueUse) (p : Plan) (id cycle : Nat) :
    (c.issued st sig io p id cycle).w = c.w := by
  cases st <;> cases sig <;> simp [Course.issued]
@[simp] theorem Course.issued_v (c : Course) (st : Stream) (sig : Option Nat) (io : QueueUse) (p : Plan) (id cycle : Nat) :
    (c.issued st sig io p id cycle).v = c.v := by
  cases st <;> cases sig <;> simp [Course.issued]
@[simp] theorem Course.issued_p (c : Course) (st : Stream) (sig : Option Nat) (io : QueueUse) (p : Plan) (id cycle : Nat) :
    (c.issued st sig io p id cycle).p = c.p := by
  cases st <;> cases sig <;> simp [Course.issued]
@[simp] theorem Course.issued_qe (c : Course) (st : Stream) (sig : Option Nat) (io : QueueUse) (p : Plan) (id cycle : Nat) :
    (c.issued st sig io p id cycle).qe = c.qe := by
  cases st <;> cases sig <;> simp [Course.issued]
@[simp] theorem Course.issued_qs (c : Course) (st : Stream) (sig : Option Nat) (io : QueueUse) (p : Plan) (id cycle : Nat) :
    (c.issued st sig io p id cycle).qs = c.qs := by
  cases st <;> cases sig <;> simp [Course.issued]
@[simp] theorem Course.issued_b (c : Course) (st : Stream) (sig : Option Nat) (io : QueueUse) (p : Plan) (id cycle : Nat) :
    (c.issued st sig io p id cycle).b = c.b := by
  cases st <;> cases sig <;> simp [Course.issued]
@[simp] theorem Course.issued_gang (c : Course) (st : Stream) (sig : Option Nat) (io : QueueUse) (p : Plan) (id cycle : Nat) :
    (c.issued st sig io p id cycle).gang = c.gang := by
  cases st <;> cases sig <;> simp [Course.issued]
@[simp] theorem Course.issued_recon (c : Course) (st : Stream) (sig : Option Nat) (io : QueueUse) (p : Plan) (id cycle : Nat) :
    (c.issued st sig io p id cycle).recon = c.recon := by
  cases st <;> cases sig <;> simp [Course.issued]
@[simp] theorem Course.issued_meld (c : Course) (st : Stream) (sig : Option Nat) (io : QueueUse) (p : Plan) (id cycle : Nat) :
    (c.issued st sig io p id cycle).meld = c.meld := by
  cases st <;> cases sig <;> simp [Course.issued]
@[simp] theorem Course.issued_fslots (c : Course) (st : Stream) (sig : Option Nat) (io : QueueUse) (p : Plan) (id cycle : Nat) :
    (c.issued st sig io p id cycle).fslots = c.fslots := by
  cases st <;> cases sig <;> simp [Course.issued]
@[simp] theorem Course.issued_recs (c : Course) (st : Stream) (sig : Option Nat) (io : QueueUse) (p : Plan) (id cycle : Nat) :
    (c.issued st sig io p id cycle).recs = c.recs := by
  cases st <;> cases sig <;> simp [Course.issued]
@[simp] theorem Course.issued_latch (c : Course) (st : Stream) (sig : Option Nat) (io : QueueUse) (p : Plan) (id cycle : Nat) :
    (c.issued st sig io p id cycle).latch = c.latch := by
  cases st <;> cases sig <;> simp [Course.issued]
@[simp] theorem Course.issued_event (c : Course) (st : Stream) (sig : Option Nat) (io : QueueUse) (p : Plan) (id cycle : Nat) :
    (c.issued st sig io p id cycle).event = c.event := by
  cases st <;> cases sig <;> simp [Course.issued]
@[simp] theorem Course.issued_sync (c : Course) (st : Stream) (sig : Option Nat) (io : QueueUse) (p : Plan) (id cycle : Nat) :
    (c.issued st sig io p id cycle).sync = c.sync := by
  cases st <;> cases sig <;> simp [Course.issued]
@[simp] theorem Course.issued_relFences (c : Course) (st : Stream) (sig : Option Nat) (io : QueueUse) (p : Plan) (id cycle : Nat) :
    (c.issued st sig io p id cycle).relFences = c.relFences := by
  cases st <;> cases sig <;> simp [Course.issued]
@[simp] theorem Course.issued_relSeen (c : Course) (st : Stream) (sig : Option Nat) (io : QueueUse) (p : Plan) (id cycle : Nat) :
    (c.issued st sig io p id cycle).relSeen = c.relSeen := by
  cases st <;> cases sig <;> simp [Course.issued]
@[simp] theorem Course.issued_epochs (c : Course) (st : Stream) (sig : Option Nat) (io : QueueUse) (p : Plan) (id cycle : Nat) :
    (c.issued st sig io p id cycle).epochs = c.epochs := by
  cases st <;> cases sig <;> simp [Course.issued]
@[simp] theorem Course.issued_atoms (c : Course) (st : Stream) (sig : Option Nat) (io : QueueUse) (p : Plan) (id cycle : Nat) :
    (c.issued st sig io p id cycle).atoms = c.atoms := by
  cases st <;> cases sig <;> simp [Course.issued]
@[simp] theorem Course.issued_promises (c : Course) (st : Stream) (sig : Option Nat) (io : QueueUse) (p : Plan) (id cycle : Nat) :
    (c.issued st sig io p id cycle).promises = c.promises := by
  cases st <;> cases sig <;> simp [Course.issued]
@[simp] theorem Course.issued_held (c : Course) (st : Stream) (sig : Option Nat) (io : QueueUse) (p : Plan) (id cycle : Nat) :
    (c.issued st sig io p id cycle).held = c.held := by
  cases st <;> cases sig <;> simp [Course.issued]
@[simp] theorem Course.issued_depths (c : Course) (st : Stream) (sig : Option Nat) (io : QueueUse) (p : Plan) (id cycle : Nat) :
    (c.issued st sig io p id cycle).depths = c.depths := by
  cases st <;> cases sig <;> simp [Course.issued]
@[simp] theorem Course.issued_icacheA (c : Course) (st : Stream) (sig : Option Nat) (io : QueueUse) (p : Plan) (id cycle : Nat) :
    (c.issued st sig io p id cycle).icacheA = c.icacheA := by
  cases st <;> cases sig <;> simp [Course.issued]
@[simp] theorem Course.issued_icacheC (c : Course) (st : Stream) (sig : Option Nat) (io : QueueUse) (p : Plan) (id cycle : Nat) :
    (c.issued st sig io p id cycle).icacheC = c.icacheC := by
  cases st <;> cases sig <;> simp [Course.issued]
@[simp] theorem Course.issued_copyRels (c : Course) (st : Stream) (sig : Option Nat) (io : QueueUse) (p : Plan) (id cycle : Nat) :
    (c.issued st sig io p id cycle).copyRels = c.copyRels := by
  cases st <;> cases sig <;> simp [Course.issued]
@[simp] theorem Course.issued_cancelled (c : Course) (st : Stream) (sig : Option Nat) (io : QueueUse) (p : Plan) (id cycle : Nat) :
    (c.issued st sig io p id cycle).cancelled = c.cancelled := by
  cases st <;> cases sig <;> simp [Course.issued]
@[simp] theorem Course.issued_twin (c : Course) (st : Stream) (sig : Option Nat) (io : QueueUse) (p : Plan) (id cycle : Nat) :
    (c.issued st sig io p id cycle).twin = c.twin := by
  cases st <;> cases sig <;> simp [Course.issued]
@[simp] theorem Course.issued_twinSet (c : Course) (st : Stream) (sig : Option Nat) (io : QueueUse) (p : Plan) (id cycle : Nat) :
    (c.issued st sig io p id cycle).twinSet = c.twinSet := by
  cases st <;> cases sig <;> simp [Course.issued]
@[simp] theorem Course.issued_twinSlot (c : Course) (st : Stream) (sig : Option Nat) (io : QueueUse) (p : Plan) (id cycle : Nat) :
    (c.issued st sig io p id cycle).twinSlot = c.twinSlot := by
  cases st <;> cases sig <;> simp [Course.issued]
@[simp] theorem Course.issued_wasReset (c : Course) (st : Stream) (sig : Option Nat) (io : QueueUse) (p : Plan) (id cycle : Nat) :
    (c.issued st sig io p id cycle).wasReset = c.wasReset := by
  cases st <;> cases sig <;> simp [Course.issued]
@[simp] theorem Course.issued_damaged (c : Course) (st : Stream) (sig : Option Nat) (io : QueueUse) (p : Plan) (id cycle : Nat) :
    (c.issued st sig io p id cycle).damaged = c.damaged := by
  cases st <;> cases sig <;> simp [Course.issued]
@[simp] theorem Course.issued_twinOut (c : Course) (st : Stream) (sig : Option Nat) (io : QueueUse) (p : Plan) (id cycle : Nat) :
    (c.issued st sig io p id cycle).twinOut = c.twinOut := by
  cases st <;> cases sig <;> simp [Course.issued]
@[simp] theorem Course.issued_pairA (c : Course) (st : Stream) (sig : Option Nat) (io : QueueUse) (p : Plan) (id cycle : Nat) :
    (c.issued st sig io p id cycle).pairA = c.pairA := by
  cases st <;> cases sig <;> simp [Course.issued]
@[simp] theorem Course.issued_pairC (c : Course) (st : Stream) (sig : Option Nat) (io : QueueUse) (p : Plan) (id cycle : Nat) :
    (c.issued st sig io p id cycle).pairC = c.pairC := by
  cases st <;> cases sig <;> simp [Course.issued]
@[simp] theorem Course.issued_restA (c : Course) (st : Stream) (sig : Option Nat) (io : QueueUse) (p : Plan) (id cycle : Nat) :
    (c.issued st sig io p id cycle).restA = c.restA := by
  cases st <;> cases sig <;> simp [Course.issued]
@[simp] theorem Course.issued_restC (c : Course) (st : Stream) (sig : Option Nat) (io : QueueUse) (p : Plan) (id cycle : Nat) :
    (c.issued st sig io p id cycle).restC = c.restC := by
  cases st <;> cases sig <;> simp [Course.issued]
@[simp] theorem Course.issued_sys (c : Course) (st : Stream) (sig : Option Nat) (io : QueueUse) (p : Plan) (id cycle : Nat) :
    (c.issued st sig io p id cycle).sys = c.sys := by
  cases st <;> cases sig <;> simp [Course.issued]

@[simp] theorem Course.issued_die (c : Course) (st : Stream) (sig : Option Nat) (io : QueueUse) (p : Plan) (id cycle : Nat) :
    (c.issued st sig io p id cycle).die = c.die := by
  simp [Course.die]

/-- An issue takes no time. -/
@[simp] theorem State.issued_cycle (s : State) (st : Stream) (sig : Option Nat) (io : QueueUse) (p : Plan) :
    (s.issued st sig io p).cycle = s.cycle := by
  simp [State.cycle, State.cycleOf, State.die, State.issued_cur]

/-- The work that an issue adds. -/
theorem Course.issued_work (c : Course) (st : Stream) (sig : Option Nat) (io : QueueUse) (p : Plan) (id cycle : Nat) :
    (c.issued st sig io p id cycle).work = c.work ++ p.work id cycle st sig := by
  cases st <;> cases sig <;> simp [Course.issued]

/-- Where the stream goes on. -/
theorem Course.issued_pc (c : Course) (st : Stream) (sig : Option Nat) (io : QueueUse) (p : Plan) (id cycle : Nat) :
    (c.issued st sig io p id cycle).pc st = p.target.getD (c.nextPc st) := by
  cases st <;> cases sig <;> simp [Course.issued, Course.nextPc, Course.pc, Course.setPc, Course.wordBytes]

/-! The cases of issue. -/

section
variable {s : State} {aFormat : Bool} {k : Ctl} {io : QueueUse} {pre : Option Code} {body : State → Res}

/-- Until conditions 1 to 3 of R33 hold, the state stands. -/
theorem State.issue_not_ready (h : s.frontReady (s.cur.streamOf aFormat) k.dist.toNat = false) : s.issue aFormat k io pre body = s := by
  simp [State.issue, h]

/-- A check of R183 that fails raises its trap before the flags and queues are looked at. -/
theorem State.issue_pre (h : s.frontReady (s.cur.streamOf aFormat) k.dist.toNat = true) (code : Code) :
    s.issue aFormat k io (some code) body = s.trapAt (s.cur.streamOf aFormat) { code := code } := by
  simp [State.issue, h]

/-- A flag that `WAIT` names and that is not zero keeps the instruction from issuing. -/
theorem State.issue_waits (h : s.cur.flagsClear k.wait = false) : s.issue aFormat k io none body = s := by
  unfold State.issue
  dsimp only
  split
  · rfl
  · simp [h]

theorem State.waited_quiet (h : s.Quiet k) : s.waited k.wait = s := by
  unfold State.waited
  unfold State.Quiet at h
  simp [h]

/-- An instruction that issues does what its own part says. -/
theorem State.issue_issues (h : s.Issues aFormat k io) (hq : s.Quiet k) :
    s.issue aFormat k io none body = (match body s with
      | .wait s' => s'
      | .trap s' t => s'.trapAt (s.cur.streamOf aFormat) t
      | .done s' p => s'.issued (s.cur.streamOf aFormat) (sigFlag k) io p) := by
  obtain ⟨h1, h2, h3, h4, h5, h6⟩ := h
  unfold State.issue
  dsimp only
  rw [State.waited_quiet hq]
  simp only [h1, h2, h3, h4, h5, h6]
  rfl

end

end Sys2Proof.Machine
end

