-- ==== Sys2Proof/Laws/Stores.lean ====
section
/-! SUPPORT. What the shared operations around a store may change: poison, race tags, client memory that hosts wrote, second members of pairs, and
that they leave the rest. -/

namespace Sys2Proof.Machine

/-! Poison and tags: no byte changes. -/

@[simp] theorem State.cleanse_mem (s : State) (ps : List Place) : (s.cleanse ps).mem = s.mem := by
  unfold State.cleanse; split <;> rfl

@[simp] theorem State.cleanseRange_mem (s : State) (a n : Nat) : (s.cleanseRange a n).mem = s.mem := by
  unfold State.cleanseRange; split <;> rfl

@[simp] theorem State.cleanseRange_cur (s : State) (a n : Nat) : (s.cleanseRange a n).cur = s.cur := by
  unfold State.cleanseRange; split <;> rfl

@[simp] theorem State.spreadPoison_mem (s : State) (bay n : Nat) (ns : List Nat) : (s.spreadPoison bay n ns).mem = s.mem := by
  unfold State.spreadPoison; split <;> rfl

@[simp] theorem State.clearTags_mem (s : State) (a n : Nat) : (s.clearTags a n).mem = s.mem := rfl

@[simp] theorem State.clearTags_cur (s : State) (a n : Nat) : (s.clearTags a n).cur = s.cur := rfl

/-- R366: a cleansed range leaves poison only in sectors that it does not fill. -/
theorem State.cleanseRange_poison {s : State} {a n : Nat} {e : Nat × Bool} (h : e ∈ (s.cleanseRange a n).poison) :
    e ∈ s.poison ∧ ¬ (a ≤ 32 * e.1 ∧ 32 * e.1 + 32 ≤ a + n) := by
  unfold State.cleanseRange at h
  split at h
  · next hp => rw [hp] at h; cases h
  · simp only [List.mem_filter, Bool.not_eq_true', Bool.and_eq_false_iff, decide_eq_false_iff_not] at h
    exact ⟨h.1, fun ⟨x, y⟩ => h.2.elim (· x) (· y)⟩

/-! A store by a unit of the device. -/

theorem State.unitStore_mem (s : State) (a : Nat) (bs : List Byte) : (s.unitStore a bs).mem = (s.store a bs).mem := by
  simp [State.unitStore, State.store]

@[simp] theorem State.unitStore_cur (s : State) (a : Nat) (bs : List Byte) : (s.unitStore a bs).cur = s.cur := by
  simp [State.unitStore, State.store]

theorem State.wf_unitStore {s : State} (h : Memory.wf s.mem = true) (a : Nat) (bs : List Byte) : Memory.wf (s.unitStore a bs).mem = true := by
  rw [State.unitStore_mem]; exact State.wf_store h a bs

/-- A byte outside those that a unit stores stands. -/
theorem State.byte_unitStore_outside (s : State) (a : Nat) (bs : List Byte) {x : Nat} (h : x < a ∨ a + bs.length ≤ x) :
    (s.unitStore a bs).byte x = s.byte x := by
  have : (s.unitStore a bs).byte x = (s.store a bs).byte x := by simp [State.byte, State.unitStore_mem]
  rw [this, State.byte_store_outside s a bs h]

/-! Client memory that a host wrote. -/

@[simp] theorem State.pastHost_mem (s : State) (a n : Nat) : (s.pastHost a n).mem = s.mem := by
  unfold State.pastHost; split <;> rfl

@[simp] theorem State.pastHost_cur (s : State) (a n : Nat) : (s.pastHost a n).cur = s.cur := by
  unfold State.pastHost; split <;> rfl

theorem State.pastHost_none {s : State} (h : s.hostMem = []) (a n : Nat) : s.pastHost a n = s := by
  simp [State.pastHost, h]

/-- R307: what is still held back after a store was so before, and lies outside the stored bytes or in a sector that some slice holds newer. -/
theorem State.mem_pastHost {s : State} {a n : Nat} {c : Host.Cell} (h : c ∈ (s.pastHost a n).hostMem) :
    c ∈ s.hostMem ∧ (¬ (a ≤ c.1 ∧ c.1 < a + n) ∨ s.dirtyAnywhere (c.1 / 32) = true) := by
  unfold State.pastHost at h
  split at h
  · next hp => rw [hp] at h; cases h
  · simp only [List.mem_filter, Bool.or_eq_true, Bool.not_eq_true', Bool.and_eq_false_iff, decide_eq_false_iff_not] at h
    exact ⟨h.1, h.2.imp (fun o ⟨x, y⟩ => o.elim (· x) (· y)) id⟩

/-! Banks that are off. -/

theorem State.wf_dropGated {s : State} (h : Memory.wf s.mem = true) (w p : Nat) (banks : DWord) : Memory.wf (s.dropGated w p banks).mem = true := by
  unfold State.dropGated
  split
  · exact h
  · exact Memory.wf_filter h _

@[simp] theorem State.dropGated_cur (s : State) (w p : Nat) (banks : DWord) : (s.dropGated w p banks).cur = s.cur := by
  unfold State.dropGated; split <;> rfl

/-! Redundant pairs. -/

@[simp] theorem State.unseatTwins_mem (s : State) (w p : Nat) : (s.unseatTwins w p).mem = s.mem := rfl

/-- Outside a pair an issue stands as it is. -/
theorem State.pairOrIssue_single {s : State} (h : s.cur.twin = none) (g : State) (st : Stream) (i : Instr) : s.pairOrIssue g st i = g := by
  simp [State.pairOrIssue, State.awaitsPair, h]

/-- R387: what a word of a pair comes to: the wait for the other member, or the issue, with the comparison of its stream done. -/
theorem State.pairOrIssue_cases (s g : State) (st : Stream) (i : Instr) :
    (s.pairOrIssue g st i = s.pairIssue st i ∧ (s.cur.pair st).matched = false ∧ external i = true) ∨
      s.pairOrIssue g st i = g.modC (fun c => c.unpaired st) ∨ (s.pairOrIssue g st i = g ∧ s.cur.twin = none) := by
  unfold State.pairOrIssue
  split
  · next h =>
    simp only [State.awaitsPair, Bool.and_eq_true, Bool.not_eq_true'] at h
    exact .inl ⟨rfl, h.2, h.1.1.2⟩
  · split
    · exact .inr (.inl rfl)
    · next h => exact .inr (.inr ⟨rfl, by simpa using h⟩)

@[simp] theorem State.pairIssue_mem (s : State) (st : Stream) (i : Instr) : (s.pairIssue st i).mem = s.mem := rfl

@[simp] theorem State.pairIssue_pair (s : State) (st : Stream) (i : Instr) :
    (s.pairIssue st i).cur.pair st = { s.cur.pair st with since := some s.now, issue := some (s.issueOf i) } := by
  cases st <;> rfl

/-- R387: once the members' issues have matched, the comparison changes nothing else. -/
theorem State.compared_match {s f : State} {st : Stream} {i : Instr} (hw : s.nextWord st = (.instr i, f))
    (h : (s.cur.pair st).issue = some (f.issueOf i)) :
    s.compared st true = s.modC (fun c => c.setPair st { s.cur.pair st with matched := true }) := by
  simp [State.compared, hw, h]

/-- No storage is damaged, so none is read. -/
theorem State.readsDamaged_none {f : State} (h : f.cur.damaged = []) (g : State) (i : Instr) : f.readsDamaged g i = false := by
  simp [State.readsDamaged, h]

end Sys2Proof.Machine
end

