-- ==== Sys2Proof/Tests/Slice0.lean ====
section
/-! SUPPORT. Tests: ill-formed terms that the checks refuse, words written out from the layouts of the spec, witnesses of the hypotheses of
the statements, and single steps on small states. Every expected result is worked out by hand from the rule that the test names. -/

open Sys2Proof Sys2Proof.Machine

set_option maxRecDepth 100000

namespace Sys2Proof.Slice0

/-! Small states. -/

/-- Control fields: wait for nothing, no distance. -/
def k : Ctl := ⟨0, 0, 15⟩

/-- A device with this agent, on wall 0 in the Active plane 0, at a cycle. -/
def dev (c : Course) (cycle : Nat := 10) : State :=
  { State.reset with cur := c, dies := [(0, { Die.zero with cycle := cycle })], planes := [(0, { Plane.zero with st := .active, asid := some 0 })] }

/-- A course of three threads, of which 0 and 2 are live, with some register values. -/
def c0 : Course :=
  { Course.blank with
    ident := 1, nthr := 3, live := 5, w := [(3, 6), (29, 5)], resident := true, pcA := 0x1000, pcC := 0x2000
    s := [(1, 0xFFFFFFFF#32), (2, 2), (4, 0xFFFFFFFF#32), (5, 0), (6, 1), (8, 0xFFFFFFF9#32), (9, 33)]
    v := [(192, 5), (193, 99), (194, 0xFFFFFFFE#32), (288, 3), (290, 40), (384, 0x3F800000#32), (386, 0x40800000#32),
      (480, 0x40000000#32), (482, 0x40000000#32)]
    p := [(1, 1), (2, 4)] }

/-- A system core at a level. -/
def core (lvl : BitVec 2) (ie : Bool := false) : Course :=
  { Course.blank with
    ident := 7, endC := true, pcA := 0x1000, s := [(1, 0xFFFFFFFF#32), (2, 2), (4, 6), (8, 0x4000), (10, 1)]
    sys := some { core := 0, lvl := lvl, ie := ie, asidr := 0, sup := { TrapSet.zero with vbase := 0x8000 },
                  hyp := { TrapSet.zero with vbase := 0x9000 }, evpend := 2, even := 6 } }

/-- The bits of a `Ready`. -/
def readyB (s : State) (a : Bool) (k : Ctl) (io : QueueUse) : Bool :=
  s.frontReady (s.cur.streamOf a) k.dist.toNat && s.cur.flagsClear k.wait && !s.cur.cancelled.any (fun f => k.wait.getLsbD f) &&
  (s.cur.starved io).isNone && s.cur.queuesReady io && !s.cur.flagFull (sigFlag k) &&
  (s.cur.copyRels.filter (fun e => k.wait.getLsbD e.1)).isEmpty

theorem ready_of {s : State} {a : Bool} {k : Ctl} {io : QueueUse} (h : readyB s a k io = true) : s.Ready a k io := by
  simp only [readyB, Bool.and_eq_true, Bool.not_eq_true', Option.isNone_iff_eq_none, List.isEmpty_iff] at h
  exact ⟨⟨h.1.1.1.1.1.1, h.1.1.1.1.1.2, h.1.1.1.1.2, h.1.1.1.2, h.1.1.2, h.1.2⟩, h.2⟩

/-- The bits of a `ReadyC`. -/
def readyCB (s : State) (faces : Option Mask → BitVec 2 → Bool) (extra : Bool) (i : Instr) : Bool :=
  match i.cview, i.shape with
  | some v, some sh => (courseChecks faces sh v extra s.cur).isNone && readyB s false v.h.k (portUse sh v)
  | _, _ => false

theorem readyC_of {s : State} {faces : Option Mask → BitVec 2 → Bool} {extra : Bool} {i : Instr}
    (h : readyCB s faces extra i = true) : ∃ v, s.ReadyC faces extra i v := by
  unfold readyCB at h
  split at h
  · next v sh hv hs =>
    simp only [Bool.and_eq_true, Option.isNone_iff_eq_none] at h
    exact ⟨v, hv, sh, hs, h.1, ready_of h.2⟩
  · exact absurd h Bool.false_ne_true

/-- The next state of an outcome. -/
def after (o : Host.Outcome State Fault Refusal) : Option State := match o with | .next t => some t | _ => none

/-- Something of the state after an instruction. -/
def sees {α : Type} (i : Instr) (s : State) (f : State → α) : Option α := (after (exec i s)).map f

/-- The register writes in flight after an instruction, each with the cycle it commits in. -/
def writesOf (i : Instr) (s : State) : Option (List (List RegWrite × Option Nat)) :=
  sees i s (fun t => t.cur.work.map (fun w => (w.writes, w.due)))

/-- The code of the trap an instruction leaves open. -/
def trapOf (i : Instr) (s : State) : Option (Option Code) := sees i s (fun t => t.cur.trap.map (fun x => x.code))

/-- A compute header: type, guard and its negation, face. -/
def h (typ : BitVec 4 := 8) (grd : BitVec 3 := 0) (gneg : BitVec 1 := 0) (face : BitVec 2 := 0) (uni : BitVec 1 := 0) : CHdr :=
  ⟨k, face, uni, grd, gneg, 0, 0, typ⟩

/-- An operand set without modifiers. -/
def op (d s1 s2 s3 : BitVec 7) : OpSet := ⟨d, s1, s2, s3, 0, 0, 0, 0, 0, 0, 0, 0⟩

/-! Ill-formed terms (R183, R187, R189, R191, R202, R215, R233, R288). -/

theorem test_illformed_scalar :
    [Instr.addp k 1 2 4, .shlp k 2 3 1, .set k 1 2 3 11, .sel k 1 2 3 15, .shli k 1 2 64, .seti k 1 2 0xB00000, .movhi k 1 1 0,
      .movhi k 1 0 0x10000, .addpi k 3 2 0].map Instr.check =
    [some .zeroField, some .zeroField, some .reserved, some .reserved, some .reserved, some .reserved, some .zeroField,
      some .zeroField, some .zeroField] := by decide

theorem test_illformed_memory :
    [Instr.bind k 1 2 0 1 32, .bind k 1 2 1 1 16, .lea k 1 0 0 0, .lea k 2 0 1 4, .lea k 2 0 4 0, .ldu k 3 1 0 0 0, .stu k 3 5 0 0 0,
      .vld k 0 4 0 0 0 0 0, .vld k 0 0 0 0 0 3 0, .vst k 0 2 0 0 0 0 0, .vst k 0 0 0 0 1 0 0, .vldx k 0 4 0 0 0 0 0,
      .vstx k 0 0 0 31 0 0 0].map Instr.check =
    [some .zeroField, some .zeroField, some .zeroField, some .zeroField, some .reserved, some .zeroField, some .zeroField,
      some .reserved, some .reserved, some .reserved, some .reserved, some .reserved, some .reserved] := by decide

theorem test_illformed_atomics :
    [Instr.amo k 1 0 1 0 16 2, .amo k 2 0 1 0 11 1, .amo k 2 0 1 0 12 2, .amo k 2 0 0 0 0 2, .amo k 2 0 1 10 0 2, .amo k 2 0 1 0 13 2,
      .amo k 2 0 1 0 26 2, .cas k 2 0 1 0 1 2, .cas k 2 0 5 0 0 2, .vamo k 2 1 0 0 1 0 0, .vamo k 8 1 0 0 1 0 0, .vamo k 4 1 0 11 1 0 0,
      .vamo k 4 1 0 0 1 0 1, .vcas k 4 1 0 1 1 0 0, .vcas k 4 1 0 0 1 0 1, .fence k 1 0, .fence k 2 10].map Instr.check =
    [some .zeroField, some .zeroField, some .zeroField, some .reserved, some .reserved, some .reserved, some .reserved, some .zeroField,
      some .reserved, some .zeroField, some .zeroField, some .reserved, some .reserved, some .zeroField, some .reserved, some .reserved,
      some .reserved] := by decide

theorem test_illformed_control :
    [Instr.qpush k 4 1, .qpop k 1 2, .taglk k 1 3, .tagset k 1 2, .taginv k 3, .tagrd k 3 1, .bcnd k 11 1 0, .loop k 1 0 0, .loop k 12 1 0,
      .jmpr k 1 2, .jmpr k 2 1, .bar k 1 2 0 0, .bar k 1 2 0 7, .sleept k 3, .cpy k 3 1, .cpyg k 0 1, .shadow k 1 2 3 4 0, .publish k 1 10,
      .waygtBanks k 1 3 0, .moncUnknownService k 5].map Instr.check =
    [some .reserved, some .reserved, some .zeroField, some .zeroField, some .zeroField, some .zeroField, some .reserved, some .reserved,
      some .reserved, some .zeroField, some .zeroField, some .reserved, some .reserved, some .zeroField, some .zeroField, some .reserved,
      some .zeroField, some .reserved, some .zeroField, some .reserved] := by decide

theorem test_illformed_compute_fields :
    [Instr.cbr (h 0) (op 0 0 0 0) .none, .ccall (h 0 0 0 3) (op 0 0 0 0) (.setB (op 0 0 0 0)), .vclz (h) (op 1 2 0 0) (.imm 1),
      .vclz (h) (op 1 2 3 0) .none, .vclz (h 8 0 0 3) (op 1 2 0 0) (.setB (op 1 2 3 0)), .plop (h 8 0 0 0 1) (op 1 1 1 0) .none,
      .vadd { h with slot := 1 } (op 1 2 3 0) .none, .vadd { h with ro := 1 } (op 1 2 3 0) .none, .meld (h 0 1) (op 0 1 0 0) .none,
      .cnop (h 0 0 0 1) (op 0 0 0 0) .none, .ldpi (h 8 0 0 1) (op 1 2 4 0) (.imm 4), .scan (h) (op 1 2 0 16) .none].map Instr.check =
    List.replicate 12 (some .zeroField) := by decide

theorem test_illformed_compute_values :
    [Instr.vmovi (h) (op 1 0 0 0) .none, .vadd (h 0) (op 1 2 3 0) .none, .vadd (h) (op 120 2 3 0) .none, .vadd (h) (op 1 124 3 0) .none,
      .vadd (h 8 0 0 0 1) (op 32 2 3 0) .none, .fadd (h 0) { op 1 2 3 0 with clmp := 3 } .none, .qld (h 0) (op 1 2 30 7) .none,
      .qzero (h 0) (op 1 0 7 1) .none, .pto (h) (op 1 8 0 0) .none, .scan (h) (op 1 2 0 6) .none, .redux (h) (op 1 2 0 7) .none,
      .ballot (h) (op 30 1 0 0) .none, .ballot (h 8 0 0 3) (op 1 1 0 0) (.setB (op 3 1 0 0)),
      .redux (h 8 0 0 3) (op 1 2 0 0) (.setB (op 1 2 0 5)), .cloop (h 0) (op 0 29 0 0) (.off 0)].map Instr.check =
    List.replicate 15 (some .reserved) := by decide

/-- Programs: an input that no token reads, no program, too few operands, too many operators, a token after the end. -/
theorem test_illformed_expr :
    [Instr.expr (h 0) ⟨1, 2, 3, 4, 0, 0x0FFFFFFFFFF⟩, .expr (h 0) ⟨1, 0, 0, 0, 0, 0xFFFFFFFFFFF⟩, .expr (h 0) ⟨1, 2, 0, 0, 0, 0x04FFFFFFFFF⟩,
      .expr (h 0) ⟨1, 2, 0, 0, 0, 0x099999999FF⟩, .expr (h 0) ⟨1, 2, 0, 0, 0, 0x0F9FFFFFFFF⟩, .expr (h 2) ⟨1, 2, 0, 0, 0, 0x0FFFFFFFFFF⟩].map
      Instr.check =
    [some .zeroField, some .reserved, some .reserved, some .reserved, some .reserved, some .reserved] := by decide

theorem test_wellformed_neighbours :
    [Instr.addp k 2 2 4, .set k 1 2 3 10, .shli k 1 2 63, .vstx k 0 0 0 32 0 0 0, .bar k 1 2 0 6, .vadd (h) (op 119 123 3 0) .none,
      .qld (h 0) (op 1 2 30 6) .none, .expr (h 0) ⟨1, 2, 0, 0, 0, 0x09999999FFF⟩].map Instr.check = List.replicate 8 none := by decide

theorem test_reserved_signal : (⟨0, 0, 12⟩ : Ctl).sigOk = false ∧ (⟨0, 0, 14⟩ : Ctl).sigOk = false ∧ (⟨0, 0, 11⟩ : Ctl).sigOk = true ∧ k.sigOk = true := by decide

/-! Words of each family, laid out bit by bit from R184 to R191, R195 and R299. -/

theorem test_decode_add : decodeA 0x30052010C1080000 = .ok (.add ⟨3, 5, 2⟩ 3 1 2) := by decide
theorem test_decode_addi : decodeA 0x3005220146FFFFFF = .ok (.addi ⟨3, 5, 2⟩ 5 6 0xFFFFFF) := by decide
theorem test_decode_bind : decodeA 0x3005230249C00040 = .ok (.bind ⟨3, 5, 2⟩ 9 4 1 6 0x40) := by decide
theorem test_decode_ldu : decodeA 0x300523A1C7000008 = .ok (.ldu ⟨3, 5, 2⟩ 2 7 3 1 8) := by decide
theorem test_decode_vld : decodeA 0x300524254B9FFFFC = .ok (.vld ⟨3, 5, 2⟩ 2 2 5 11 1 0 0x1FFFFC) := by decide
theorem test_decode_amo : decodeA 0x3005258104600680 = .ok (.amo ⟨3, 5, 2⟩ 4 2 1 8 0 13) := by decide
theorem test_decode_qpush : decodeA 0x30052600D1000000 = .ok (.qpush ⟨3, 5, 2⟩ 3 17) := by decide
theorem test_decode_bcnd : decodeA 0x3005271457FFFFFF = .ok (.bcnd ⟨3, 5, 2⟩ 4 21 0x3FFFFFF) := by decide
theorem test_decode_bar : decodeA 0x30052762090000A5 = .ok (.bar ⟨3, 5, 2⟩ 8 9 10 5) := by decide
theorem test_decode_srd : decodeA 0x300527C200000123 = .ok (.srd ⟨3, 5, 2⟩ 8 0x123) := by decide
theorem test_decode_cpy : decodeA 0x300528028C000000 = .ok (.cpy ⟨3, 5, 2⟩ 10 12) := by decide
theorem test_decode_chput : decodeA 0x3005289738F00000 = .ok (.chput ⟨3, 5, 2⟩ 7 14 15) := by decide
theorem test_decode_mma : decodeA 0x3005290128412E80 = .ok (.mma ⟨3, 5, 2⟩ 1 2 33 4 5 6 1) := by decide
theorem test_decode_ralloc : decodeA 0x3005298515580000 = .ok (.ralloc ⟨3, 5, 2⟩ 20 21 22) := by decide
theorem test_decode_svc : decodeA 0x30052E100000BEEF = .ok (.svc ⟨3, 5, 2⟩ 0xBEEF) := by decide
theorem test_decode_tlbinv : decodeA 0x30052E64C0020000 = .ok (.tlbinvAsid ⟨3, 5, 2⟩ 19) := by decide
theorem test_decode_udf : decodeA 0x30052FF123456789 = .ok (.udf 0x123456789 ⟨3, 5, 2⟩) := by decide
theorem test_decode_vadd : decodeC false 0x30052004382008208000000000000000 =
    .ok (.vadd ⟨⟨3, 5, 2⟩, 0, 0, 3, 1, 0, 0, 8⟩ ⟨1, 2, 4, 0, 0, 0, 0, 0, 0, 0, 0, 0⟩ .none) := by decide
theorem test_decode_vaddImm : decodeC false 0x300520040020082000000203FFFFFFF8 =
    .ok (.vadd ⟨⟨3, 5, 2⟩, 0, 0, 0, 0, 0, 0, 8⟩ ⟨1, 2, 0, 0, 0, 0, 0, 0, 0, 0, 0, 0⟩ (.imm 0xFFFFFFFE)) := by decide
theorem test_decode_ffma : decodeC false 0x3005208C068048A16329680000000000 =
    .ok (.ffma ⟨⟨3, 5, 2⟩, 0, 0, 0, 0, 6, 2, 0⟩ ⟨9, 10, 11, 12, 1, 0, 1, 0, 0, 1, 1, 5⟩ .none) := by decide
theorem test_decode_plop : decodeC false 0x30052100002008206180000000000000 =
    .ok (.plop ⟨⟨3, 5, 2⟩, 0, 0, 0, 0, 0, 0, 8⟩ ⟨1, 2, 3, 6, 0, 0, 0, 0, 0, 0, 0, 0⟩ .none) := by decide
theorem test_decode_shfl : decodeC false 0x30052140002008206080000000000000 =
    .ok (.shfl ⟨⟨3, 5, 2⟩, 0, 0, 0, 0, 0, 0, 8⟩ ⟨1, 2, 3, 2, 0, 0, 0, 0, 0, 0, 0, 0⟩ .none) := by decide
theorem test_decode_cvt : decodeC false 0x30052180010408200000000000000000 =
    .ok (.cvt ⟨⟨3, 5, 2⟩, 0, 0, 0, 0, 1, 0, 1⟩ ⟨1, 2, 0, 0, 0, 0, 0, 0, 0, 0, 0, 0⟩ .none) := by decide
theorem test_decode_vmovi : decodeC false 0x300521C400202800000002000000001C =
    .ok (.vmovi ⟨⟨3, 5, 2⟩, 0, 0, 0, 0, 0, 0, 8⟩ ⟨5, 0, 0, 0, 0, 0, 0, 0, 0, 0, 0, 0⟩ (.imm 7)) := by decide
theorem test_decode_meldSet : decodeC false 0x30052007002008206000002050C00000 =
    .ok (.vadd ⟨⟨3, 5, 2⟩, 3, 0, 0, 0, 0, 0, 8⟩ ⟨1, 2, 3, 0, 0, 0, 0, 0, 0, 0, 0, 0⟩ (.setB ⟨4, 5, 6, 0, 0, 0, 0, 0, 0, 0, 0, 0⟩)) := by decide
theorem test_decode_expr : decodeC false 0x300522000000082060000053FFFFFFFC =
    .ok (.expr ⟨⟨3, 5, 2⟩, 0, 0, 0, 0, 0, 0, 0⟩ ⟨1, 2, 3, 0, 0, 0x014FFFFFFFF⟩) := by decide
theorem test_decode_meld : decodeC false 0x30052240000000600000000000000000 =
    .ok (.meld ⟨⟨3, 5, 2⟩, 0, 0, 0, 0, 0, 0, 0⟩ ⟨0, 6, 0, 0, 0, 0, 0, 0, 0, 0, 0, 0⟩ .none) := by decide
theorem test_decode_cbr : decodeC false 0x300522802000000000000003FFFFFFFC =
    .ok (.cbr ⟨⟨3, 5, 2⟩, 0, 0, 2, 0, 0, 0, 0⟩ ⟨0, 0, 0, 0, 0, 0, 0, 0, 0, 0, 0, 0⟩ (.off 0xFFFFFFFF)) := by decide
theorem test_decode_qmul : decodeC false 0x30052410010008206000000000000000 =
    .ok (.qmul ⟨⟨3, 5, 2⟩, 0, 0, 0, 0, 1, 0, 0⟩ ⟨1, 2, 3, 0, 0, 0, 0, 0, 0, 0, 0, 0⟩ .none) := by decide
theorem test_decode_ldpi : decodeC true 0x30052C0000200840C000020000000010 =
    .ok (.ldpi ⟨⟨3, 5, 2⟩, 0, 0, 0, 0, 0, 0, 8⟩ ⟨1, 4, 6, 0, 0, 0, 0, 0, 0, 0, 0, 0⟩ (.imm 4)) := by decide
theorem test_decode_undefined : decodeC false 0x30052FFC000000000000000000003039 =
    .ok (.undefinedCWord ⟨3, 5, 2⟩ 12345) := by decide
theorem test_decode_twin : decodeC true 0x30052804000003042000000000000000 = .ok (.add ⟨3, 5, 2⟩ 3 1 2) := by decide

/-! Witnesses: for each statement with hypotheses, a state and operands that meet them. -/

/-- `c0` with a scratchpad binding of 256 bytes of `b1` and one of the plane's last 32 bytes in `b2`. -/
def cb : Course :=
  { c0 with b := [(1, ⟨0x4000, 64, 0, true, true, false, 0, false, true, 0x100, 0x100⟩),
                  (2, ⟨0, 0xFFFE0, 0, true, true, false, 0, false, true, 0x20, 0x100⟩)]
            s := [(2, 0x4000), (6, 7), (7, 9)] }

/-- `c0` with one entry in each of its queues to the address stream: an offset of 8 in thread 0, data 0x1234 in it. -/
def cq : Course :=
  { cb with queues := [(4, [⟨0, some (.vec 1 [(0, 8)])⟩, ⟨1, some (.uni 3)⟩]), (5, [⟨2, some (.vec 1 [(0, 0x1234)])⟩, ⟨3, some (.uni 4)⟩])] }

/-- A course whose code and data lie in mapped pages. -/
def mapped : State := State.reset.withFetchWord 64 0x30052010C1080000

/-- An access is made, in plain places. -/
def plainB (s0 : State) : Reach → Bool
  | .ok s ps _ => ps ≠ [] && ps.all (fun p => (s.regPlace p).isNone) && !(s.keysFull ps) && s.cur == s0.cur
  | _ => false

theorem witness_ready_course : (dev c0).Ready true k {} ∧ (dev c0).cur.sys = none ∧ (dev c0).sessionOf 0 = none := by
  exact ⟨ready_of (by decide), by decide, by decide⟩

theorem witness_ready_core (l : BitVec 2) : l = 0 ∨ l = 1 ∨ l = 2 → (dev (core l)).Ready true k {} ∧ (dev (core l)).cur.unified = false := by
  rintro (rfl | rfl | rfl) <;> exact ⟨ready_of (by decide), by decide⟩

theorem witness_ready_unified : (dev { c0 with unified := true }).Ready true k {} := ready_of (by decide)

theorem witness_UniformLoadStore :
    plainB (dev cb) ((dev cb).uniformAt true 0x40FC 4 { acc := { rd := true } }) = true ∧
    plainB (dev cb) ((dev cb).uniformAt true 0x40F8 8 { acc := { wr := true } }) = true ∧
    (match mapped.uniformAt false 0x200000 8 { acc := { rd := true } } with | .ok s ps _ => ps.all (fun p => (s.regPlace p).isNone) | _ => false) = true := by
  decide

theorem witness_StoredBytes : [((⟨0, 64, 4, 64, false, 0, 0, 64, 2⟩ : Place), 7), (⟨2, 68, 4, 68, false, 0, 0, 68, 2⟩, 9)].Pairwise (fun e f => e.1.pa + e.1.w ≤ f.1.pa ∨ f.1.pa + f.1.w ≤ e.1.pa) := by
  decide

theorem witness_UniformAtomics :
    plainB (dev cb) ((dev cb).atomicAt 0x40FC 4 { acc := { rd := true, wr := true }, atomic := true, kind := 1, scope := 1 } (fun o => some o)) = true ∧
    plainB (dev cb) ((dev cb).atomicAt 0x40F8 8 { acc := { rd := true }, atomic := true, kind := 1, scope := 1 } (fun _ => none)) = true := by
  decide

theorem witness_VectorMemory :
    (dev cq).Ready true k { pushes := [(3, 2)] } ∧ (dev cq).Ready true k { pops := [(4, 1)], pushes := [(0, 1)] } ∧
    (dev cq).Ready true k { pops := [(4, 1), (5, 2)] } ∧
    plainB (dev cq) ((dev cq).vectorAt 1 4 { acc := { rd := true } } (fun r => [(0, r.base.toNat), (2, r.base.toNat + 252)])) = true ∧
    plainB (dev cq) ((dev cq).vectorAt 2 4 { acc := { wr := true } } (fun r => [(0, r.base.toNat + 28)])) = true ∧
    (match (dev cq).vectorAt 2 4 { acc := { wr := true } } (fun r => [(0, r.base.toNat + 32)]) with | .trap _ _ => true | _ => false) = true := by
  exact ⟨ready_of (by decide), ready_of (by decide), ready_of (by decide), by decide, by decide, by decide⟩

theorem witness_VectorAtomics :
    (dev cq).Ready true k { pops := [(4, 1), (5, 2)], pushes := [(3, 1)] } ∧
    (let s := (dev cq).refresh 1
     plainB s (s.reachW s.cur.ctx (some (s.cur.B 1)) { acc := { rd := true, wr := true }, atomic := true, kind := 1, scope := 1 } [⟨0, 0x4008, 4⟩]
       (fun s ps => planWrites (s.rmwPlan (fun _ o => some o) ps)))) = true := by
  exact ⟨ready_of (by decide), by decide⟩

theorem witness_TranslationRegisters :
    (c0.S64 4).toNat < 2 ^ 56 ∧ 2 ^ 56 ≤ ({ c0 with s := [(5, 0x1000000)] }.S64 4).toNat ∧
    (match mapped.bindGlobal mapped.cur.ctx BReg.zero 0x200000 0x100 with | (.ok b, _) => b.lim == 0x100 | _ => false) = true ∧
    (match mapped.bindGlobal mapped.cur.ctx BReg.zero 0x80000000 0x100 with | (.error (.fail c), _) => c != 0 | _ => false) = true := by decide

theorem witness_QueueMoves : (dev cq).Ready true k { pushes := [(3, 1)] } ∧ (dev cq).Ready true k { pops := [(5, 1)] } :=
  ⟨ready_of (by decide), ready_of (by decide)⟩

theorem witness_SpecialRegisters :
    (dev (core 2)).parked = [] ∧ (dev (core 2)).cur.hold = .none ∧
    (let s := dev { core 2 with s := [(3, 0x30000)] }
     let go (acc : Acc) (va i : Nat) : Bool := match s.uniformAt false va 4 { acc := acc } with
       | .ok s1 [p] [] => s1.regPlace p == some (0, i) && p.w == 4
       | _ => false
     let bad (acc : Acc) (va : Nat) : Bool := ({ s.cur.ctx with w := 4, acc := acc } : Ctx).regBad va && rgn va == 3 && !s.noPeer va && !crosses va 4
     go { rd := true } 0x300000002000 0x800 && go { wr := true } 0x3000000020C4 0x831 && go { wr := true } 0x300000002210 0x884 && bad { wr := true } 0x300000002008 &&
       bad { rd := true } 0x300000003FFC) = true := by decide

theorem witness_Barriers :
    let s (n : Word) := dev { c0 with s := [(1, n)] }
    (s 0).cur.S 1 = 0 ∧ 65535 < ((s 65536).cur.S 1).toNat ∧ (s 1).cur.barUnit 1 = none ∧ (s 2).cur.barUnit 3 = some 0 ∧
    (s 65535).cur.barUnit 6 ≠ none ∧ (s 2).launchOf = none ∧ ((s 2).barrier 0 3 0 1).count = 0 ∧
    (let t := (s 2).setBarrier 0 3 0 1 { Barrier.zero with n := 2, count := 1 }
     t.barrier 0 3 0 1 = { Barrier.zero with n := 2, count := 1 } ∧ t.cur.lid = 0) := by decide

theorem witness_SleepAndEvents :
    let t := dev { c0 with hold := .sleep 0 }
    t.cur.hold = .sleep 0 ∧ t.active t.cur = true ∧ t.cur.promises = [] ∧ (0 : DWord).toNat ≤ t.now.toNat ∧ t.now.toNat < (1 : DWord).toNat := by decide

/-! Compute words. -/

/-- `c0` inside a meld whose face A is thread 0. -/
def cm : Course := { c0 with meld := [.meld 5 1 1 false] }

theorem witness_ReadyC_plain :
    ∀ i ∈ [Instr.vadd (h) (op 1 2 3 0) .none, .vmad (h 14) (op 7 2 3 4) .none, .vadd (h 8 0 0 0 1) (op 28 3 29 0) .none,
      .fadd (h 0) (op 1 4 5 0) .none, .ffma (h 1) (op 1 4 5 4) .none, .flog2 (h 0) (op 1 4 0 0) .none, .vcmp (h 8 1 1) (op 3 2 3 10) .none,
      .plop (h) (op 3 1 2 15) .none, .vmovi (h) (op 1 0 0 0) (.imm 7), .shfl (h) (op 1 2 3 3) .none, .ballot (h) (op 4 1 0 0) .none,
      .redux (h) (op 1 2 0 4) .none, .scan (h) (op 1 2 0 12) .none, .cvt { h 1 with slot := 0 } (op 1 4 0 0) .none, .unpk (h 1) (op 1 2 0 0) .none], ∃ v, (dev c0).ReadyC faceBad false i v := by
  intro i hi
  simp only [List.mem_cons, List.not_mem_nil, or_false] at hi
  rcases hi with rfl | rfl | rfl | rfl | rfl | rfl | rfl | rfl | rfl | rfl | rfl | rfl | rfl | rfl | rfl <;>
    exact readyC_of (by decide)

theorem witness_acted :
    partition c0.meld = none ∧ partition cm.meld = some 1 ∧ (Instr.vadd (h) (op 1 2 3 0) .none).cview.map (fun v => c0.acted v) = some [(op 1 2 3 0, 5)] ∧
    (Instr.vadd (h 8 0 0 3) (op 1 2 3 0) (.setB (op 2 2 3 0))).cview.map (fun v => cm.acted v) = some [(op 1 2 3 0, 1), (op 2 2 3 0, 4)] ∧
    (1 : Mask) &&& 4 = 0 := by decide

theorem witness_Conversions : pairingBad false 0 7 = false ∧ pairingBad false 0 8 = true ∧ pairingBad true 0 8 = false ∧ pairingBad true 0 1 = true := by decide

theorem witness_FusedExpressions :
    let e : ExprBody := ⟨1, 4, 5, 0, 0, 0x014FFFFFFFF⟩
    courseChecks (fun part f => faceBad part f || f == 3) exprShape (exprView (h 0) e) false c0 = none ∧ ¬ (c0.vcnt ≤ e.s4.toNat ∧ e.s4.toNat < 120) ∧
    (dev c0).Ready false k (exprIo (h 0) e) := by
  exact ⟨by decide, by decide, ready_of (by decide)⟩

/-- `c0` in a loop of threads 0 and 2. -/
def cl : Course := { c0 with meld := [.loop 5 none 0x3000 [(0, 1), (2, 2)]] }

theorem witness_Melds :
    (∃ v, (dev cm).ReadyC meldFaces false (.meld (h 0 0 0 1) (op 0 1 0 0) .none) v) ∧ cm.meld.length < 4 ∧
    (∃ v, (dev { c0 with meld := List.replicate 4 (.suspend 0x2000) }).ReadyC meldFaces false (.meld (h 0) (op 0 1 0 0) .none) v) ∧
    (∃ v, (dev c0).ReadyC loopFaces false (.mloop (h 0) (op 0 2 0 0) .none) v) ∧ partition c0.meld = none ∧
    (∃ v, (dev cm).ReadyC onlyPlain false (.mend (h 0) (op 0 0 0 0) .none) v) ∧ cm.openBranch = false ∧
    (∃ v, (dev cl).ReadyC onlyPlain false (.mend (h 0) (op 0 0 0 0) .none) v) ∧ maskOf ((countDown [(0, 1), (2, 2)]).map Prod.fst) &&& cl.live = 4 ∧
    (∃ v, (dev cl).ReadyC splitFaces false (.mbrk (h 0 1) (op 0 0 0 0) .none) v) := by
  refine ⟨readyC_of (by decide), by decide, readyC_of (by decide), readyC_of (by decide), by decide, readyC_of (by decide), by decide,
    readyC_of (by decide), by decide, readyC_of (by decide)⟩

theorem witness_ComputeControl :
    (∀ i ∈ [Instr.cnop (h 0) (op 0 0 0 0) .none, .cbr (h 0 1) (op 0 0 0 0) (.off 2), .cjoin (h 0) (op 0 0 0 0) (.off 2), .cloop (h 0) (op 0 1 0 0) (.off 2),
      .ccall (h 0) (op 0 0 0 0) (.off 2), .cret (h 0) (op 0 0 0 0) .none], ∃ v, (dev c0).ReadyC onlyPlain false i v) ∧
    (∃ v, (dev c0).ReadyC splitFaces false (.cexit (h 0 1) (op 0 0 0 0) .none) v) ∧
    (∃ v, (dev cm).ReadyC (fun part f => faceBad part f) false (.ccallPair (h 0 0 0 3) (op 0 0 0 0) (.setB (op 0 0 0 0))) v) ∧
    (∃ v, (dev { c0 with recon := [⟨5, 1, 0x2040, 0⟩] }).ReadyC onlyPlain false (.cjoin (h 0) (op 0 0 0 0) (.off 2)) v) := by
  refine ⟨?_, readyC_of (by decide), readyC_of (by decide), readyC_of (by decide)⟩
  intro i hi
  simp only [List.mem_cons, List.not_mem_nil, or_false] at hi
  rcases hi with rfl | rfl | rfl | rfl | rfl | rfl <;> exact readyC_of (by decide)

/-- `c0` whose `q1` and `q2` are 1 by 1 in threads 0 and 2. -/
def cs : Course :=
  { c0 with qcnt := 4, qs := [(96, 9), (98, 9), (192, 9), (194, 9)], qe := [(3456, 0x40000000#32), (3528, 0x40800000#32), (6912, 0x40400000#32)] }

theorem witness_SmallMatrices :
    (∀ i ∈ [Instr.qzero (h 0) (op 3 0 6 6) .none, .qld (h 0) (op 1 2 0 1) .none, .qmul (h 0) (op 3 1 2 0) .none, .qadd (h 0) (op 3 1 2 0) .none, .qtrn (h 0) (op 3 1 0 0) .none, .qchol (h 0) (op 3 1 4 1) .none,
      .qlup (h 0) (op 3 1 7 1) .none, .qsolv (h 0) (op 3 1 2 2) .none, .qmv (h 0) (op 0 1 2 0) .none, .qdiagSet (h 0) (op 1 0 0 1) .none],
      ∃ v, (dev cs).ReadyC faceBad false i v) ∧
    cs.shaped 0 1 = true ∧ cs.shaped 2 1 = true ∧ cs.qrows 0 1 = 1 ∧ cs.qcols 2 2 = 1 ∧ cs.shaped 0 3 = false := by
  refine ⟨?_, by decide⟩
  intro i hi
  simp only [List.mem_cons, List.not_mem_nil, or_false] at hi
  rcases hi with rfl | rfl | rfl | rfl | rfl | rfl | rfl | rfl | rfl | rfl <;> exact readyC_of (by decide)

theorem witness_RingAccesses :
    (∃ v, (dev { c0 with unified := true, s := [(4, 0x100), (6, 8), (7, 12)] }).ReadyC faceBad false (.ldpi (h) (op 1 4 6 0) (.imm 4)) v) ∧
    (match mapped.reach mapped.cur.ctx none { acc := { rd := true } } [⟨0, 0x100108, 4⟩] with | .ok _ ps _ => ps.length == 1 | _ => false) = true := by
  exact ⟨readyC_of (by decide), by decide⟩

/-! Work in flight. -/

/-- A work item with an act, flag-class when it has no due cycle. -/
def item (act : Act) (due : Option Nat := none) (ws : List RegWrite := []) (sig : Option Nat := none) : Work :=
  { id := 3, stream := .addr, due := due, early := 10, late := none, sig := sig, writes := ws, act := act }

/-- `c0` with one item in flight. -/
def flying (w : Work) : State := dev { c0 with work := [w], flags := w.sig.toList.map (fun f => (f, 1)) }

/-- The item that a course has in flight under number 3, and where the device's focus stands. -/
def sees3 (s : State) (who : DWord := 1) : Option (Option Work × Bool) := (s.focus who).map (fun f => (f.cur.workOf 3, f.cur == s.cur))

theorem witness_Commits :
    sees3 (flying (item .none (some 10) [.s 3 7])) = some (some (item .none (some 10) [.s 3 7]), true) ∧
    sees3 (flying (item .promise (some 11) [.s 4 7])) = some (some (item .promise (some 11) [.s 4 7]), true) ∧ (dev c0).cycle = 10 := by decide

theorem witness_FlagWork :
    (∀ w ∈ [item .none none [] (some 2), item (.store none []), item (.store (some 0) []), item .fencei], sees3 (flying w) = some (some w, true)) ∧
    (item .none).early ≤ (dev c0).cycle ∧ (flying (item .fencei)).cur.storesOut = [] ∧ (flying (item (.store none [(0, 4)]))).cur.storesOut = [3] := by decide

/-- A plane of one chute of 4 entries of 32 bytes, with one entry published, and one toward the engine and one from it. -/
def chutes : Plane :=
  { Plane.zero with st := .active, asid := some 0
                    chutes := [(0, ⟨0, 4, 32, 3, 2, 1, 1, 0, 0⟩), (1, ⟨0x8000, 2, 16384, 2, 0, 1, 3, 0, 0⟩), (2, ⟨0x20000, 128, 512, 0, 0, 3, 1, 0, 0⟩),
                      (4, ⟨0x40000, 2, 32, 2, 0, 1, 2, 0, 0⟩)] }

/-- `dev` with those chutes. -/
def devc (c : Course) : State := { dev c with planes := [(0, chutes)] }

theorem witness_Chutes :
    (devc c0).Ready true k {} ∧ (devc c0).redefining 0 0 0 = false ∧ (((devc c0).plane 0 0).chute 0).pside = 1 ∧ (((devc c0).plane 0 0).chute 2).pside ≠ 1 ∧
    spOffset 0x60 32 = some 0x60 ∧ spOffset 0x61 32 = none ∧ parseChute (List.replicate 32 0) = some Chute.none ∧
    parseChute (bytesLE 4 0x20 ++ bytesLE 4 65536 ++ bytesLE 4 16 ++ List.replicate 20 0) = none ∧
    (match (devc c0).readSp 0xFFFE0 32 with | .ok _ ps _ => ps != [] | _ => false) = true ∧
    (∀ op < 4, (devc c0).chuteReady c0 3 0 0 op 1 [] = true) ∧ (devc c0).chuteReady c0 3 0 0 1 2 [] = false ∧ (devc c0).chuteNamed 0 0 0 = false := by
  exact ⟨ready_of (by decide), by decide, by decide, by decide, by decide, by decide, by decide, by decide, by decide, by decide, by decide, by decide⟩

/-- The block of a `CPY` from `0x100000` to byte 0x100 of the scratchpad, 32 bytes. -/
def block : List Byte := bytesLE 8 0x100000 ++ bytesLE 8 0x100 ++ bytesLE 4 32 ++ bytesLE 4 2 ++ bytesLE 8 0

/-- A copy of that block, started or not. -/
def job (started : Bool) : CopyJob :=
  { CopyJob.blank .cpy with src := 0x100000, dst := 0x100, len := 32, ctl := 2, started := started, data := if started then List.replicate 32 7 else [], ident := 1 }

/-- `mapped` with that copy on channel 0. -/
def copying (started : Bool) : State := mapped.setChan 0 0 { Chan.zero with job := some (job started), ident := 9 }

theorem witness_CopyIssue :
    mapped.Ready true k {} ∧ mapped.freeChans 0 ≠ [] ∧ spOffset (mapped.cur.S 0) 32 = some 0 ∧
    (match mapped.readSp 0 32 with | .ok _ _ _ => true | _ => false) = true ∧ (parseBlock .cpy block).isSome = true ∧
    (parseBlock .cpy (List.replicate 32 255)).isNone = true ∧ mapped.chooseChan (job false) = some (some 0) := by
  exact ⟨ready_of (by decide), by decide, by decide, by decide, by decide, by decide, by decide⟩

theorem witness_CopySteps :
    ((copying false).chan 0 0).job = some (job false) ∧ (job false).started = false ∧ (job false).scv = false ∧ (job true).sigv = false ∧
    (sees (.copyStart 0 0) (copying false) (fun t => decide (t ≠ copying false))) = some true ∧
    (copying true).copyFault 0 0 (job true) = none ∧
    (match (copying true).writePlaces 0 0 (job true) with | (none, ps, s1) => !(copying true).anyStall 0 ps && (s1.bitmapPlaces 0 0 (job true)).1.isNone | _ => false) = true := by
  decide

theorem witness_ShadowBuffers :
    shadowBad true 0x1000 0x2000 0x1000 = false ∧ shadowBad true 0x1000 0x1FE0 0x1000 = true ∧ meetsBuffer [] 0 0x1000 0x1000 = false ∧ freeEntry [] 0 = some 0 ∧
    (dev c0).handle 0x100 = none ∧
    (({ dev c0 with planes := [(0, { chutes with shadows := [(0, ⟨0, 0x1000, 0x2000, 0x1000, false, []⟩)] })] } : State).handle 0x100).isSome = true := by decide

/-! Exceptions and the system. -/

/-- Registers that stand for none. -/
def anyRegs : SysRegs := ⟨0, 0, false, 0, TrapSet.zero, TrapSet.zero, 0, 0⟩

/-- A trap of an `ADD`, open on a course, recorded in ring 0 at place 1 or not yet. -/
def open_ (code : Code) (slot : Option (Nat × Nat)) : TrapInfo :=
  ⟨code, .addr, 0x1000, 0, 0, 0, false, 0, 0, 5, 0, 0, 0, 0, (0, 0, 0), slot⟩

/-- A device with a proven session on ASID 0 over connection 1, and this course. -/
def debugged (c : Course) (s : Option (Word × DWord × Stream × Nat × Nat) := none) : State :=
  { dev c with sessions := [{ conn := 1, asid := 0, nonce := List.replicate 64 0, proven := true, lastSeq := 4, lastMsg := 0, bps := [], traces := [],
                              stepping := s, waiting := [] }] }

theorem witness_ExceptionsAndCalls :
    (∀ l : BitVec 2, l = 1 ∨ l = 2 → ∃ y, (core l).sys = some y ∧ y.lvl = l) ∧ (debugged c0).sessionOf c0.space ≠ none ∧ (debugged c0).Ready true k {} ∧
    (let y : SysRegs := ((core 1 true).sys).getD anyRegs
     y.ie = true ∧ y.evpend &&& y.even ≠ 0 ∧ ((dev (core 1 true)).focusCore 0).isSome = true) ∧
    (let t := (((core 1).sys).getD anyRegs).trapSet 1
     (t.esave.extractLsb' 0 2).toNat < 1 ∧ t.epc.toNat % 8 = 0) := by
  refine ⟨?_, by decide, ready_of (by decide), by decide, by decide⟩
  rintro l (rfl | rfl) <;> exact ⟨_, rfl, rfl⟩

theorem witness_CourseTraps :
    (let s := { dev { c0 with trap := some (open_ 0x04 none) } with dregs := [(0x880, 0x10000)], mem := Memory.store [] 0x10008 (bytesLE 4 2) }
     (s.focus 1).map (fun f => decide ((f.loadNat (f.dreg64 0x880 + 12) 4 + 2 ^ 32 - f.loadNat (f.dreg64 0x880 + 16) 4) % 2 ^ 32 ≠
       f.loadNat (f.dreg64 0x880 + 8) 4)) = some true) ∧
    (let s := dev { c0 with trap := some (open_ 0x6F (some (0, 1))) }
     s.focusTrap 0 1 ≠ none ∧ s.focusTrap 0 2 = none ∧ pairTrap 0x6F = false ∧ pairTrap 0x83 = true ∧ s.traceOf 1 = none ∧ c0.gang = 0) := by decide

theorem witness_Privileges :
    (dev c0).frontReady .addr 0 = true ∧ (dev c0).cur.sys = none ∧ (dev (core 0)).frontReady .addr 0 = true ∧ (dev (core 0)).cur.level < 1 ∧
    (dev (core 1)).cur.level < 2 := by decide

theorem witness_TlbAndGates :
    let s := dev (core 2)
    (s.cur.S 2).toNat < 2 ^ 11 ∧ s.foreign 2 = false ∧ (s.cur.S64 8).toNat % 2 ^ 14 = 0 ∧ 0 < (s.cur.S 10).toNat ∧ 2 ^ 11 ≤ (s.cur.S 1).toNat ∧
    sees3 { s with cur := { s.cur with work := [item (.tlbinv none none)] } } 7 = some (some (item (.tlbinv none none)), true) ∧
    (match s.rangePieces 0x4000 2 (List.range 2) with | (.ok ps, _) => ps == [(0x4000, 2)] | _ => false) = true ∧
    s.isHbm 0x4000 = true ∧ (s.cur.S 2).toNat ≤ 47 ∧ (s.plane 191 2).st ≠ .streaming ∧
    ({ s with planes := [(0, { Plane.zero with st := .streaming })] }.plane 0 0).st = .streaming := by decide

theorem witness_Contexts :
    (let s := dev (core 1)
     let bad (a : Nat) : Bool := 2 ^ 52 ≤ a || s.rangeBad { asid := 0, user := false, path := [], phys := true, dev := true } a
     bad 6 = false ∧ bad (6 + 31) = false ∧ s.poisoned 6 = false ∧ 2 ^ 52 ≤ ({ c0 with s := [(5, 0x100000)] }.S64 4).toNat) ∧
    (let s := dev { core 2 with work := [item (.ctx 1 1 0 0 0 0)] }
     sees3 s 7 = some (some (item (.ctx 1 1 0 0 0 0)), true) ∧ s.ctxItems 0 = [(7, item (.ctx 1 1 0 0 0 0))] ∧ (s.plane 0 1).st = .idle ∧
     (s.wall 0).service ≠ .retired) ∧
    (let p (st : PlaneState) (j : Option StreamJob) : State := { dev c0 with planes := [(1, { Plane.zero with st := st, stream := j })] }
     (p .ready none).activePlane 0 = none ∧ (p .ready none).planesIn 0 .ready = [1] ∧ (p .ready none).serving 0 = true ∧
     (p .ready (some ⟨false, some 0, 0, none, false⟩)).planesIn 0 .streaming = [] ∧ (p .ready (some ⟨false, some 0, 0, none, false⟩)).quiet 0 1 = true ∧
     ((p .streaming (some ⟨true, none, 0, none, false⟩)).plane 0 1).stream = some ⟨true, none, 0, none, false⟩ ∧ (∀ c ∈ (p .streaming none).agents, c.moving = false)) := by decide

theorem witness_MonitorServices : (core 2).sys ≠ none ∧ (core 2).S 4 = 6 ∧ (core 2).S 1 ≠ 6 ∧ (core 2).S 1 ≠ 7 := by decide

/-! The engine, records, snapshots, page requests. -/

theorem witness_GangsAndMatrixIssue :
    let s := devc { c0 with s := [(1, 0x120), (2, 0x110)], fslots := [(0, 1)] }
    let u := { s with planes := [(0, { chutes with weight := [(0, 16), (2, 1), (4, 1), (6, 1), (7, 1)] })] }
    (s.cur.S 1).toNat / 16 % 16 = 2 ∧ (s.cur.S 1).toNat % 16 < 2 ∧ s.cur.gang = 0 ∧ s.cur.S 1 ≠ s.cur.gang ∧ (s.plane 0 0).gang 0 1 = none ∧
    (s.cur.S 2).toNat / 16 % 16 = 1 ∧ s.cur.slotBad 0 = false ∧ (s.plane 0 0).engine.length < 16 ∧
    (match s.prepare 1 2 (.slot 0) 0 0 0 with | .trap _ t => t.code == 0x65 | _ => false) = true ∧
    (match u.prepare 1 2 (.slot 0) 1 0 0 with | .ok _ st => st == [(0, 128)] | _ => false) = true := by decide

/-- An operation that has been fired and whose one member has read all its entries but one. -/
def op1 : EngOp := { members := [⟨1, 3, some 2, 1, 2, [(0, 128)], 0, 1, 1, 0⟩], kt := 1, fa := 0, fb := 0, fired := true, rows := [] }

theorem witness_EngineSteps :
    let s := { devc c0 with planes := [(0, { chutes with engine := [op1] })] }
    s.runningPlane 0 = some 0 ∧ (s.plane 0 0).engine = [op1] ∧ s.fireable 0 = none ∧
    (∃ m, op1.members[0]? = some m ∧ m.eaten < m.need op1.kt) ∧
    (let t := { devc c0 with planes := [(0, { chutes with engine := [{ op1 with fired := false, members := [⟨1, 3, some 2, 1, 2, [(0, 0)], 0, 1, 1, 0⟩] }] })] }
     (t.fireable 0).isSome = true) := by decide

theorem witness_WeightLoads :
    let s := dev { c0 with s := [(1, 512), (2, 0x10001)], fslots := [(0, 1)] }
    (s.cur.S 1).toNat % 32 = 0 ∧ 512 ≤ (s.cur.S 1).toNat ∧ (s.cur.S 2).toNat / 2 ^ 16 = 1 ∧ (s.cur.S 2).toNat % 2 ^ 15 = 1 ∧ fmtOk (Slot.of (s.cur.slotWord 0 0) 0).fmt = true ∧
    (match s.readSp 0 32 with | .ok s1 ps _ => (s1.bytesAt ps).length == 32 | _ => false) = true ∧
    sees3 (flying (item (.wbld 0 0 0 512 1 1 (0, List.replicate 32 0) 0))) = some (some (item (.wbld 0 0 0 512 1 1 (0, List.replicate 32 0) 0)), true) ∧
    (((flying (item .none)).now - 0).toNat < 2 ^ 24 ∧
      2 ^ 24 ≤ (({ flying (item .none) with dies := [(0, { Die.zero with cnt := 2 ^ 24 })] } : State).now - 0).toNat) ∧
    (flying (item .none)).loading 0 0 = [] ∧ ((dev c0).plane 0 0).engine = [] := by decide

/-- A graph of one node of room for four records of 32 bytes, of which one is pending. -/
def graph : Launch :=
  { Launch.blank with
    hdr := { ImgHdr.blank with graph := true, poolLen := 1000, fresh := true, vcnt := 8 }
    nodes := [(0, { Node.none with cap := 4, size := 32, maxDepth := 1, target := 1, maxFlight := 1, pending := [⟨0, 16, 0, ⟨0, 3, 0, [], 0⟩, 0⟩] })] }

theorem witness_Records :
    let s := { dev { cq with nid := 0, s := [(1, 0), (2, 4), (3, 3), (7, 1)] } with launches := [graph] }
    s.cur.nid ≠ 0xFFFFFFFF#32 ∧ c0.nid = 0xFFFFFFFF#32 ∧ s.Ready true k {} ∧ s.Ready true k { pops := [(5, 1)] } ∧ s.Ready true k { pushes := [(3, 8)] } ∧
    (s.myLaunch.nodeAt (s.cur.S 1)).isSome = true ∧ s.myLaunch.nodeAt (s.cur.S 7) = none ∧ s.myLaunch.hasRoom 0 3 = true ∧ s.myLaunch.hasRoom 0 4 = false ∧
    (s.myLaunch.node 0).cap < 4 + (s.cur.S 7).toNat ∧ Sparse.get s.cur.depths 0 0 + 1 ≤ 1 ∧ (s.myLaunch.node 0).size / 4 = 8 := by
  exact ⟨by decide, by decide, ready_of (by decide), ready_of (by decide), ready_of (by decide), by decide, by decide, by decide, by decide, by decide,
    by decide, by decide⟩

theorem witness_Snapshots :
    let l := { Launch.blank with hdr := { ImgHdr.blank with snapTab := 0x4000, snapCount := 1 } }
    let s (l : Launch) := { flying (item (.snapc 0 3 true)) with launches := [l] }
    l.hasDomain = true ∧ Launch.blank.hasDomain = false ∧ (s l).launches[(s l).cur.launch]? = some l ∧ (s l).commits 0 = [3] ∧
    sees3 (s l) = some (some (item (.snapc 0 3 true)), true) ∧ (∃ e ∈ [((0 : Nat), (0 : DWord))], ((s l).wall e.1).lastScan.toNat ≤ e.2.toNat) := by decide

theorem witness_PageRequests :
    spOffset 8 8 = some 8 ∧ spOffset 4 8 = none ∧ 0x100000 < 0xFFFF8 + 8 * 2 ∧ 0xFF800 + 8 * 256 ≤ 0x100000 ∧
    (match mapped.readSp 8 8 with | .ok s1 ps _ => numAt (s1.bytesAt ps) 0 8 % 2 ^ 14 == 0 | _ => false) = true ∧
    sees3 (flying (item (.pgreq [64] 1 []))) = some (some (item (.pgreq [64] 1 [])), true) ∧
    (flying (item (.pgreq [64] 1 [(5, 0)]))).parked = [] ∧ (5 : Nat) % 2 ^ 30 = (0x16 : Word).toNat / 4 ∧ (0x16 : Word).toNat % 4 ≠ 0 := by decide

theorem witness_CountersAndSamples :
    let s := { dev c0 with dregs := [(0x874, 100), (0x87A, 2)] }
    s.dreg 0x874 ≠ 0 ∧ State.reset.dreg 0x874 = 0 ∧ (s.dreg 0x87A).toNat ≠ 0 ∧ (s.dreg 0x87C - s.dreg 0x87D).toNat ≠ (s.dreg 0x87A).toNat ∧
    s.planesIn 0 .active = [0] ∧ (s.bySlot 0 0).filter (fun c => c.lset == 0) = [c0] ∧ s.focus c0.ident = some s := by decide

/-! Walls, launches, queues. -/

theorem witness_WallScans :
    let s (v : Service) : State := (dev c0).setWall 0 { Wall.zero with service := v }
    let late (v : Service) : State := { s v with dies := [(0, { Die.zero with cnt := 0xFFFFFFFFFFFF })] }
    ((s .drained).wall 0).service = .drained ∧ (∃ v ∈ bayWalls 0, ((s .drained).wall v).service = .drained) ∧ (s .inService).nextDrain 0 = some 0 ∧
    (s .drained).scanned 0 = false ∧ (late .retest).scanned 0 = true ∧ (∀ q < 3, (late .retest).residents 1 q = []) ∧
    ({ dev c0 with planes := [(0, { Plane.zero with waking := 1 })] }.plane 0 0).waking.getLsbD 0 = true ∧
    (Sparse.get ({ dev c0 with waysWake := [(47, 0x80)] } : State).waysWake 47 0).getLsbD 7 = true ∧ ((late .retest).die 0).spares ≠ 0 := by decide

theorem witness_LaunchesAndGraphs :
    let s (l : Launch) := { dev { c0 with endA := true, endC := true } with launches := [l] }
    let done : State := { State.reset with launches := [{ Launch.blank with complete := true, hdr := { ImgHdr.blank with nthr := 1 } }] }
    (s Launch.blank).cur.spent = true ∧ c0.spent = false ∧ ((s Launch.blank).focus 1).isSome = true ∧ (s Launch.blank).allRetired 0 = false ∧
    { State.reset with launches := [Launch.blank] }.allRetired 0 = true ∧ (done.launch 0).complete = true ∧ (done.launch 0).certified = false ∧
    (done.launch 0).hdr.nthr ≠ 0 ∧ (done.launch 0).ran = [] ∧
    (∃ e ∈ ({ Launch.blank with ran := [(0, 5)] } : Launch).ran, (State.reset.wall e.1).lastScan.toNat ≤ e.2.toNat) := by decide

theorem witness_Kilns :
    let s := { dev c0 with launches := [{ graph with region := 1 }] }
    s.mayLaunch 0 0 = true ∧ s.outranked 0 0 = false ∧ ((s.launch 0).node 0).expired = false ∧ 0 + ((s.launch 0).node 0).timer ≤ (s.count ((s.launch 0).node 0).die).toNat ∧
    (let x := { (s.launch 0).node 0 with timer := 1 }
     (s.count x.die).toNat < 0 + x.timer) := by decide

/-- A course of `graph` whose next word is `RALLOC s1, s2, s3`, of more records than have room. -/
theorem witness_GraphExhausted :
    let m := State.reset.withFetchWord 64 0xF0000980420C0000
    let s := { m with cur := { m.cur with nid := 0, s := [(3, 4)] }, launches := [graph] }
    (s.coursesOf 0).filter (fun c => c.resident) = [s.cur] ∧ s.waitsAt s.cur = some 0 ∧ (s.launch 0).complete = false ∧ (s.launch 0).hdr.graph = true := by decide

theorem witness_PlacementAndQueues :
    let l := { Launch.blank with queue := 0, hdr := { ImgHdr.blank with fresh := true, gcnt := 1, nthr := 1, vcnt := 8 }, region := 1 }
    let s := { dev c0 with launches := [l], queues := [(0, { LQueue.zero with ents := [0], head := some 0 })] }
    s.shelf = [] ∧ (∀ j < 16, j ≠ 0 → s.queue j = LQueue.zero) ∧ (s.queue 0).head = some 0 ∧ (s.placeFresh 0).isSome = true ∧ (l.placed = 0 ∧ s.pairQueue 0 = false) ∧
    { s with launches := [{ l with region := 0 }] }.placeFresh 0 = none ∧ State.reset.vfAsid 0 = none ∧
    { State.reset with mem := Memory.store [] 0 (bytesLE 4 0x8005) }.vfAsid 0 = some 5 := by decide

theorem witness_QueueDoorbell :
    let s := { State.reset with mem := Memory.store (Memory.store [] 8 (bytesLE 4 2 ++ bytesLE 4 1)) 22 (bytesLE 2 1) }
    s.num (s.qdesc 0) 22 2 % 2 = 1 ∧ s.num (s.qdesc 0) 8 4 ≠ 0 ∧ (s.num (s.qdesc 0) 12 4 + 2 ^ 33 - (s.num (s.qdesc 0) 16 4 + s.inRing 0)) % 2 ^ 32 = 1 := by decide

/-! Memory, clocks, agents outside. -/

theorem witness_MemoryEvents :
    (let s := { dev c0 with lines := [(0, ⟨0, 4, 4, false⟩)] }
     s.bayHolds 0 2 = true ∧ s.bayDirty 0 2 = true) ∧ (dev c0).bayHolds 0 2 = false ∧ (dev c0).isHbm (32 * 2) = true ∧
    (∃ i < granBytes 0 / 32, Sparse.get ({ dev c0 with poison := [(2, true)] } : State).poison (32 * 2 / granBytes 0 * granBytes 0 / 32 + i) false = true) ∧
    (match mapped.translate mapped.cur.ctx 0x100000 {} with | (.ok _, _) => true | _ => false) = true ∧
    (match mapped.translate mapped.cur.ctx 0x80000000 {} with | (.fail _, _) => true | _ => false) = true ∧
    (let w := { mapped with cur := { mapped.cur with w6 := true } }
     (match w.fetchAt .comp 0x100000 with | (.ok _, _) => true | _ => false) = true ∧ w.cur.icacheC = []) ∧
    (let d := { Die.zero with proms := [(5, 2000)] }
     2000 < d.mhz ∧ (∀ p ∈ d.proms, p.2 ≤ 2000) ∧ ∃ p ∈ d.proms, 1999 < p.2) := by decide

theorem witness_RemoteAgents :
    let p : Act := .lost 7 0x40 5 none 0
    sees3 (flying (item p)) = some (some (item p), true) ∧ ((flying (item p)).now - 0).toNat < Config.peerLimit ∧
    (let s := { flying (item p) with dies := [(0, { Die.zero with cnt := 2 ^ 24 })] }
     s.cur.trap = none ∧ s.cur.sys = none ∧ Config.peerLimit ≤ (s.now - 0).toNat) ∧
    ({ dev c0 with keys := [(0, 1, 4, [7])] } : State).keys.length = 1 ∧
    (flying (item p)).cur.ended .addr = false ∧ ({ c0 with endA := true } : Course).ended .addr = true ∧
    (let m := State.reset.withFetchWord 64 0x30052E100000BEEF
     let s (a c : Pair) : State := { m with cur := { m.cur with twin := some (1, 0), pairA := a, pairC := c } }
     (s ⟨0, some 0, none, false⟩ Pair.none).pairWaiting = [.addr] ∧ (s ⟨0, some 0, none, true⟩ Pair.none).pairWaiting = [] ∧
     (s ⟨0, some 0, none, false⟩ ⟨0, some 0, none, false⟩).pairWaiting = [.addr, .comp] ∧
     ∃ p, (match (s Pair.none Pair.none).nextWord .addr with | (.instr i, f) => some (f.issueOf i) | _ => none) = some p) := by
  refine ⟨by decide, by decide, by decide, by decide, by decide, by decide, by decide, by decide, by decide, ?_⟩
  exact Option.isSome_iff_exists.mp (by decide)

theorem witness_StalledPeers :
    let waking : State := { State.reset with fabric := true, planes := [(0, { Plane.zero with waking := 1 })] }
    let full : State := { State.reset with fabric := true, keys := List.replicate 4096 (4096, 1, 4, []) }
    (waking.stalls (waking.scratch 0 0 0) = true ∧ waking.peerReaches (waking.scratch 0 0 0) 4 = true) ∧
    (4096 ≤ (full.keys.filter (fun e => e.1 == 4096 + full.did)).length) := by
  refine ⟨by decide, ?_⟩
  simp [State.reset]

theorem witness_OutsideRequests :
    let s := { State.reset with fabric := true }
    s.peerReaches 0x1000 8 = true ∧ State.reset.fabric = false ∧ s.keyed? 4096 1 1 = none ∧ s.poisoned 0x1000 = false ∧
    (let m := { State.reset with mem := Memory.store [] 0 (bytesLE 4 0x8005) }
     m.vfAsid 0 = some 5 ∧ m.vfAsid 1 = none ∧ m.enabled 0 = true ∧ m.enabled 1 = false ∧ m.busyAsid 5 = false ∧
     { m with launches := [{ Launch.blank with asid := 5 }] }.busyAsid 5 = true) := by decide

/-- Signatures and digests are the standard's, and opaque (log entry 4, DESIGN CHOICE): no image is shown to be accepted here. -/
theorem witness_BootAndPower :
    State.reset.powered = true ∧ State.reset.monitor.bootStep ≤ 1 ∧ State.reset.monitor.slotOk [] = false ∧ 1 < ({ Monitor.zero with bootStep := 5 } : Monitor).bootStep ∧
    State.reset.monitor.verdict [] ≠ 0 := by
  refine ⟨rfl, by decide, by decide, by decide, ?_⟩
  simp [Monitor.verdict, imgForm, imgNum]

/-! Debug sessions. -/

theorem witness_DebugSessions :
    (∀ o ∈ (dev c0).sessions, o.conn ≠ 1) ∧
    (∃ x, Claims.Takes (debugged c0) 1 5 x ∧ x.proven = true ∧ (debugged c0).target x (BitVec.ofNat 128 (c0.joinedName)) = some c0 ∧
      (debugged c0).target x (BitVec.ofNat 128 (2 ^ 117)) = none ∧ ∀ t ∈ x.traces, t.who ≠ c0.ident) ∧
    (debugged { c0 with halted := true }).cur.halted = true ∧
    ((debugged c0 (some (5, 1, .addr, 0, 0))).sessions.map (fun x => x.stepping.isSome) = [true]) ∧ (debugged c0).cycle < 0 + 65536 ∧
    (let s := { debugged c0 with dies := [(0, { Die.zero with cnt := 24000000000 })] }
     ∃ x, s.sessions = [x] ∧ 24000000000 ≤ (s.count 0 - x.lastMsg).toNat) := by
  refine ⟨by decide, ⟨_, ⟨rfl, by decide, by decide⟩, by decide, by decide, by decide, by decide⟩, by decide, by decide, by decide, ⟨_, rfl, by decide⟩⟩

theorem witness_DebugEvents :
    let s := { debugged c0 with sessions := [{ conn := 1, asid := 0, nonce := [], proven := true, lastSeq := 4, lastMsg := 0, bps := [(c0.nameKey, .addr, 0, 0x1000)], traces := [],
                                                stepping := none, waiting := [] }] }
    s.bpHit .addr = true ∧ (debugged c0).bpHit .addr = false := by decide

theorem witness_DebugReadsWrites :
    16 ≤ ((debugged c0).shown c0).2.2 ∧ c0.mayWrite 0 = false ∧ ∃ o < 4096, c0.mayWrite o = true := by
  refine ⟨by decide, by decide, ?_⟩
  exact ⟨16, by decide, by decide⟩

/-! Words, steps, the invariant. -/

theorem witness_WellFormed : (Instr.add k 1 2 3).WellFormed ∧ (Instr.vadd (h) (op 1 2 3 0) .none).WellFormed ∧ (Instr.add k 1 2 3).isA = true ∧
    (encodeTwin (.add k 1 2 3)).isSome = true ∧ decodeA 0xF00000102 = .error .zeroField ∧ Claims.reservedA 0x1E = true := by
  exact ⟨⟨by decide, (by decide : k.sigOk = true)⟩, ⟨by decide, (by decide : k.sigOk = true)⟩, by decide, by decide, by decide, by decide⟩

theorem witness_StepRunsDecoded :
    mapped.powered = true ∧ mapped.agenda = [] ∧ mapped.parked = [] ∧ mapped.cur.entersEvent = false ∧ .addr ∈ mapped.cur.streams ∧
    mapped.frontReady .addr 0 = true ∧ (∀ x ∈ mapped.cur.streams, x ≠ .addr → mapped.frontReady x 0 = false) ∧
    (mapped.nextWord .addr).1 = .instr (.add ⟨3, 5, 2⟩ 3 1 2) ∧ mapped.bpHit .addr = false ∧
    (match (State.reset.withFetchWord 64 0x0000E01000000000).nextWord .addr with | (.bad _ t, _) => t.code == 0x61 | _ => false) = true := by decide

theorem witness_inv : State.reset.Inv ∧ mapped.Inv := by
  exact ⟨(by decide : Memory.wf [] = true), (by decide : Memory.wf mapped.mem = true)⟩

theorem witness_ConditionCodes :
    (c0.pc .addr + (2 : BitVec 26).signExtend 64 * 8).toNat % c0.wordBytes .addr = 0 ∧ Machine.cond 2 (c0.S 1) 0 = true ∧ Machine.cond 10 0 0 = true ∧
    Machine.cond 9 1 0 = false ∧ k.sigOk = true ∧ 10 < (11 : BitVec 4).toNat ∧ bits 8 (0x70 * 2 ^ 36) 36 = 0x70 ∧ bits 4 (0x70 * 2 ^ 36) 32 ≠ 10 ∧
    (c0.S64 2).toNat % 8 ≠ 0 := by decide

theorem witness_IssueWaits :
    (dev { c0 with lastA := some 10 }).frontReady .addr 0 = false ∧ (dev { c0 with lastA := some 8 }).frontReady .addr 2 = true ∧
    (dev { c0 with flags := [(0, 1)] }).cur.flagsClear 1 = false ∧ (dev { c0 with flags := [(2, 63)] }).cur.flagFull (sigFlag ⟨0, 0, 2⟩) = true ∧
    (dev { c0 with flags := [(2, 62)] }).cur.flagFull (sigFlag ⟨0, 0, 2⟩) = false ∧ (Instr.add k 1 2 3).ctl = some k := by decide

theorem witness_gang :
    let m (who : DWord) : EngMember := ⟨who, 0, some 2, 1, 2, [(0, 0)], 0, 0, 0, 0⟩
    let s := { devc { c0 with gang := 0x120, hold := .latch (m 1) } with
      parked := [{ c0 with ident := 2, slot := 1, gang := 0x121, hold := .latch (m 2) }]
      planes := [(0, { chutes with gangs := [⟨0, 1, 2, 3, 3, some (.nop k, 0)⟩] })] }
    (s.plane 0 0).gang 0 1 = some ⟨0, 1, 2, 3, 3, some (.nop k, 0)⟩ ∧ (s.heldAt 0 0 0 1).map (fun e => e.1.ident) = [1, 2] ∧
    (∀ e ∈ s.heldAt 0 0 0 1, e.1.flagFull e.2.sig = false) ∧ (s.plane 0 0).st = .active := by decide

theorem witness_fire :
    let o : EngOp := { op1 with fired := false, fa := 1, fb := 1, members := [⟨1, 3, some 2, 1, 2, [(0, 0)], 0, 1, 1, 0⟩] }
    let s (off : DWord) := { devc c0 with planes := [(0, { chutes with engine := [o], off := off })] }
    (match (s 0).fireAll 0 0 o.kt o.fa o.members with | (none, _, false, s1) => decide (s1.planes = (s 0).planes) | _ => false) = true ∧
    (∃ n, o.members.map (fun m => m.need o.kt) = [n]) := by
  exact ⟨by decide, ⟨_, rfl⟩⟩


/-! Where instructions and events complete. -/

theorem undisturbed_of {s : State} (h : s.cur.sys = none ∧ s.launchOf = none ∧ s.shadows = [] ∧ (s.plane s.cur.wall s.cur.plane).shadows = [] ∧ s.hostMem = [] ∧
    s.bayWaking (bayOf s.cur.wall) = false) : s.Undisturbed :=
  ⟨h.1, fun l e => absurd (h.2.1.symm.trans e) (by simp), h.2.2⟩

/-- The bits of an `Open`. -/
def openB (s : State) (h : How) (pa w : Nat) (chk : Bool) : Bool :=
  decide (pa % 32 + w ≤ 32) && !s.gatedAt pa && !s.stalls pa && !(h.acc.rd && s.poisoned pa) &&
    !(chk && (s.raceOn s.cur.ident s.cur.sync (pa / 32) h.acc.wr h.atomic h.scope).isSome)

theorem open_of {s : State} {h : How} {pa w : Nat} {chk : Bool} (e : openB s h pa w chk = true) : s.Open h pa w chk := by
  simp only [openB, Bool.and_eq_true, decide_eq_true_eq, Bool.not_eq_true', Bool.and_eq_false_iff] at e
  obtain ⟨⟨⟨⟨h1, h2⟩, h3⟩, h4⟩, h5⟩ := e
  refine ⟨h1, h2, h3, fun r => h4.resolve_left (by simp [r]), fun r => ?_⟩
  have := h5.resolve_left (by simp [r])
  simpa using this

/-- The bits of a `Reaches`. -/
def reachesB (s : State) (r : BReg) (h : How) (va w : Nat) : Bool :=
  decide (va < 2 ^ 56 ∧ r.base.toNat < 2 ^ 56 ∧ r.stale = false ∧ (BitVec.ofNat 64 va - r.base).toNat + w ≤ r.lim.toNat ∧
    (h.acc.rd = true → r.rd = true) ∧ (h.acc.wr = true → r.w = true) ∧ (r.mode = false → s.isHbm (s.through r va) = true) ∧
    (r.mode = true → r.frame.toNat + (BitVec.ofNat 64 va - r.base).toNat + w ≤ 2 ^ 20)) &&
  openB s h (s.through r va) w (r.mode || r.chk)

theorem reaches_of {s : State} {r : BReg} {h : How} {va w : Nat} (e : reachesB s r h va w = true) : s.Reaches r h va w := by
  simp only [reachesB, Bool.and_eq_true, decide_eq_true_eq] at e
  obtain ⟨⟨a, b, c, d, f, g, i, l⟩, j⟩ := e
  exact ⟨a, b, c, d, f, g, i, l, open_of j⟩

theorem spReads_of {s : State} {off n : Nat}
    (e : off + n ≤ 2 ^ 20 ∧ ∀ i < n, openB s { acc := { rd := true } } (s.scratch s.cur.wall s.cur.plane (off + i)) 1 true = true) : s.SpReads off n :=
  ⟨e.1, fun i hi => open_of (e.2 i hi)⟩

theorem witness_Undisturbed : (dev cb).Undisturbed ∧ (dev cq).Undisturbed := ⟨undisturbed_of (by decide), undisturbed_of (by decide)⟩

/-- A read, a write and an atomic at the first and the last word that `b1` of `cb` covers. -/
theorem witness_VectorAccessesComplete :
    (∀ va, va = 0x4000 ∨ va = 0x40FC → (dev cq).Reaches (cq.B 1) { acc := { rd := true } } va 4 ∧ (dev cq).Reaches (cq.B 1) { acc := { wr := true } } va 4 ∧
      (dev cq).Reaches (cq.B 1) { acc := { rd := true, wr := true }, atomic := true, kind := 1, scope := 1 } va 4) ∧
    ¬ (dev cq).Reaches (cq.B 1) { acc := { rd := true } } 0x40FD 4 ∧ (∀ u, ((dev cq).keys.filter (fun e => e.1 == u)).length < 4096) ∧
    (dev cq).through (cq.B 1) 0x4008 = 2 ^ 44 + 72 := by
  refine ⟨?_, fun h => absurd h.2.2.2.1 (by decide), fun _ => by simp [dev, State.reset], by decide⟩
  rintro va (rfl | rfl) <;> exact ⟨reaches_of (by decide), reaches_of (by decide), reaches_of (by decide)⟩

theorem witness_CourseInstructionsComplete :
    let s (n : Word) (gone : Bool) := { dev { c0 with s := [(1, n), (5, 1)] } with launches := [{ Launch.blank with abandoned := gone }] }
    let t := (s 2 false).setBarrier 0 3 0 1 { Barrier.zero with n := 2, count := 1 }
    (s 2 false).Ready true k {} ∧ (s 2 false).cur.sys = none ∧ (s 2 false).cur.barUnit 1 = none ∧ (s 2 true).cur.barUnit 3 = some 0 ∧
    ((s 2 true).launchOf.map Launch.abandoned) = some true ∧ ((s 2 false).launchOf.map Launch.abandoned) = some false ∧
    t.Ready true k {} ∧ (t.barrier t.cur.lid 3 0 1).count + 1 = (t.cur.S 1).toNat ∧ (t.barrier t.cur.lid 3 0 1).n = 2 ∧ c0.event = false ∧
    ({ c0 with event := true }).event = true := by
  exact ⟨ready_of (by decide), by decide, by decide, by decide, by decide, by decide, ready_of (by decide), by decide⟩

theorem no_stalls (c : Course) (a : Nat) : (dev c).stalls a = false := by
  have h : ∀ w p, ((dev c).plane w p).waking = 0 := by
    intro w p
    simp only [dev, State.plane, Sparse.get]
    split <;> rfl
  simp [State.stalls, h]

theorem witness_CourseReads :
    let s := dev { c0 with s := [(1, 512), (2, 0x10001), (5, 1)], fslots := [(0, 1)] }
    s.Ready true k {} ∧ s.Undisturbed ∧ s.SpReads 0 32 ∧ s.SpReads 0xFFFE0 32 ∧ ¬ s.SpReads 0xFFFE1 32 ∧ s.loadNat (s.scratch s.cur.wall s.cur.plane 0) 8 = 0 ∧
    s.cur.slotBad 0 = false ∧ s.bayWaking (bayOf s.cur.wall) = false ∧ (∀ a, s.stalls a = false) := by
  exact ⟨ready_of (by decide), undisturbed_of (by decide), spReads_of (by decide), spReads_of (by decide), fun h => absurd h.1 (by decide), by decide,
    by decide, by decide, no_stalls _⟩

theorem witness_SystemInstructionsComplete :
    let s := dev (core 2)
    s.Ready true k {} ∧ (∃ y, s.cur.sys = some y ∧ y.lvl = 2) ∧ (s.cur.S 2).toNat < 2 ^ 11 ∧ (s.cur.S64 8).toNat = 0x4000 ∧ (s.cur.S 10).toNat = 1 ∧
    s.hostMem = [] ∧ (∀ a, 0x4000 ≤ a → a < 0x4001 → s.isHbm a = true) ∧ s.isHbm 0x401F = true ∧ s.poisoned 0x4000 = false ∧ s.poisoned 0x401F = false ∧
    (s.plane 2 0).st ≠ .streaming := by
  refine ⟨ready_of (by decide), ⟨_, rfl, rfl⟩, by decide, by decide, by decide, rfl, ?_, by decide⟩
  intro a h1 h2
  obtain rfl : a = 0x4000 := by omega
  decide

/-- The meld entries, register contents and shapes that words ask for beside being ready. -/
theorem witness_ComputeWordsComplete :
    (∀ i ∈ [Instr.vsel (h) { op 1 2 3 1 with } .none, .vclz (h) (op 1 2 0 0) .none, .fclass (h 0) (op 1 4 0 0) .none, .pfrom (h) (op 1 1 0 0) .none,
      .pto (h) (op 1 2 0 0) .none, .vote (h) (op 1 1 0 0) .none, .vmov (h) (op 1 2 0 0) .none, .vbcast (h) (op 1 3 0 0) .none], ∃ v, (dev c0).ReadyC faceBad false i v) ∧
    (∃ v, (dev c0).ReadyC noMeld false (.pack (h 0) (op 1 4 0 0) .none) v) ∧
    (∃ v, (dev { c0 with recon := [⟨5, 0, 0, 0⟩] }).ReadyC onlyPlain false (.cjoin (h 0) (op 0 0 0 0) (.off 2)) v) ∧
    (c0.meld = [] ∧ c0.misaligned .comp (pair64 (c0.W 26) (c0.W 27)) = false) ∧
    (∃ v, (dev { c0 with meld := [.suspend 0x2000] }).ReadyC onlyPlain false (.cret (h 0) (op 0 0 0 0) .none) v) ∧
    (∃ v, (dev { c0 with meld := [.pair 5 1 0x3000 0x2010 false] }).ReadyC onlyPlain false (.cret (h 0) (op 0 0 0 0) .none) v) ∧
    ({ c0 with meld := [.pair 5 1 0x3000 0x2010 false] }).openBranch = false ∧ c0.misaligned .comp 0x3000 = false ∧ c0.pcC.toNat % 16 = 0 ∧
    (∀ i ∈ [Instr.qst (h 0) (op 1 1 0 0) .none, .qdiagGet (h 0) (op 1 1 0 0) .none, .qdiagAdd (h 0) (op 3 1 2 2) .none, .qmad (h 0) (op 3 1 2 1) .none,
      .qshape (h 0) (op 1 0 1 1) .none], ∃ v, (dev cs).ReadyC faceBad false i v) := by
  refine ⟨?_, readyC_of (by decide), readyC_of (by decide), by decide, readyC_of (by decide), readyC_of (by decide), by decide, by decide, by decide, ?_⟩
  · intro i hi
    simp only [List.mem_cons, List.not_mem_nil, or_false] at hi
    rcases hi with rfl | rfl | rfl | rfl | rfl | rfl | rfl | rfl <;> exact readyC_of (by decide)
  · intro i hi
    simp only [List.mem_cons, List.not_mem_nil, or_false] at hi
    rcases hi with rfl | rfl | rfl | rfl | rfl <;> exact readyC_of (by decide)

/-- A copy out of the chute 1 of `chutes`, of one entry of 16 KiB. -/
def drain : CopyJob := { CopyJob.blank .cpy with ctl := 0x301, len := 16384, started := true, ident := 1 }

/-- A copy to `0x100100` of the device, with a remote signal at `0x100200`. -/
def signal (done : Bool) : CopyJob :=
  { CopyJob.blank .cpyp with dst := 0x100100, siga := 0x100200, len := 32, ctl := 0x8000, started := true, data := List.replicate 32 7, ident := 1,
                             written := done, signalled := done }

/-- `mapped` with a copy on channel 0. -/
def channel (j : CopyJob) : State := mapped.setChan 0 0 { Chan.zero with job := some j, ident := 9 }

theorem witness_CopyEventsComplete :
    (match ((copying false).primed 0 0 (job false)).readSource 0 0 (job false) with
      | (none, x, _) => x.data.length == 32 && !(copying false).anyStall 0 x.places | _ => false) = true ∧
    (job false).scv = false ∧
    drain.scv = true ∧ drain.sch = 1 ∧ drain.eaten < drain.len / ((devc c0).plane 0 0 |>.chute 1).size ∧
    (signal false).sigv = true ∧ (signal false).signalled = false ∧
    (match (channel (signal false)).writePlaces 0 0 (signal false) with
      | (none, ps, s1) => !(channel (signal false)).anyStall 0 ps &&
        (match (s1.deliver 0 (signal false) ps []).sigPlaces 0 0 (signal false) sigHow with | (none, [x], s2) => !s2.anyStall 0 [x] && !s2.signalFull x | _ => false)
      | _ => false) = true ∧
    (signal true).scv = false ∧ (signal true).written = true ∧
    (let j : CopyJob := { job false with src := 0x80000000 }
     ((channel j).copyFault 0 0 j).isSome = true) := by decide

theorem witness_GangEventsComplete :
    let m (who : DWord) : EngMember := ⟨who, 0, some 2, 1, 2, [(0, 0)], 0, 0, 0, 0⟩
    let s := { devc { c0 with gang := 0x120, hold := .latch (m 1), fslots := [(0, 1)] } with
      parked := [{ c0 with ident := 2, slot := 1, gang := 0x121, hold := .latch (m 2), fslots := [(0, 1)] }]
      planes := [(0, { chutes with chutes := chutes.chutes.map (fun (e : Nat × Chute) => if e.1 = 1 then (1, { e.2 with cside := 3, size := 65536 }) else e)
                                   gangs := [⟨0, 1, 2, 3, 3, some (.mma k 1 2 0 0 0 0 0, 0)⟩] })] }
    let hs := (s.heldAt 0 0 0 1).filter (fun (e : Course × EngMember) => (3 : Nat).testBit e.1.rank)
    hs.length = 2 ∧ (s.plane 0 0).st = .active ∧ (s.wall 0).service = .inService ∧ (s.plane 0 0).engine.length < 16 ∧
    (∀ e ∈ hs, e.1.trap = none ∧ e.1.halted = false ∧ s.redefining 0 0 e.2.a = false ∧ s.redefining 0 0 e.2.c = false ∧ e.1.flagFull e.2.sig = false ∧
      s.breaksAt e.1 (e.1.streamOf true) = false) := by
  decide

/-- `devc c0` with one operation at its engine. -/
def engined (o : EngOp) : State := { devc c0 with planes := [(0, { chutes with engine := [o] })] }

/-- `op1` with its entry read. -/
def fired : EngOp := { op1 with members := [⟨1, 3, some 2, 1, 2, [(0, 128)], 1, 1, 1, 0⟩] }

theorem witness_EngineEventsComplete :
    (engined op1).runningPlane 0 = some 0 ∧ op1.fired = true ∧
    (∃ m, op1.members[0]? = some m ∧ m.eaten < m.need op1.kt ∧ ∀ x ∈ op1.members.take 0, x.a = m.a → x.need op1.kt ≤ x.eaten) ∧
    (∀ m ∈ fired.members, m.need fired.kt ≤ m.eaten) := by decide

/-- `op1` with its entry read, of one row. -/
def short : EngOp := { op1 with members := [⟨1, 3, some 2, 1, 2, [(0, 1)], 1, 1, 1, 0⟩] }

theorem witness_EngineLands :
    (match (engined short).landAll 0 0 short.members with
      | (none, xs, s1) => !(engined short).anyStall 0 xs.flatten && decide (s1.planes = (engined short).planes) && decide (s1.cur = (engined short).cur)
      | _ => false) = true := by decide

theorem witness_LaunchEventsComplete :
    (let s := { dev { c0 with endA := true, endC := true } with launches := [{ Launch.blank with complete := true, hdr := { ImgHdr.blank with nthr := 1 } }] }
     s.cur.spent = true ∧ s.cur.gang = 0 ∧ s.latchBroken s.cur = false ∧ s.ranOf 0 = [] ∧ (s.launch 0).suspect = false ∧ (s.launch (s.body 0)).outst = []) ∧
    (∃ e, ({ dev c0 with keys := [(0, 1, 4, [7])] } : State).keys.find? (fun e => e.2.1 == 1 && e.2.2.1 == 4) = some e) ∧
    (let m := State.reset.withFetchWord 64 0x30052E100000BEEF
     let s : State := { m with cur := { m.cur with twin := some (1, 0), pairA := ⟨0, some 0, none, false⟩ } }
     s.cur.trap = none ∧ s.pairWaiting = [.addr] ∧ s.cur.sys = none) := by
  refine ⟨by decide, ⟨_, rfl⟩, by decide⟩

/-- A device whose plane 1 of wall 0 is Ready, with a stream or without. -/
def second (j : Option StreamJob) (st : PlaneState := .ready) : State := { State.reset with planes := [(1, { Plane.zero with st := st, stream := j })] }

theorem witness_DeviceEventsComplete :
    ((second none).serving 0 = true ∧ (second none).activePlane 0 = none ∧ (second none).planesIn 0 .ready = [1] ∧ ((second none).plane 0 1).wantActive = false) ∧
    (((second (some ⟨false, none, 0, none, false⟩)).plane 0 1).stream = some ⟨false, none, 0, none, false⟩ ∧ (second (some ⟨false, none, 0, none, false⟩)).planesIn 0 .streaming = [] ∧
      (second (some ⟨false, none, 0, none, false⟩)).quiet 0 1 = true) ∧
    (((second (some ⟨true, none, 0, none, false⟩) .streaming).plane 0 1).st = .streaming ∧ ∀ c ∈ (second (some ⟨true, none, 0, none, false⟩) .streaming).agents, c.moving = false) ∧
    (({ State.reset with queues := [(0, { LQueue.zero with since := some 0 })] } : State).queue 0).since = some 0 ∧
    (∀ n ∈ bayWalls 0, (State.reset.wall n).service ≠ .drained ∧ (State.reset.wall n).service ≠ .retest) ∧ State.reset.nextDrain 0 = some 0 ∧
    State.reset.bayHolds 0 2 = false ∧ State.reset.isHbm 64 = true ∧ State.reset.wayOn 0 0 = true ∧
    (∀ e ∈ (State.reset.die 0).proms, (State.reset.die 0).cnt.toNat < e.1.toNat → e.2 ≤ 1) ∧
    ({ State.reset with dregs := [(0x874, 100)] } : State).dreg 0x874 ≠ 0 := by decide

theorem witness_OutsideEventsComplete :
    (let m := { State.reset with mem := Memory.store (Memory.store [] 0 (bytesLE 4 0x8005)) 20 (bytesLE 2 5) }
     m.enabled 0 = true ∧ (m.vf 0).fstat ≠ 0xFF ∧ m.vfAsid 0 = some 5 ∧ (Sparse.get m.windows 0 Window.zero).ctl.getLsbD 0 = false) ∧
    (let s := { State.reset with fabric := true }
     s.peerReaches 0x1000 8 = true ∧ ∀ i < 8, s.gatedAt (0x1000 + i) = false ∧ s.poisoned (0x1000 + i) = false) ∧
    4 ≤ ({ Monitor.zero with bootStep := 4 } : Monitor).bootStep ∧ ({ Monitor.zero with bootStep := 1 } : Monitor).bootStep = 1 := by decide

/-- A debug session on ASID 0 with a halted course, not proven. Whether a proof holds is open, since signatures are (log entry 4, DESIGN CHOICE). -/
theorem witness_DebugMessagesComplete :
    (∃ x, Claims.Takes (debugged { c0 with halted := true }) 1 5 x ∧ x.proven = true ∧ x.traces = [] ∧ ∃ c,
      (debugged { c0 with halted := true }).target x (BitVec.ofNat 128 (c0.joinedName)) = some c ∧ c.halted = true ∧ c.sys = none) ∧
    (mapped.traceFrames 0 0x100000 1).isSome = true ∧
    (∃ x, x ∈ (debugged c0).sessions ∧ x.waiting = [] ∧ x.conn = 1) ∧
    (let s := debugged c0 (some (5, 1, .addr, 0, 0))
     let t := { s with dies := [(0, { Die.zero with cycle := 65536 })] }
     s.dieOfAgent 1 = 0 ∧ 0 + 65536 ≤ t.cycleOf (t.dieOfAgent 1)) ∧
    (match (mapped.debugPlaces 0 { acc := { wr := true } } (pieces 0x100000 4)).1 with | .ok ps => ps.length == 1 | _ => false) = true := by
  refine ⟨⟨_, ⟨rfl, by decide, by decide⟩, by decide, by decide, _, rfl, by decide, by decide⟩, by decide, ⟨_, List.mem_singleton.2 rfl, by decide, by decide⟩,
    by decide, by decide⟩

/-! Cases that single clauses speak of. -/

theorem witness_Fence :
    (flying (item .fence)).cur.storesOut.all (fun n => decide (3 ≤ n)) = true ∧
    (let s := dev { c0 with work := [{ item (.store none []) with id := 2 }, item .fence] }
     s.cur.storesOut = [2] ∧ s.cur.workOf 3 = some (item .fence)) ∧
    (flying (item (.swr 0x830 7) (some 10))).cur.workOf 3 = some (item (.swr 0x830 7) (some 10)) := by decide

theorem witness_BrokenGang :
    let m : EngMember := ⟨1, 0, some 2, 1, 2, [(0, 0)], 0, 0, 0, 0⟩
    let s := devc { c0 with gang := 0x120, hold := .latch m, trap := some (open_ 0x6E (some (0, 1))) }
    s.latchBroken s.cur = true ∧ s.cur.halted = false ∧ s.focusTrap 0 1 ≠ none ∧ s.traceOf s.cur.ident = none := by decide

theorem witness_RowsDue :
    (engined { op1 with members := [⟨1, 3, some 2, 1, 2, [(0, 1)], 0, 1, 1, 0⟩] }).rowsDue ⟨1, 3, 0, [], 0⟩ (0x20000 + 512) 512 = true ∧
    (engined op1).rowsDue ⟨1, 3, 0, [], 0⟩ 0 512 = false ∧
    (let s : State := { flying (item (.publish true 0 0x20200 ⟨1, 3, 0, [], 0⟩)) with
       planes := [(0, { chutes with shadows := [(0, ⟨c0.asid, 0x20200, 0x40000, 512, false, []⟩)] })] }
     s.handle 0x100 = some (true, 0, ⟨c0.asid, 0x20200, 0x40000, 512, false, []⟩) ∧ s.cur.workOf 3 = some (item (.publish true 0 0x20200 ⟨1, 3, 0, [], 0⟩)) ∧
     s.publishWaits true 0 3 ⟨c0.asid, 0x20200, 0x40000, 512, false, []⟩ ⟨1, 3, 0, [], 0⟩ = false) := by decide

theorem witness_WaitingRequest :
    (debugged c0 (some (5, 1, .addr, 0, 0))).sessions.find? (fun o => o.conn == 1 && o.stepping.isSome && o.waiting.isEmpty) ≠ none ∧
    (∀ o ∈ (debugged c0).sessions, o.conn ≠ 2) ∧ 65536 < 32 + (65505 : Nat) ∧ 32 + (65504 : Nat) ≤ 65536 := by decide

theorem witness_BootSteps :
    let s (n : Nat) : State := { State.reset with monitor := { Monitor.zero with bootStep := n } }
    (s 4).powered = true ∧ (s 4).monitor.bootStep = 4 ∧ (s 4).hostMem = [] ∧ 1 < (s 5).monitor.bootStep ∧ (s 5).monitor.bootStep ≠ 4 := by decide

theorem witness_PeerAnswers :
    (0x1000 : Nat) % 32 + 8 ≤ 32 ∧ 32 < (0x101C : Nat) % 32 + 8 ∧ ({ State.reset with fabric := true } : State).peerReaches (2 ^ 46) 8 = false ∧
    ({ State.reset with fabric := true, planes := [(0, { Plane.zero with off := 1 })] } : State).gatedAt (2 ^ 44) = true := by decide


/-! Cases of the statements' single clauses on copies, the engine, records, planes and pairs. -/

/-- `mapped` with a page on the second device of the site, long after a copy's start. -/
def farCopy (j : CopyJob) : State :=
  { (channel j) with
    mem := Memory.store (Memory.store mapped.mem 0x32008 (bytesLE 8 (2 ^ 46 + 0x13F))) 0x20008 (bytesLE 8 (2 ^ 47)), fabric := true
    dies := [(0, { Die.zero with cnt := 2 ^ 24 })] }

theorem witness_CopyFailures :
    (let j : CopyJob := { signal false with dst := 0x20000100, sig := some 2 }
     (farCopy j).copyTimedOut 0 0 j = true ∧ (farCopy j).copyFault 0 0 j = none ∧ (farCopy j).cur.ident = j.ident) ∧
    (let j : CopyJob := { job false with src := 0x80000000, sig := some 2 }
     ((channel j).copyFault 0 0 j).map (fun f => f.code) = some 1 ∧ (channel j).cur.ident = j.ident ∧ (channel j).copyTimedOut 0 0 j = false) := by
  decide

theorem witness_SignalFull :
    (({ dev c0 with keys := List.replicate 4096 (4096, 1, 4, []) } : State).signalFull ⟨0, 0x100200, 8, 0x100200, false, 0, 0, 0x100200, 2⟩) = true := by
  rfl

theorem witness_TagTable :
    let e (slot : Nat) : DWord := BitVec.ofNat 64 (2 ^ 63 + 3 * 2 ^ 16 + slot)
    let key : DWord := 3 * 512 + 1
    let p (l : List (Nat × DWord)) (r : Nat) : Plane := { Plane.zero with tags := l, rptr := [(1, r)] }
    let other : DWord := e 1 + 2 ^ 20
    (p [(6, e 9)] 0).lookup key = BitVec.ofNat 32 (2 * 2 ^ 16 + 9) ∧ (p [(4, other)] 0).lookup key = BitVec.ofNat 32 (2 ^ 31 + 2 ^ 16) ∧
    (p [(4, other), (5, other), (6, other), (7, other)] 3).lookup key = BitVec.ofNat 32 (2 ^ 31 + 3 * 2 ^ 16) := by decide

theorem witness_LatePromise :
    let t := dev { c0 with hold := .sleep 0, promises := [(2, 0)] }
    t.cur.hold = .sleep 0 ∧ t.active t.cur = true ∧ (∀ p ∈ t.cur.promises, p.2.toNat ≤ t.now.toNat) ∧ t.cur.promises ≠ [] := by decide

/-- A matrix whose first three diagonal elements are 4, 9 and 0. -/
def squares : Factor := ⟨(List.range 36).map (fun e => XVal.ofInt (if e = 0 then 4 else if e = 7 then 9 else 0)), none, List.range 6⟩

theorem witness_FactorSteps :
    squares.w.length = 36 ∧ squares.perm.length = 6 ∧ squares.stop = none ∧ (threshold squares.w 3).lt (mget squares.w 1 1) = true ∧
    (threshold squares.w 3).lt (mget squares.w 2 2) = false ∧
    (threshold squares.w 3).lt (mget squares.w 0 0).abs = true ∧ pivotRow squares.w 3 0 = 0 := by decide

theorem witness_Solutions :
    let i := Instr.qsolv (h 0) (op 3 1 2 2) .none
    (∃ v, (dev cs).ReadyC faceBad false i v) ∧ (i.cview.map (fun v => (cs.groups v).map (fun g => (g.1, g.2)))) = some [(op 3 1 2 2, [0, 2])] ∧
    (∀ t ∈ [0, 2], cs.shaped t 1 = true ∧ cs.shaped t 2 = true ∧ cs.qrows t 1 = cs.qcols t 1 ∧ cs.qrows t 2 = cs.qrows t 1 ∧ cs.qcols t 2 ≤ 6) ∧
    (∃ v, (dev { cs with qs := [] }).ReadyC faceBad false i v) ∧ ({ cs with qs := [] } : Course).shaped 0 1 = false := by
  exact ⟨readyC_of (by decide), by decide, by decide, readyC_of (by decide), by decide⟩

theorem witness_StochasticSteps :
    let i (ro : BitVec 2) (u : BitVec 1) := Instr.fadd { h 0 with ro := ro, uni := u } (op 1 4 5 0) .none
    ((i 3 0).cview.map (fun v => (((dev c0).rounding v).1.mode, c0.beats v))) = some (4, [0]) ∧
    ((i 1 0).cview.map (fun v => (((dev c0).rounding v).1.mode != 4))) = some true ∧
    ((i 3 0).cview.map (fun v => ({ c0 with w := [] } : Course).beats v)) = some [] := by decide

/-- An engine operation that may fire, whose A entry lies in a bank that is off. -/
def spoiled : State :=
  let o : EngOp := { op1 with fired := false, fa := 1, fb := 1, members := [⟨1, 3, some 2, 1, 2, [(0, 1)], 0, 1, 1, 0⟩] }
  { devc c0 with planes := [(0, { chutes with engine := [o], off := 4 })], dregs := [(0x890, 0x40000), (0x892, 4)], launches := [Launch.blank] }

theorem witness_EngineCancel :
    (match spoiled.fireable 0 with
     | some (p, o) =>
       (match spoiled.fireAll 0 p o.kt o.fa ((spoiled.plane 0 p).seatMembers o.kt [] o.members) with
        | (some x, _, _, t) => decide (x.1.code = 0x0D ∧ t.planes = spoiled.planes ∧ t.dreg 0x892 = 4 ∧ (t.dreg 0x893 - t.dreg 0x894).toNat ≠ 4)
        | _ => false)
     | none => false) = true ∧ spoiled.launches[spoiled.cur.launch]? = some Launch.blank ∧ ¬ spoiled.InEventRing 0 := by
  refine ⟨by decide, rfl, ?_⟩
  rintro ⟨h, -⟩
  exact absurd h (by decide)

theorem witness_LatchBreaks :
    let s := debugged { c0 with gang := 0x120 }
    let x : Session := { conn := 1, asid := 0, nonce := [], proven := true, lastSeq := 4, lastMsg := 0, bps := [(c0.nameKey, .addr, 0, 0x1000)], traces := [],
                         stepping := none, waiting := [] }
    ({ s with sessions := [x] } : State).breaksAt s.cur (s.cur.streamOf true) = true := by decide

theorem witness_LoadRecords :
    let w := item (.wbld 0 0 0 512 1 1 (0, List.replicate 32 0) 0) none [] (some 2)
    sees3 (flying w) = some (some w, true) ∧ w.sig = some 2 ∧ w.writes = [] ∧
    (loadedEntry 0 512 1 1 (0, List.replicate 32 0) 0).testBit 56 = false ∧ (loadedEntry 0 512 1 1 (0x0C, []) 0).testBit 56 = false := by decide

theorem witness_Planes :
    (let ctx (op : Nat) : State := dev { core 2 with work := [item (.ctx op 1 1 0 0 0)] }
     let bare (op : Nat) (service : Service) : State :=
       { ctx op with planes := [], walls := [(0, { Wall.zero with service := service })] }
     sees3 (ctx 2) 7 = some (some (item (.ctx 2 1 1 0 0 0)), true) ∧ (bare 1 .spare).activePlane 0 = none ∧ (bare 1 .spare).planesIn 0 .ready = [] ∧
     ((bare 1 .spare).wall 0).service = .spare ∧ ((bare 1 .spare).plane 0 1).st = .idle ∧ ((ctx 2).plane 0 0).st = .active ∧ (ctx 2).tenants 0 0 = [] ∧
     ((bare 3 .drained).wall 0).service = .drained) ∧
    (dev c0).tenants 0 0 ≠ [] ∧ (dev { c0 with twin := some (1, 0) }).tenants 1 0 ≠ [] := by decide

theorem witness_Emissions :
    let lay (r : List (DWord × List Nat)) : Launch := { graph with nodes := [(0, { graph.node 0 with resv := r })] }
    let s (l : Launch) : State := { dev { cq with nid := 0, s := [(1, 0)], queues := [(5, [⟨2, some (.vec 5 [(0, 0x40), (2, 0x60)])⟩])] } with launches := [l] }
    let ts := ((s (lay [])).cur.popped 5 0).threads 5
    (s (lay [])).Ready true k { pops := [(5, 1)] } ∧ ts = [0, 2] ∧ (lay []).hasRoom 0 2 = true ∧ ((lay []).alloc 48 2).map Prod.fst = some [0, 48] ∧
    (s (lay [])).kilnFull ((lay []).node 0) = false ∧ 2 ≤ ((lay [(1, [96, 144])]).node 0).resvOf 1 ∧
    (∀ t ∈ ts, Sparse.get (s (lay [])).cur.depths t 0 + 1 ≤ 1 ∧ (spOffset ((s (lay [])).cur.popped 5 0 |>.word t) 32).isSome = true) ∧
    ({ s (lay []) with keys := List.replicate 4096 ((graph.node 0).kiln, 1, 4, []) } : State).kilnFull ((lay []).node 0) = true ∧
    (s (lay [])).myLaunch.nodeAt 7 = none := by
  refine ⟨ready_of (by decide), by decide, by decide, by decide, by decide, by decide, by decide, rfl, by decide⟩

theorem witness_PairIssues :
    let m := State.reset.withFetchWord 64 0x30052E100000BEEF
    let s (w p : Nat) (c : Course) : State :=
      { m with cur := { c with twin := some (w, p) }, planes := m.planes ++ [(3, { Plane.zero with st := .active })], dies := [(0, { Die.zero with cnt := 2 ^ 24 })] }
    let at_ (n : Nat) (b : Bool) : Course := { m.cur with pairA := ⟨n, some 0, none, b⟩ }
    let held := at_ 0 false
    (s 1 0 held).twinRuns = true ∧ (s 1 1 held).twinRuns = false ∧ (s 1 0 held).pairWaiting = [.addr] ∧ ((s 1 0 held).cur.pair .addr).since = some 0 ∧
    2 ^ 24 ≤ ((s 1 0 held).now - 0).toNat ∧ ((s 1 0 held).now - 1).toNat < 2 ^ 24 ∧
    ((s 1 0 (at_ 3 false)).cur.pair .addr).fails = 3 ∧ held.lonely = false ∧ (s 1 0 held).cur.lonely = false ∧
    (s 1 0 (at_ 0 true)).cur.pairHeld .addr = false ∧ (s 1 0 held).cur.pairHeld .addr = true := by decide

theorem witness_StepClauses :
    mapped.fetchStalls .addr = false ∧ mapped.tooLate .addr = false ∧ mapped.cur.twin = none ∧ mapped.cur.pairHeld .addr = false ∧ mapped.sessions = [] ∧
    (match mapped.nextWord .addr with
     | (.instr i, f) => (match after (exec (f.resolve i) f) with | some g => Machine.acted f g && !f.readsDamaged g (f.resolve i) && g.cur.trap == f.cur.trap | none => false)
     | _ => false) = true ∧
    (let m := State.reset.withFetchWord 64 0x30052E100000BEEF
     let s : State := { m with cur := { m.cur with damaged := [damagedQueue 0] } }
     (match s.nextWord .addr with | (.instr i, f) => s.cur.damaged == f.cur.damaged && external i | _ => false) = true) := by decide

/-- A course that takes queue 0, where an uncorrectable error has struck. -/
theorem witness_DamagedReads :
    let s := dev { cq with damaged := [damagedQueue 4] }
    let i := Instr.qpop k 3 0
    (match after (exec i s) with | some g => s.readsDamaged g i && g.cur.trap == s.cur.trap | none => false) = true := by decide

theorem witness_FlagOverflow :
    let s := dev { c0 with flags := [(2, 63)] }
    let k2 : Ctl := ⟨0, 0, 2⟩
    sigFlag k2 = some 2 ∧ 63 ≤ s.cur.flag 2 ∧ k2.wait.getLsbD 2 = false ∧
    (match after (exec (.add k2 3 1 2) (s.modC (fun c => c.setFlag 2 0))) with | some t => t.nextId != s.nextId | none => false) = true := by decide

theorem witness_Reserved :
    Claims.reservedC 0x014 = true ∧ Claims.reservedC 0x0FF = true ∧ Claims.reservedC 0x1FF = true ∧ Claims.reservedC 0x010 = false ∧
    bits 10 (0x1FF * 2 ^ 98) 98 = 0x1FF ∧ Claims.reservedA (bits 10 (0x21E * 2 ^ 98) 98 - 0x200) = true := by decide

theorem witness_PowerLoss :
    let s : State := { State.reset with monitor := { Monitor.zero with burning := some (2, 1, State.reset.nextId), svn := [(2, 3)] } }
    s.monitor.burning = some (2, 1, s.nextId) ∧ 1 ≤ Sparse.get s.monitor.svn 2 0 ∧ (∀ k o, State.reset.monitor.burning ≠ some (k, o, State.reset.nextId)) := by
  refine ⟨rfl, by decide, fun k o h => ?_⟩
  cases h

theorem witness_Places :
    State.reset.shelf = [] ∧ (∀ c ∈ State.reset.agents, c.lonely = false) ∧ Launch.blank.groups = 0 ∧ State.reset.monitor.bootStep ≠ 1 ∧
    (let s : State := (dev c0).setWall 0 { Wall.zero with service := .retest }
     let late : State := { s with dies := [(0, { Die.zero with cnt := 0xFFFFFFFFFFFF })] }
     s.cleared 0 = false ∧ s.cleared 1 = true ∧
     ({ late with cur := { c0 with resident := false } } : State).cleared 0 = true ∧ ({ late with cur := { c0 with resident := false } } : State).scanned 0 = true) := by
  decide

theorem witness_HostWrote :
    (dev c0).hostMem = [] ∧ ¬ (dev c0).HostWrote 0x1000 := by
  refine ⟨rfl, ?_⟩
  rintro ⟨c, hc, -⟩
  exact absurd hc (by simp [dev, State.reset])

/-- Where a transfer would land, aligned and not; the second member of a pair; a switch that waits behind a plane marked by nothing; a `BKPT`
that a step waits at; values that `TRACK` refuses and takes. -/
theorem witness_Choices :
    c0.misaligned .comp 8 = true ∧ c0.misaligned .addr 8 = false ∧ c0.misaligned .comp 32 = false ∧ c0.misaligned .addr 4 = true ∧
    ({ c0 with twin := some (1, 0) } : Course).second = some (1, 0) ∧ c0.second = none ∧ ({ c0 with twin := some (1, 0) } : Course).wall ≠ 1 ∧
    (let w := item (.ctx 3 1 1 0 0 0)
     let s : State := { dev { core 2 with work := [w] } with planes := [(1, { Plane.zero with st := .ready })] }
     s.serving 0 = true ∧ s.activePlane 0 = none ∧ s.planesIn 0 .ready = [1] ∧ (s.plane 0 1).heldPlane = false ∧
     ((s.activate 0 1).countEvent 0 14 0).ctxItems 0 = [(7, w)]) ∧
    (debugged c0 (some (5, 1, .addr, 0, 0))).isStepped c0.ident (c0.streamOf true) = true ∧ (debugged c0).isStepped c0.ident (c0.streamOf true) = false ∧
    (let y := ((core 2).sys).getD anyRegs
     (dev (core 2)).trackBad y 4 = true ∧ (dev (core 2)).trackBad y (65 * 2 ^ 10) = true ∧ (dev (core 2)).trackBad y (64 * 2 ^ 10) = false) := by
  decide

/-! Single steps. The register values are those of `c0`: `s1` = -1, `s2` = 2, `s4`:`s5` = 0xFFFFFFFF, `s6` = 1, `s8` = -7, `s9` = 33; `v2` = 5,
(99), -2; `v3` = 3, 0, 40; `v4` = 1.0, 4.0 and `v5` = 2.0, 2.0 as FP32 in threads 0 and 2. -/

/-- The one write of an address-stream instruction in `c0`, and how long it takes. -/
def wrote (i : Instr) : Option (List RegWrite × Option Nat) := (writesOf i (dev c0)).bind (fun l => l.head?.map (fun e => (e.1, e.2.map (· - 10))))

-- R203: 0xFFFFFFFF + 2 = 1; -7 - 2 = -9; R204: a count of 33 shifts everything out, 33 taken modulo 64
theorem test_add : wrote (.add k 3 1 2) = some ([.s 3 1], some 1) := by decide
theorem test_sub : wrote (.sub k 3 8 2) = some ([.s 3 0xFFFFFFF7#32], some 1) := by decide
theorem test_mulh : wrote (.mulh k 3 1 2) = some ([.s 3 0xFFFFFFFF#32], some 3) := by decide
theorem test_mulhn : wrote (.mulhn k 3 1 2) = some ([.s 3 1], some 3) := by decide
theorem test_shl : wrote (.shl k 3 2 9) = some ([.s 3 0], some 1) := by decide
theorem test_sar : wrote (.sar k 3 8 9) = some ([.s 3 0xFFFFFFFF#32], some 1) := by decide
theorem test_div : wrote (.div k 3 8 2) = some ([.s 3 0xFFFFFFFD#32], some 24) := by decide
theorem test_rem : wrote (.rem k 3 8 2) = some ([.s 3 0xFFFFFFFF#32], some 24) := by decide
theorem test_divn_zero : wrote (.divn k 3 8 0) = some ([.s 3 0xFFFFFFFF#32], some 24) := by decide
theorem test_min : wrote (.min k 3 8 2) = some ([.s 3 0xFFFFFFF9#32], some 1) := by decide
theorem test_minn : wrote (.minn k 3 8 2) = some ([.s 3 2], some 1) := by decide
theorem test_clz : wrote (.clz k 3 2) = some ([.s 3 30], some 1) := by decide
theorem test_brev : wrote (.brev k 3 6) = some ([.s 3 0x80000000#32], some 1) := by decide
theorem test_addp : wrote (.addp k 10 4 6) = some ([.s 10 0, .s 11 1], some 1) := by decide
theorem test_set : wrote (.set k 3 8 2 4) = some ([.s 3 0], some 1) := by decide
theorem test_movhi : wrote (.movhi k 3 0 0x8001) = some ([.s 3 0x80010000#32], some 1) := by decide
theorem test_addi : wrote (.addi k 3 2 0xFFFFFF) = some ([.s 3 1], some 1) := by decide

-- R221: the offset counts words of 8 bytes from the branch itself; R222: the link is the next word
theorem test_br_back : sees (.br k 0x3FFFFFF) (dev c0) (fun t => t.cur.pcA) = some 0xFF8#64 := by decide
theorem test_bcnd_falls : sees (.bcnd k 0 2 4) (dev c0) (fun t => t.cur.pcA) = some 0x1008#64 := by decide
theorem test_call : (sees (.call k 2) (dev c0) (fun t => t.cur.pcA) = some 0x1010#64) ∧ wrote (.call k 2) = some ([.s 56 0x1008, .s 57 0], some 1) := by
  decide
theorem test_loop : wrote (.loop k 1 2 0) = some ([.s 2 1], some 1) := by decide
theorem test_jmpr_misaligned : trapOf (.jmpr k 0 2) (dev { c0 with s := [(2, 12)] }) = some (some 0x66) := by decide

-- R300: a write of a special register that a course may not write traps; R29
theorem test_swr_course : trapOf (.swr k 2 0x800) (dev c0) = some (some 0x64) := by decide
theorem test_srd_record : wrote (.srd k 3 0x007) = some ([.s 3 0], some 1) := by decide

-- R155: a scratchpad binding reaches no further than the plane
theorem test_bind_clamp : (wrote (.bind k 9 3 1 2 0xFFFE0)).map (fun e => e.1.map (fun w => match w with | .b n r => (n, r.lim, r.ext) | _ => (0, 0, 0))) =
    some [(2, 0x20, 33)] := by decide

-- R212: `v.32` of thread 0 at base + offset; the scratchpad of wall 0, plane 0 begins at 2^44 (R146)
theorem test_vst : sees (.vst k 2 1 1 0 0 0 4) (dev cq) (fun t => (t.byte (2 ^ 44 + 68), t.byte (2 ^ 44 + 69), t.byte (2 ^ 44 + 70), t.mem.length)) =
    some (0x34, 0x12, 0, 2) := by decide
theorem test_vld : (writesOf (.vld k 0 3 2 0 0 0 29) ({ dev cb with mem := [(2 ^ 44 + 0xFFFFD, 7), (2 ^ 44 + 0xFFFFF, 9)] } : State)).map (fun l => l.map Prod.fst) =
    some [[.push 3 0 (.vec 5 [(0, 7), (2, 9)])]] := by decide
theorem test_vld_past_limit : trapOf (.vld k 0 3 2 0 0 0 30) (dev cb) = some (some 0x08) := by decide
theorem test_ldu : (writesOf (.ldu k 1 3 1 1 0x10) ({ dev cb with mem := [(2 ^ 44 + 80, 0xFF), (2 ^ 44 + 81, 0x80)] } : State)).map (fun l => l.map Prod.fst) =
    some [[.s 3 0x80FF]] := by decide
theorem test_amo : sees (.amo k 3 1 1 1 1 6) ({ dev cb with mem := [(2 ^ 44 + 64, 255)] } : State) (fun t => (t.mem, t.cur.work.map (fun w => w.writes))) =
    some ([(2 ^ 44 + 64, 6), (2 ^ 44 + 65, 1)], [[.s 3 255]]) := by decide

-- R31, R219
theorem test_qpop : (writesOf (.qpop k 3 1) (dev { c0 with queues := [(5, [⟨0, some (.uni 9)⟩])] })).map (fun l => l.map Prod.fst) = some [[.s 3 9]] := by decide
theorem test_qpop_empty : sees (.qpop k 3 1) (dev c0) (fun t => decide (t = dev c0)) = some true := by decide
theorem test_taglk_miss : (wrote (.taglk k 3 4)).map (fun e => e.1.map (fun w => match w with | .s n x => (n, x.getLsbD 31) | _ => (0, false))) = some [(3, true)] := by
  decide

-- R226, R223
theorem test_sleept : sees (.sleept k 4) (dev c0) (fun t => t.cur.hold) = some (.sleep 0xFFFFFFFF) := by decide
theorem test_exit : sees (.exit k) (dev c0) (fun t => (t.cur.endA, t.cur.endC)) = some (true, false) := by decide

-- R302, R303: class 2 enters 0x80 past the vector base, with the next word's address saved
theorem test_svc_core : sees (.svc k 5) (dev (core 0 true)) (fun t => (t.cur.pcA, t.cur.sys.map (fun y => (y.lvl, y.ie, y.sup)))) =
    some (0x8080, some (1, false, ⟨0x8000, 0x1008, 0x50002, 0, 4⟩)) := by decide
theorem test_svc_course : trapOf (.svc k 5) (dev c0) = some (some 0x70) := by decide
theorem test_eret : sees (.eret k) (dev (core 1)) (fun t => t.cur.sys.map (fun y => y.lvl)) = some (some 0) := by decide
theorem test_hvc_user : sees (.hvc k 0) (dev (core 0)) (fun t => (t.cur.pcA, t.cur.sys.map (fun y => y.sup.ecause))) = some (0x8180, some 0x6406) := by decide
theorem test_udf : trapOf (.udf 5 k) (dev c0) = some (some 0x60) := by decide
theorem test_monc_unknown : (writesOf (.moncUnknownService k 9) (dev (core 2))).map (fun l => l.map Prod.fst) = some [[.s 2 0xA4]] := by decide
theorem test_halt : sees (.halt k) (dev (core 1)) (fun t => t.cur.hold) = some .none := by decide
theorem test_tlbinv_course : trapOf (.tlbinvAll k) (dev c0) = some (some 0x64) := by decide
theorem test_mma_no_tiles : trapOf (.mma k 1 2 0 0 0 0 0) (devc c0) = some (some 0x65) := by decide
theorem test_cpy_malformed : trapOf (.cpy k 4 10) ({ dev c0 with mem := [(2 ^ 44 + 24, 1)] } : State) = some (some 0x40) := by decide

/-- The writes of a compute word in `c0`. -/
def wroteC (i : Instr) : Option (List RegWrite × Option Nat) := wrote i

-- R231, R234: threads 0 and 2 are live; a count of 33 shifts everything out; R44: the guard
theorem test_vadd : wroteC (.vadd (h) (op 1 2 3 0) .none) = some ([.v 1 0 8, .v 1 2 38], some 4) := by decide
theorem test_vadd_guard : wroteC (.vadd (h 8 1 1) (op 1 2 3 0) .none) = some ([.v 1 2 38], some 4) := by decide
theorem test_vadd_uniform : wroteC (.vadd (h 8 0 0 0 1) (op 5 3 3 0) (.imm 4)) = some ([.w 5 10], some 4) := by decide
theorem test_vsar : wroteC (.vsar (h) (op 1 2 3 0) .none) = some ([.v 1 0 0, .v 1 2 0xFFFFFFFF#32], some 4) := by decide
theorem test_vmin_unsigned : wroteC (.vmin (h 14) (op 1 2 3 0) .none) = some ([.v 1 0 3, .v 1 2 40], some 4) := by decide
theorem test_vcmp : wroteC (.vcmp (h) (op 3 2 3 2) .none) = some ([.p 3 5 4], some 4) := by decide
theorem test_plop : wroteC (.plop (h) (op 3 1 2 6) .none) = some ([.p 3 5 5], some 2) := by decide
-- R247: `p1` is true in thread 0; R246: 5 + -2 = 3, and the exclusive scan starts from 0
theorem test_ballot : wroteC (.ballot (h) (op 4 1 0 0) .none) = some ([.w 4 1, .w 5 0, .w 6 0], some 8) := by decide
theorem test_redux : wroteC (.redux (h) (op 1 2 0 0) .none) = some ([.v 1 0 3, .v 1 2 3], some 8) := by decide
theorem test_scan : wroteC (.scan (h) (op 1 2 0 8) .none) = some ([.v 1 0 0, .v 1 2 5], some 8) := by decide
-- R245: each thread reads thread 2's value
theorem test_shfl : wroteC (.shfl (h) (op 1 2 0 0) (.imm 2)) = some ([.v 1 0 0xFFFFFFFE#32, .v 1 2 0xFFFFFFFE#32], some 8) := by decide
-- R236, R237: 1 + 2, 4 + 2; 1 / 4; sqrt 4; 2 to the 4; log2 of 4
theorem test_fadd : wroteC (.fadd (h 0) (op 1 4 5 0) .none) = some ([.v 1 0 0x40400000#32, .v 1 2 0x40C00000#32], some 6) := by decide
theorem test_frcp : wroteC (.frcp (h 0) (op 1 4 0 0) .none) = some ([.v 1 0 0x3F800000#32, .v 1 2 0x3E800000#32], some 12) := by decide
theorem test_fsqrt : wroteC (.fsqrt (h 0) (op 1 4 0 0) .none) = some ([.v 1 0 0x3F800000#32, .v 1 2 0x40000000#32], some 12) := by decide
set_option exponentiation.threshold 1000 in
theorem test_fexp2 : wroteC (.fexp2 (h 0) (op 1 4 0 0) .none) = some ([.v 1 0 0x40000000#32, .v 1 2 0x41800000#32], some 12) := by decide
theorem test_flog2 : wroteC (.flog2 (h 0) (op 1 4 0 0) .none) = some ([.v 1 0 0, .v 1 2 0x40000000#32], some 12) := by decide
-- R241: -7 as a 32-bit integer is -7.0; R249: 1.0 + 2.0 through one token
theorem test_expr : (wroteC (.expr (h 0) ⟨1, 4, 5, 0, 0, 0x014FFFFFFFF⟩)).map Prod.fst = some [.v 1 0 0x40400000#32, .v 1 2 0x40C00000#32] := by decide
-- R69, R37: face A is the threads of `p1`; the branch leaves the others pending
theorem test_meld : (wroteC (.meld (h 0) (op 0 1 0 0) .none)).map (fun e => e.1.take 1) = some [.meld [.meld 5 1 1 false]] := by decide
theorem test_cbr : wroteC (.cbr (h 0 1) (op 0 0 0 0) (.off 2)) = some ([.recon [⟨5, 1, 0x2020, 0⟩], .w 29 4, .w 30 0, .w 31 0], some 2) := by decide
theorem test_cloop : sees (.cloop (h 0) (op 0 3 0 0) (.off 0xFFFFFFFF#32)) (dev c0) (fun t => (t.cur.pcC, t.cur.work.map (fun w => w.writes))) =
    some (0x1FF0#64, [[.w 3 5]]) := by decide
-- R290: 2 times 3 in thread 0, 4 times 0 in thread 2
theorem test_qmul : ((writesOf (.qmul (h 0) (op 3 1 2 0) .none) (dev cs)).map (fun l => l.flatMap (fun e => e.1.filter (fun w => match w with | .qe _ _ 0 _ => true | _ => false)))) =
    some [.qe 3 0 0 0x40C00000#32, .qe 3 2 0 0] := by decide

-- R35: a commit takes effect at its cycle and not before
theorem test_commit : sees (.fixedLatencyCommit 1 3) (flying (item .none (some 10) [.s 3 7])) (fun t => (t.cur.S 3, t.cur.work.length)) = some (7, 0) := by decide
theorem test_commit_early : sees (.fixedLatencyCommit 1 3) (flying (item .none (some 11) [.s 3 7])) (fun t => (t.cur.S 3, t.cur.work.length)) = some (0, 1) := by
  decide
theorem test_flag_falls : sees (.flagWorkComplete 1 3) (flying (item .none none [] (some 2))) (fun t => t.cur.flag 2) = some 0 := by decide
-- R302, R358: an enabled pending event enters class 7
theorem test_event_entry : sees (.eventEntry 0) (dev (core 1 true)) (fun t => (t.cur.pcA, t.cur.sys.map (fun y => y.sup.epc))) = some (0x81C0, some 0x1000) := by decide
theorem test_copy_start : sees (.copyStart 0 0) (copying false) (fun t => (t.chan 0 0).job.map (fun j => (j.started, j.data.length))) = some (some (true, 32)) := by
  decide
theorem test_copy_complete : sees (.copyComplete 0 0) (copying true) (fun t => (t.byte (2 ^ 44 + 0x100), t.byte (2 ^ 44 + 0x11F), (t.chan 0 0).job.isNone)) =
    some (7, 7, true) := by decide
-- R112, R391, R340, R17
theorem test_clock_held : sees (.clockChange 0 1999) ({ State.reset with dies := [(0, { Die.zero with proms := [(5, 2000)] })] } : State) (fun t => (t.die 0).mhz) =
    some 2400 := by decide
theorem test_boot_empty : sees (.boot true 3) State.reset (fun t => (t.monitor.bootStep, t.fabric)) = some (1, false) := by decide
theorem test_open_other_seq : sees (.openMsg 1 2 0) State.reset (fun t => t.outbox) = some [⟨1, 1, 2, 0xAB, []⟩] := by decide
theorem test_plane_switch : sees (.planeSwitchComplete 0) ({ State.reset with planes := [(1, { Plane.zero with st := .ready })] } : State) (fun t => (t.plane 0 1).st) =
    some .active := by decide
theorem test_no_power : (match step { State.reset with powered := false } with | .fault f => decide (f = .powerOff) | _ => false) = true := by decide
-- R181, R33: a word is fetched, decoded and issued; an event at the head of the agenda comes first
theorem test_step : (after (step mapped)).map (fun t => (t.cur.pcA, t.cur.work.map (fun w => w.writes))) = some (0x100008, [[.s 3 0]]) := by decide
theorem test_step_agenda : (after (step { mapped with agenda := [.lifeselWrite 7] })).map (fun t => (t.cur.pcA, t.dreg 0x8B0, t.agenda)) = some (0x100000, 7, []) := by
  decide

-- R195: a twin acts as the A word does: the link is the instruction's own address plus 8, in a unified course too
theorem test_call_unified : (sees (.call k 2) (dev { c0 with unified := true }) (fun t => t.cur.work.map (fun w => w.writes))) =
    some [[.s 56 0x2008, .s 57 0]] := by decide
-- R114, R5: bits [31:24] and [15:11] of a record's first word read zero
theorem test_record_zeros : ((c0.write (.record 0 0xFFFFFFFF#32)).recs) = [(0, 0x00FF07FF#32)] := by decide
-- R86, R243: under a scale that is a NaN every element is a NaN
theorem test_nan_scale : decodeI4x true (List.replicate 16 0x88) .nan 0 = List.replicate 32 XVal.nan := by decide
-- R123: the manual's G512 frame of N = 5: granule 0 lies in sub-channels 40 to 47, granule 3 in 0 to 7
theorem test_sub_channels : firstSub 3 (5 * 2 ^ 14) = 40 ∧ firstSub 3 (5 * 2 ^ 14 + 3 * 512) = 0 := by decide
-- R329: a 1 written to `FGO` leaves `FSTAT` pending
theorem test_fgo_pending : sees (.fgoWrite 0 1) ({ State.reset with mem := Memory.store [] 0 (bytesLE 4 0x8005) } : State) (fun t => (t.vf 0).fstat) = some 0xFF := by
  decide
-- R287: the sets of a melded QDIAG differ in mode; R233: VSEL has TYPE 8 alone
theorem test_illformed_modes :
    [Instr.qdiagGet (h 0 0 0 3) (op 1 2 0 0) (.setB (op 3 1 2 2)), .vsel (h 14) (op 1 2 3 1) .none].map Instr.check = [some .reserved, some .reserved] := by decide

-- R165, R357: the record of a streamed-out course says that it is trapped no more once its trap is settled, and where it goes on
theorem test_track_streamed_out :
    let s := { dev { c0 with trap := some (open_ 0x6E (some (0, 1))), resident := false, savedAt := some 0x3000 } with mem := Memory.store [] 0x3020 (bytesLE 4 0x5044) }
    sees (.trackSkip 0 1) s (fun t => (t.loadNat 0x3020 4, t.loadNat 0x3010 8, t.cur.trap.isNone)) = some (0x5040, 0x1008, true) := by decide


end Sys2Proof.Slice0
end

section
/-! SUPPORT. O44: the clause of `UNBIND` in `Claims.PlaneSteps` on a wall whose two lowest planes are both Active. -/

open Sys2Proof Sys2Proof.Machine

namespace Sys2Proof.Contexts

/-- A request to unbind plane 0 of wall 0, as it stands in the work of the core that issued it (R311). -/
def unbindRequest : Work :=
  { id := 1, stream := .addr, due := none, early := 0, late := none, sig := none, writes := [], act := .ctx 2 0 0 0 0 0 }

/-- A core of the hypervisor whose unbind request for plane 0 of wall 0 waits to be served. Planes 0 and 1 of that wall are both Active and hold no
course: a wall has one Active plane at a time (R17), but the statement speaks of every state. -/
def twoActivePlanes : State :=
  { State.reset with
    cur := { Course.blank with
      ident := 7, endC := true, work := [unbindRequest]
      sys := some { core := 0, lvl := 2, ie := false, asidr := 0, sup := TrapSet.zero, hyp := TrapSet.zero, evpend := 0, even := 0 } }
    planes := [(0, { Plane.zero with st := .active, asid := some 0 }), (1, { Plane.zero with st := .active, asid := some 0 })] }

/-- Plane 0 is the Active plane that the model finds first on the wall. -/
theorem activePlane_twoActivePlanes : twoActivePlanes.activePlane 0 = some 0 := by decide

/-- With plane 0 made Idle the wall still has an Active plane. -/
theorem activePlane_plane0_idle (x : Plane) (h : x.st = .idle) : (twoActivePlanes.setPlane 0 0 x).activePlane 0 = some 1 := by
  have h0 : (twoActivePlanes.setPlane 0 0 x).plane 0 0 = x := by simp [State.plane, State.setPlane, Sparse.get_set]
  have h1 : (twoActivePlanes.setPlane 0 0 x).plane 0 1 = twoActivePlanes.plane 0 1 := by simp [State.plane, State.setPlane, Sparse.get_set]
  have h1a : (twoActivePlanes.plane 0 1).st = .active := by decide
  simp [State.activePlane, List.range_succ, h0, h1, h1a, h]

/-- Refutes O44: the clause of `UNBIND` says that a wall has no Active plane once its first Active one has been freed. In `twoActivePlanes` every
hypothesis of the clause holds, and plane 1 is still Active afterwards: the statement does not suppose that a wall has one Active plane at most. -/
theorem not_contexts : ¬ Obligations.Contexts := by
  unfold Obligations.Contexts
  rintro ⟨-, hsteps⟩
  obtain ⟨hserve, -⟩ := hsteps twoActivePlanes 0 0 (by decide) (by decide)
  have hfocus : twoActivePlanes.focus 7 = some twoActivePlanes := by decide
  have holdest : ∀ e ∈ twoActivePlanes.ctxItems 0, unbindRequest.id ≤ e.2.id := by decide
  obtain ⟨-, -, -, -, -, -, hunbind, -⟩ :=
    hserve twoActivePlanes 7 1 unbindRequest 2 0 0 0 hfocus (by decide) rfl (by decide) rfl holdest
  obtain ⟨-, -, -, hnone⟩ := hunbind rfl (by decide) (by decide) (by decide) (.inr (by decide))
  have hleft := hnone activePlane_twoActivePlanes
  rw [activePlane_plane0_idle _ rfl] at hleft
  cases hleft

end Sys2Proof.Contexts
end

section
/-! SUPPORT. What the monitor, the attachment blocks, and a loss of power leave of the state, and what each operation of theirs can do. -/

namespace Sys2Proof.Machine

/-! Tables and lists. -/

theorem Sparse.mem_set {β : Type} [DecidableEq β] {m : Sparse β} {k : Nat} {x d : β} {a : Nat × β} (h : a ∈ Sparse.set m k x d) :
    a = (k, x) ∨ a ∈ m := by
  unfold Sparse.set at h
  split at h
  · exact .inr (List.mem_filter.1 h).1
  · exact Sparse.mem_put h

/-- What every write of a fold and every old entry satisfies, every entry of the table satisfies afterwards. -/
theorem Sparse.forall_mem_foldl_set {β : Type} [DecidableEq β] {d : β} {q : Nat → Prop} (key : Nat × β → Nat) (cs : List (Nat × β))
    (hcs : ∀ c ∈ cs, q (key c)) (m : Sparse β) (hm : ∀ c ∈ m, q c.1) :
    ∀ c ∈ cs.foldl (fun (m : Sparse β) (c : Nat × β) => Sparse.set m (key c) c.2 d) m, q c.1 := by
  induction cs generalizing m with
  | nil => exact hm
  | cons c r ih =>
    refine ih (fun e he => hcs e (List.mem_cons_of_mem _ he)) _ fun e he => ?_
    rcases Sparse.mem_set he with rfl | he
    · exact hcs c List.mem_cons_self
    · exact hm e he

/-! Caches that give sectors up (R307). -/

/-- What is revealed moves from `hostMem` into memory, and nothing else changes. -/
theorem State.reveal_eq (s : State) (n : Nat) : ∃ m h, s.reveal n = { s with mem := m, hostMem := h } := by
  unfold State.reveal
  split
  · exact ⟨s.mem, s.hostMem, rfl⟩
  · exact ⟨_, _, rfl⟩

theorem State.foldl_reveal_eq (ns : List Nat) (s : State) : ∃ m h, ns.foldl State.reveal s = { s with mem := m, hostMem := h } := by
  induction ns generalizing s with
  | nil => exact ⟨s.mem, s.hostMem, rfl⟩
  | cons n r ih =>
    obtain ⟨m, h, e⟩ := s.reveal_eq n
    obtain ⟨m', h', e'⟩ := ih (s.reveal n)
    exact ⟨m', h', by rw [List.foldl_cons, e', e]⟩

/-- An invalidation changes caches, and memory where it brings a host's bytes into sight. -/
theorem State.invalidateCaches_eq (s : State) (hit : Nat → Bool) :
    ∃ ls ws m h, s.invalidateCaches hit = { s with lines := ls, walls := ws, mem := m, hostMem := h } := by
  have hback : ∃ ls h, s.writeBack hit = { s with lines := ls, hostMem := h } := by
    unfold State.writeBack State.mergedHome
    dsimp only
    split
    · exact ⟨_, _, rfl⟩
    · exact ⟨_, _, rfl⟩
  obtain ⟨ls, h, e⟩ := hback
  unfold State.invalidateCaches State.revealAll
  rw [e]
  obtain ⟨m', h', e'⟩ := State.foldl_reveal_eq _ _
  exact ⟨_, _, m', h', e'⟩

/-- Where no host has written behind a cache, an invalidation changes the caches alone. -/
theorem State.invalidateCaches_eq_of_hostMem_nil {s : State} (h : s.hostMem = []) (hit : Nat → Bool) :
    ∃ ls ws, s.invalidateCaches hit = { s with lines := ls, walls := ws } := by
  simp only [State.invalidateCaches, State.writeBack, State.mergedHome, State.revealAll, h, if_pos, List.map_nil, List.dedup_nil, List.foldl_nil]
  exact ⟨_, _, rfl⟩

/-! The window of a client link (R327). -/

/-- A window that begins elsewhere changes caches, tags, releases and where the host's bytes stand. -/
theorem State.rebase_eq (s : State) (link : Nat) (old new : DWord) :
    ∃ ls ws m h ts rs, s.rebase link old new = { s with lines := ls, walls := ws, mem := m, hostMem := h, tags := ts, rels := rs } := by
  unfold State.rebase
  split
  · exact ⟨s.lines, s.walls, s.mem, s.hostMem, s.tags, s.rels, rfl⟩
  · dsimp only
    generalize hi : s.invalidateCaches _ = t
    obtain ⟨ls, ws, m, h, rfl⟩ := hi ▸ s.invalidateCaches_eq _
    exact ⟨_, _, _, _, _, _, rfl⟩

@[simp] theorem State.rebase_windows (s : State) (link : Nat) (old new : DWord) : (s.rebase link old new).windows = s.windows := by
  obtain ⟨_, _, _, _, _, _, e⟩ := s.rebase_eq link old new
  rw [e]

theorem State.rebase_self (s : State) (link : Nat) (base : DWord) : s.rebase link base base = s := by simp [State.rebase]

/-- A byte of client memory as a device without a number keeps it: at its window, or at its place beyond every window. -/
def ClientByte (a : Nat) : Prop := 2 ^ 160 ≤ a ∨ rgn a = 2

/-- Where a re-based window leaves a byte of its host: at an offset of the window, or beyond it. -/
theorem clientByte_place {link : Nat} (hl : link ≤ 1) (x y : Nat) :
    ClientByte (if x < 2 ^ 40 then 0 * 2 ^ 46 + 2 ^ 45 + link * 2 ^ 40 + x else hostKey link y) := by
  split
  · next hx =>
    right
    unfold rgn
    omega
  · left
    unfold hostKey
    omega

/-- A window that begins elsewhere leaves client memory client memory. -/
theorem State.rebase_clientBytes {s : State} (hh : s.hostMem = []) (hd : s.did = 0) {link : Nat} (hl : link ≤ 1) (old new : DWord)
    (hm : ∀ c ∈ s.mem, ClientByte c.1) :
    (s.rebase link old new).hostMem = [] ∧ ∀ c ∈ (s.rebase link old new).mem, ClientByte c.1 := by
  unfold State.rebase
  split
  · exact ⟨hh, hm⟩
  · dsimp only
    generalize hi : s.invalidateCaches _ = t
    obtain ⟨ls, ws, rfl⟩ := hi ▸ State.invalidateCaches_eq_of_hostMem_nil hh _
    refine ⟨hh, Sparse.forall_mem_foldl_set _ _ (fun c _ => ?_) _ fun c hc => hm c (List.mem_filter.1 hc).1⟩
    simp only [hd]
    exact clientByte_place hl _ _

end Sys2Proof.Machine
end

section
/-! SUPPORT. The attachment registers (R326 to R329). -/

namespace Sys2Proof.Machine

/-! A function's block: who answers an access to it (R326, R391). -/

section
variable {s : State} {vf : Nat} {f : State → State}

theorem State.enabled_le (h : s.enabled vf = true) : vf ≤ 257 := by
  simp only [State.enabled, Bool.or_eq_true, beq_iff_eq, Bool.and_eq_true, decide_eq_true_eq] at h
  omega

theorem State.hosted_held (h : s.monitor.bootStep = 1) : s.hosted f = s := if_pos h

theorem State.hosted_up (h : s.monitor.bootStep ≠ 1) : s.hosted f = f s := if_neg h

/-- Held at step 1 of boot, or at a function that there is not, an access does nothing. -/
theorem State.onFunction_ignored (h : 257 < vf ∨ s.monitor.bootStep = 1) : s.onFunction vf f = s := by
  by_cases hb : s.monitor.bootStep = 1
  · exact State.hosted_held hb
  · have hv : 257 < vf := h.resolve_right hb
    simp [State.onFunction, State.hosted_up hb, hv]

theorem State.onFunction_disabled (hv : vf ≤ 257) (hup : s.monitor.bootStep ≠ 1) (he : s.enabled vf = false) :
    s.onFunction vf f = s.answer .unsupported := by
  simp [State.onFunction, State.hosted_up hup, Nat.not_lt.2 hv, he]

theorem State.onFunction_enabled (he : s.enabled vf = true) (hup : s.monitor.bootStep ≠ 1) : s.onFunction vf f = f s := by
  simp [State.onFunction, State.hosted_up hup, Nat.not_lt.2 (State.enabled_le he), he]

/-- An access to an enabled function that its block ignores does nothing, held or not. -/
theorem State.onFunction_idle (he : s.enabled vf = true) (hf : f s = s) : s.onFunction vf f = s := by
  by_cases hb : s.monitor.bootStep = 1
  · exact State.hosted_held hb
  · rw [State.onFunction_enabled he hb, hf]

end

@[simp] theorem State.vf_setVf (s : State) (vf : Nat) (x : Vf) : (s.setVf vf x).vf vf = x := by
  simp [State.vf, State.setVf, Sparse.get_set]

@[simp] theorem State.vf_accept (s : State) (vf : Nat) (w : DWord) (n : Nat) : (s.accept vf w).vf n = s.vf n := rfl

/-! The verdict on a function's accepted words (R329). -/

/-- Whether the accepted words of a function ask for a feature that is not offered, leave out feature 0, or have a bit set in words 1 to 3. -/
def State.overreaches (s : State) (vf : Nat) : Bool :=
  let x := s.vf vf
  let w0 := (Sparse.get x.accept 0 0).toNat
  (List.range 64).any (fun i => ebit w0 i && !ebit (s.offered (decide (256 ≤ vf))) i) || !ebit w0 0 ||
    [1, 2, 3].any (fun k => Sparse.get x.accept k 0 != 0)

theorem State.overreaches_iff (s : State) (vf : Nat) :
    s.overreaches vf = true ↔
      let w0 := (Sparse.get (s.vf vf).accept 0 0).toNat
      (∃ i < 64, ebit w0 i = true ∧ ebit (s.offered (decide (256 ≤ vf))) i = false) ∨ ebit w0 0 = false ∨
        ∃ k, 1 ≤ k ∧ k ≤ 3 ∧ Sparse.get (s.vf vf).accept k 0 ≠ 0 := by
  have hwords : ∀ q : Nat → Prop, (q 1 ∨ q 2 ∨ q 3) ↔ ∃ k, 1 ≤ k ∧ k ≤ 3 ∧ q k := by
    intro q
    constructor
    · rintro (h | h | h)
      · exact ⟨1, by omega, by omega, h⟩
      · exact ⟨2, by omega, by omega, h⟩
      · exact ⟨3, by omega, by omega, h⟩
    · rintro ⟨k, h1, h3, h⟩
      interval_cases k
      · exact .inl h
      · exact .inr (.inl h)
      · exact .inr (.inr h)
  simp [State.overreaches, ← hwords, or_assoc]

section
variable {s : State} {vf a : Nat}

theorem State.negotiated_overreaching (h : s.overreaches vf = true) :
    s.negotiated vf = s.setVf vf { s.vf vf with fstat := 0xA1 } := by
  unfold State.overreaches at h
  simp only [State.negotiated, h, if_true]
  rfl

theorem State.negotiated_busy (h : s.overreaches vf = false) (hv : vf < 256) (ha : s.vfAsid vf = some a) (hb : s.busyAsid a = true) :
    s.negotiated vf = s.setVf vf { s.vf vf with fstat := 0xA5 } := by
  unfold State.overreaches at h
  simp only [State.negotiated, h, hv, ha, hb, if_true, Option.map_some, Option.getD_some]
  rfl

theorem State.negotiated_accepted (h : s.overreaches vf = false) (hv : vf < 256) (ha : s.vfAsid vf = some a) (hb : s.busyAsid a = false) :
    s.negotiated vf = (s.setVf vf { s.vf vf with fstat := 0 }).accept vf (BitVec.ofNat 64 (Sparse.get (s.vf vf).accept 0 0).toNat) := by
  unfold State.overreaches at h
  simp only [State.negotiated, h, hv, ha, hb, if_true, Option.map_some, Option.getD_some]
  rfl

/-- The acceptance of a function that is bound to an ASID is that ASID's latest. -/
theorem State.functionsAccepted_accept (ha : s.vfAsid vf = some a) (w : DWord) : (s.accept vf w).functionsAccepted a = w := by
  have hv : ∀ n, (s.accept vf w).vfAsid n = s.vfAsid n := fun _ => rfl
  have hacc : (s.accept vf w).accepted = s.accepted.filter (fun e => e.1 != vf) ++ [(vf, w)] := rfl
  simp [State.functionsAccepted, hv, hacc, List.filter_append, ha]

end

/-! Writes of `FACCEPT` (R327, R329) and of the window registers (R327). -/

section
variable {s : State}

theorem State.faccept_ignored {vf k : Nat} (h : (s.vf vf).fstat = 0xFF ∨ 3 < k) (x : DWord) : s.faccept vf k x = s := if_pos h

theorem State.faccept_taken {vf k : Nat} (h : (s.vf vf).fstat ≠ 0xFF) (hk : k ≤ 3) (x : DWord) :
    s.faccept vf k x = s.setVf vf { s.vf vf with accept := Sparse.set (s.vf vf).accept k x 0 } := if_neg (not_or.2 ⟨h, Nat.not_lt.2 hk⟩)

variable {link : Nat} {x : DWord}

theorem State.windowWrite_noLink (h : 1 < link) (r : WinReg) : s.windowWrite link r x = s := if_pos h

/-- While a window is enabled its registers take no write but one that disables it. -/
theorem State.windowWrite_enabled (h : (Sparse.get s.windows link Window.zero).ctl.getLsbD 0 = true) (r : WinReg)
    (hr : r = .ctl → x.getLsbD 0 = true) : s.windowWrite link r x = s := by
  cases r with
  | base => simp only [State.windowWrite, h, if_true, ite_self]
  | len => simp only [State.windowWrite, h, true_or, if_true, ite_self]
  | ctl => simp only [State.windowWrite, h, hr rfl, and_self, if_true, ite_self]

theorem State.windowWrite_base (hl : link ≤ 1) (h : (Sparse.get s.windows link Window.zero).ctl.getLsbD 0 = false) :
    Sparse.get (s.windowWrite link .base x).windows link Window.zero = { Sparse.get s.windows link Window.zero with base := x } := by
  simp only [State.windowWrite, Nat.not_lt.2 hl, h, Bool.false_eq_true, if_false, State.rebase_windows, Sparse.get_set, if_true]

theorem State.windowWrite_len (hl : link ≤ 1) (h : (Sparse.get s.windows link Window.zero).ctl.getLsbD 0 = false)
    (hx : x.toNat % 2 ^ 14 = 0) (hx' : x.toNat ≤ 2 ^ 40) :
    Sparse.get (s.windowWrite link .len x).windows link Window.zero = { Sparse.get s.windows link Window.zero with len := x } := by
  have hfit : ¬ ((Sparse.get s.windows link Window.zero).ctl.getLsbD 0 = true ∨ x.toNat % 2 ^ 14 ≠ 0 ∨ 2 ^ 40 < x.toNat) := by
    rintro (hon | hlen | hlen)
    · exact Bool.false_ne_true (h.symm.trans hon)
    · exact hlen hx
    · omega
  simp only [State.windowWrite, Nat.not_lt.2 hl, if_false, if_neg hfit, Sparse.get_set, if_true]

theorem State.windowWrite_ctl (hl : link ≤ 1)
    (h : (Sparse.get s.windows link Window.zero).ctl.getLsbD 0 = false ∨ x.getLsbD 0 = false) :
    (Sparse.get (s.windowWrite link .ctl x).windows link Window.zero).ctl.toNat = x.toNat % 4 := by
  have hfree : ¬ ((Sparse.get s.windows link Window.zero).ctl.getLsbD 0 = true ∧ x.getLsbD 0 = true) := by
    rintro ⟨hw, hx⟩
    rcases h with h | h
    · exact Bool.false_ne_true (h.symm.trans hw)
    · exact Bool.false_ne_true (h.symm.trans hx)
  have hlow : (lo32 x &&& 3).toNat = x.toNat % 4 := by
    have hmask : (3 : Word).toNat = 2 ^ 2 - 1 := rfl
    rw [BitVec.toNat_and, hmask, Nat.and_two_pow_sub_one_eq_mod, lo32, BitVec.extractLsb'_toNat, Nat.shiftRight_zero]
    omega
  simp only [State.windowWrite, Nat.not_lt.2 hl, if_false, if_neg hfree, Sparse.get_set, if_true, hlow]

end

end Sys2Proof.Machine

open Sys2Proof Sys2Proof.Machine

namespace Sys2Proof.HostAndMonitor

/-- The verdict that a pending function gets (R329). -/
theorem negotiate_pending {s : State} {vf : Nat} (h : (s.vf vf).fstat = 0xFF) : negotiate vf s = .next (s.negotiated vf) := by
  rw [negotiate, if_pos h]

theorem hostRegisters : Claims.HostRegisters := by
  intro s vf v x
  refine ⟨?_, ?_, ?_, ?_, ?_, ?_, ?_, ?_, ?_, ?_⟩
  · intro h
    exact ⟨congrArg _ (State.onFunction_ignored h), fun k => congrArg _ (State.onFunction_ignored h)⟩
  · intro h link r
    exact congrArg _ (State.hosted_held h)
  · intro hv hup he
    exact ⟨congrArg _ (State.onFunction_disabled hv hup he), fun k => congrArg _ (State.onFunction_disabled hv hup he)⟩
  · intro he hv
    exact congrArg _ (State.onFunction_idle he (if_neg hv))
  · intro he hup
    refine ⟨s.setVf vf { s.vf vf with fstat := 0xFF }, congrArg _ (State.onFunction_enabled he hup), ?_, ?_, rfl, rfl⟩
    · rw [State.vf_setVf]
    · rw [State.vf_setVf]
  · intro hp
    dsimp only
    rw [negotiate_pending hp, ← State.overreaches_iff]
    refine ⟨fun hbad => ?_, fun hgood a hv ha => ⟨fun hb => ?_, fun hb => ?_⟩⟩
    · exact ⟨_, rfl, by rw [State.negotiated_overreaching hbad, State.vf_setVf], by rw [State.negotiated_overreaching hbad]; rfl⟩
    · have e := State.negotiated_busy (by simpa using hgood) hv ha hb
      exact ⟨_, rfl, by rw [e, State.vf_setVf], by rw [e]; rfl⟩
    · have e := State.negotiated_accepted (by simpa using hgood) hv ha hb
      refine ⟨_, rfl, by rw [e, State.vf_accept, State.vf_setVf], by rw [e]; rfl, ?_⟩
      rw [e]
      exact State.functionsAccepted_accept (s := s.setVf vf { s.vf vf with fstat := 0 }) ha _
  · intro k he h
    exact congrArg _ (State.onFunction_idle he (State.faccept_ignored h x))
  · intro k hk he hup hp
    have e : s.onFunction vf (fun s => s.faccept vf k x) = _ := (State.onFunction_enabled he hup).trans (State.faccept_taken hp hk x)
    refine ⟨_, congrArg Host.Outcome.next e, ?_, ?_, rfl⟩
    · rw [State.vf_setVf, Sparse.get_set, if_pos rfl]
    · rw [State.vf_setVf]
  · intro link
    have hsame : ∀ r y, s.windowWrite link r y = s → exec (.windowRegisterWrite link r y) s = .next s := by
      intro r y h
      by_cases hb : s.monitor.bootStep = 1
      · exact congrArg _ (State.hosted_held hb)
      · exact congrArg _ ((State.hosted_up hb).trans h)
    have htaken : ∀ r, s.monitor.bootStep ≠ 1 → exec (.windowRegisterWrite link r x) s = .next (s.windowWrite link r x) :=
      fun r hup => congrArg _ (State.hosted_up hup)
    refine ⟨fun hl r => hsame r x (State.windowWrite_noLink hl r), fun hon => ⟨?_, ?_, fun hx => ?_⟩, fun hl hup hoff => ⟨?_, fun h1 h2 => ?_⟩,
      fun hl hup h => ?_⟩
    · exact hsame _ x (State.windowWrite_enabled hon _ nofun)
    · exact hsame _ x (State.windowWrite_enabled hon _ nofun)
    · exact hsame _ x (State.windowWrite_enabled hon _ fun _ => hx)
    · exact ⟨_, htaken _ hup, State.windowWrite_base hl hoff⟩
    · exact ⟨_, htaken _ hup, State.windowWrite_len hl hoff h1 h2⟩
    · exact ⟨_, htaken _ hup, State.windowWrite_ctl hl h⟩
  · exact ⟨_, rfl, by simp [State.dreg, Sparse.get_set], rfl⟩

end Sys2Proof.HostAndMonitor
end

section
/-! SUPPORT. Boot, updates of the flash, and the loss of power (R22, R334 to R336, R391, R392). -/

namespace Sys2Proof.Machine

/-! Verdicts depend on the fuses alone (R332), and what updates of the monitor change. -/

theorem Monitor.verdict_congr {m n : Monitor} (hk : m.keys = n.keys) (hs : m.svn = n.svn) (b : Image) : m.verdict b = n.verdict b := by
  simp only [Monitor.verdict, hk, hs]

theorem Monitor.slotOk_congr {m n : Monitor} (hk : m.keys = n.keys) (hs : m.svn = n.svn) (is : List Image) : m.slotOk is = n.slotOk is := by
  simp only [Monitor.slotOk, Monitor.verdict_congr hk hs]

theorem Monitor.foldl_measure_eq (is : List Image) (m : Monitor) : ∃ x, is.foldl Monitor.measure m = { m with meas := x } := by
  induction is generalizing m with
  | nil => exact ⟨m.meas, rfl⟩
  | cons i r ih =>
    obtain ⟨x, e⟩ := ih (m.measure i)
    exact ⟨x, e⟩

theorem Monitor.foldl_lifeAdd_eq (es : List (Nat × Nat)) (m : Monitor) :
    ∃ x, es.foldl (fun (m : Monitor) (e : Nat × Nat) => m.lifeAdd e.1 e.2) m = { m with lifeNow := x } := by
  induction es generalizing m with
  | nil => exact ⟨m.lifeNow, rfl⟩
  | cons e r ih =>
    obtain ⟨x, h⟩ := ih (m.lifeAdd e.1 e.2)
    exact ⟨x, h⟩

/-- The measurement register of an accepted image's kind is extended by its digest (R336). -/
theorem Monitor.reg_measure (m : Monitor) (b : Image) :
    (m.measure b).reg (imgKind b - 1) = Config.sha3 (m.reg (imgKind b - 1) ++ imgDigest b) :=
  Sparse.get_put_self _ _ _ _

/-! Markers (R334, R335). -/

/-- A marker that is written is the one in force: its sequence number is above that of the copy it leaves standing. -/
theorem Monitor.marker_writeMarker (m : Monitor) (b trial : Bool) (tries : Nat) :
    ∃ n, (m.writeMarker b trial tries).marker = some { seq := n, slotB := b, trial := trial, tries := tries } := by
  refine ⟨((m.marker).map (fun k => k.seq)).getD 0 + 1, ?_⟩
  cases h0 : m.mark0 with
  | none => cases h1 : m.mark1 <;> simp [Monitor.writeMarker, Monitor.marker, Monitor.intoFirst, h0, h1]
  | some x =>
    cases h1 : m.mark1 with
    | none => simp [Monitor.writeMarker, Monitor.marker, Monitor.intoFirst, h0, h1]
    | some y => by_cases hxy : x.seq < y.seq <;> simp [Monitor.writeMarker, Monitor.marker, Monitor.intoFirst, h0, h1, hxy]

@[simp] theorem Monitor.slot_writeMarker (m : Monitor) (b trial : Bool) (tries : Nat) (c : Bool) :
    (m.writeMarker b trial tries).slot c = m.slot c := by
  unfold Monitor.writeMarker
  dsimp only
  split <;> rfl

/-! Images of a slot (R334, R335). -/

/-- The monitor with a slot written whole. -/
def Monitor.fill (m : Monitor) (b : Bool) (imgs : List Image) : Monitor := if b then { m with slotB := imgs } else { m with slotA := imgs }

section
variable (m : Monitor) (b : Bool) (imgs : List Image)

@[simp] theorem Monitor.slot_fill_self : (m.fill b imgs).slot b = imgs := by cases b <;> rfl
@[simp] theorem Monitor.slot_fill_other : (m.fill b imgs).slot (!b) = m.slot (!b) := by cases b <;> rfl
@[simp] theorem Monitor.keys_fill : (m.fill b imgs).keys = m.keys := by cases b <;> rfl
@[simp] theorem Monitor.svn_fill : (m.fill b imgs).svn = m.svn := by cases b <;> rfl
@[simp] theorem Monitor.marker_fill : (m.fill b imgs).marker = m.marker := by cases b <;> rfl

end

/-- The slot that an update writes: the one that the marker in force does not name (R335). -/
def Monitor.idleSlot (m : Monitor) : Bool := !((m.marker.map (fun k => k.slotB)).getD m.runB)

/-- The monitor once its inactive slot has been written with these images, and those accepted have been measured. -/
def Monitor.refilled (m : Monitor) (imgs : List Image) : Monitor :=
  (imgs.filter (fun i => (m.fill m.idleSlot imgs).verdict i == 0)).foldl Monitor.measure (m.fill m.idleSlot imgs)

/-- The monitor once a slot has been updated (R335). -/
def Monitor.updated (m : Monitor) (imgs : List Image) : Monitor :=
  if (m.refilled imgs).slotOk imgs then (m.refilled imgs).writeMarker m.idleSlot true 3 else m.refilled imgs

/-- Measuring the images keeps the slots, the fuses and the marker. -/
theorem Monitor.refilled_eq (m : Monitor) (imgs : List Image) : ∃ x, m.refilled imgs = { m.fill m.idleSlot imgs with meas := x } :=
  Monitor.foldl_measure_eq _ _

section
variable (m : Monitor) (imgs : List Image)

theorem Monitor.slotOk_refilled : (m.refilled imgs).slotOk imgs = m.slotOk imgs := by
  obtain ⟨x, e⟩ := m.refilled_eq imgs
  rw [e]
  exact Monitor.slotOk_congr (m.keys_fill _ imgs) (m.svn_fill _ imgs) imgs

theorem Monitor.slot_refilled_self : (m.refilled imgs).slot m.idleSlot = imgs := by
  obtain ⟨x, e⟩ := m.refilled_eq imgs
  rw [e]
  exact m.slot_fill_self _ imgs

theorem Monitor.slot_refilled_other : (m.refilled imgs).slot (!m.idleSlot) = m.slot (!m.idleSlot) := by
  obtain ⟨x, e⟩ := m.refilled_eq imgs
  rw [e]
  exact m.slot_fill_other _ imgs

theorem Monitor.marker_refilled : (m.refilled imgs).marker = m.marker := by
  obtain ⟨x, e⟩ := m.refilled_eq imgs
  rw [e]
  exact m.marker_fill _ imgs

/-- R335: the update fills the inactive slot and leaves the other. -/
theorem Monitor.slot_updated :
    (m.updated imgs).slot m.idleSlot = imgs ∧ (m.updated imgs).slot (!m.idleSlot) = m.slot (!m.idleSlot) := by
  unfold Monitor.updated
  split
  · simp only [Monitor.slot_writeMarker, Monitor.slot_refilled_self, Monitor.slot_refilled_other, and_self]
  · exact ⟨m.slot_refilled_self imgs, m.slot_refilled_other imgs⟩

variable {m imgs}

theorem Monitor.marker_updated_refused (h : m.slotOk imgs = false) : (m.updated imgs).marker = m.marker := by
  rw [Monitor.updated, Monitor.slotOk_refilled, h, if_neg Bool.false_ne_true, Monitor.marker_refilled]

/-- R335: an accepted set of images is on trial, with three tries. -/
theorem Monitor.marker_updated_accepted (h : m.slotOk imgs = true) :
    ∃ k, (m.updated imgs).marker = some k ∧ k.slotB = m.idleSlot ∧ k.trial = true ∧ k.tries = 3 := by
  rw [Monitor.updated, Monitor.slotOk_refilled, h, if_pos rfl]
  obtain ⟨n, hn⟩ := (m.refilled imgs).marker_writeMarker m.idleSlot true 3
  exact ⟨_, hn, rfl, rfl, rfl⟩

end

theorem kindIn_replaced_self (is : List Image) (img : Image) :
    kindIn (is.filter (fun b => imgKind b != imgKind img) ++ [img]) (imgKind img) = some img := by
  have hnone : (is.filter (fun b => imgKind b != imgKind img)).find? (fun b => imgKind b == imgKind img) = none := by
    simp [List.find?_eq_none]
  simp [kindIn, List.find?_append, hnone]

theorem kindIn_replaced_other (is : List Image) (img : Image) {k : Nat} (h : k ≠ imgKind img) :
    kindIn (is.filter (fun b => imgKind b != imgKind img) ++ [img]) k = kindIn is k := by
  have hkept : (is.filter (fun b => imgKind b != imgKind img)).find? (fun b => imgKind b == k) = is.find? (fun b => imgKind b == k) := by
    rw [List.find?_filter]
    congr 1
    funext b
    by_cases hb : imgKind b = k
    · simp [hb, h]
    · simp [hb]
  simp [kindIn, List.find?_append, hkept, Ne.symm h]

/-! Life-long counters (R392). -/

theorem State.lifeRun_eq (s : State) :
    ∃ l, s.lifeRun = { s with monitor := { s.monitor with lifeNow := l, lifeTick := s.count 0 }, free := s.free + 60 } := by
  unfold State.lifeRun
  dsimp only
  generalize List.flatMap _ _ = bins
  obtain ⟨l, e⟩ := Monitor.foldl_lifeAdd_eq bins (s.monitor.lifeAdd 0 ((s.count 0).toNat - s.monitor.lifeTick.toNat))
  rw [e]
  exact ⟨l, rfl⟩

theorem State.bootBegun_eq (s : State) :
    ∃ l t f, s.bootBegun = { s with monitor := { s.monitor with lifeNow := l, lifeTick := t }, free := f } := by
  unfold State.bootBegun
  split
  · obtain ⟨l, e⟩ := s.lifeRun_eq
    exact ⟨l, _, _, e⟩
  · exact ⟨_, _, _, rfl⟩

/-- Neither slot changes as a boot begins, nor whether its images are accepted. -/
theorem State.slotOk_bootBegun (s : State) :
    s.bootBegun.monitor.slotOk s.bootBegun.monitor.slotA = s.monitor.slotOk s.monitor.slotA ∧
      s.bootBegun.monitor.slotOk s.bootBegun.monitor.slotB = s.monitor.slotOk s.monitor.slotB := by
  obtain ⟨l, t, f, e⟩ := s.bootBegun_eq
  rw [e]
  exact ⟨Monitor.slotOk_congr rfl rfl _, Monitor.slotOk_congr rfl rfl _⟩

/-! Boot (R335, R336). -/

/-- With no good slot the monitor stays at step 1. -/
theorem State.bootUp_held {s : State} (hA : s.monitor.slotOk s.monitor.slotA = false) (hB : s.monitor.slotOk s.monitor.slotB = false) :
    ∃ m f, s.bootUp = { s with powered := true, monitor := m, free := f } ∧ m.bootStep = 1 := by
  obtain ⟨hokA, hokB⟩ := s.slotOk_bootBegun
  obtain ⟨l, t, f, e⟩ := s.bootBegun_eq
  unfold State.bootUp
  dsimp only
  rw [hokA, hokB, if_pos (by simp [hA, hB]), e]
  exact ⟨_, _, rfl, rfl⟩

theorem State.foldl_loadImage_eq (is : List Image) (s : State) : ∃ m p, is.foldl State.loadImage s = { s with mem := m, poison := p } := by
  have hone : ∀ (s : State) i, ∃ m p, s.loadImage i = { s with mem := m, poison := p } := by
    intro s i
    unfold State.loadImage State.unitStore State.cleanseRange
    split
    · exact ⟨_, s.poison, rfl⟩
    · exact ⟨_, _, rfl⟩
  induction is generalizing s with
  | nil => exact ⟨s.mem, s.poison, rfl⟩
  | cons i r ih =>
    obtain ⟨m, p, e⟩ := hone s i
    obtain ⟨m', p', e'⟩ := ih (s.loadImage i)
    exact ⟨m', p', by rw [List.foldl_cons, e', e]⟩

/-- With a good slot the cores start, on the device as it was, at step 4. -/
theorem State.bootUp_started {s : State} (h : s.monitor.slotOk s.monitor.slotA = true ∨ s.monitor.slotOk s.monitor.slotB = true) :
    ∃ (r : State) (pc : DWord), s.bootUp = r.startCores pc ∧ r.powered = true ∧ r.monitor.bootStep = 4 ∧ r.fabric = s.fabric ∧ r.did = s.did := by
  have hgood : ¬ ((!s.monitor.slotOk s.monitor.slotA) = true ∧ (!s.monitor.slotOk s.monitor.slotB) = true) := by
    rintro ⟨hA, hB⟩
    rcases h with h | h
    · simp [h] at hA
    · simp [h] at hB
  obtain ⟨hokA, hokB⟩ := s.slotOk_bootBegun
  obtain ⟨l, t, f, e⟩ := s.bootBegun_eq
  unfold State.bootUp
  dsimp only
  rw [hokA, hokB, if_neg hgood, e]
  refine ⟨_, _, rfl, ?_⟩
  generalize hr : List.foldl State.loadImage _ _ = r
  obtain ⟨m, p, rfl⟩ := hr ▸ State.foldl_loadImage_eq _ _
  exact ⟨rfl, rfl, rfl, rfl⟩

theorem State.agents_startCores (s : State) (pc : DWord) :
    (s.startCores pc).agents = (List.range 16).map (fun n => startCore n (identity 2 (s.nextStart + n)) pc) := rfl

/-! The device's number (R22). -/

/-- What stood at an address of the device's own stands at the same place under its number. -/
theorem Sparse.get_renumbered {β : Type} (m : Sparse β) (d : β) {dev size a : Nat} (hdev : dev < 64) (ha : a < size) :
    Sparse.get ((m.filter (fun e => e.1 < size || 64 * size ≤ e.1)).map (fun (e : Nat × β) => (renumbered dev size e.1, e.2)))
      (a + dev * size) d = Sparse.get m a d := by
  have hin : a + dev * size < 64 * size := by
    have hle : (dev + 1) * size ≤ 64 * size := Nat.mul_le_mul_right _ hdev
    rw [Nat.succ_mul] at hle
    omega
  induction m with
  | nil => rfl
  | cons e r ih =>
    by_cases hown : e.1 < size
    · by_cases hk : e.1 = a
      · simp [Sparse.get, renumbered, hk, ha]
      · simpa [Sparse.get, renumbered, hown, hk] using ih
    · have hk : e.1 ≠ a := by omega
      by_cases hfar : 64 * size ≤ e.1
      · have hk' : e.1 ≠ a + dev * size := by omega
        simpa [Sparse.get, renumbered, hown, hfar, hk, hk'] using ih
      · simpa [Sparse.get, hown, hfar, hk] using ih

theorem State.byte_renumber {s : State} (h : s.hostMem = []) {dev a : Nat} (hdev : dev < 64) (ha : a < 2 ^ 46) :
    (s.renumber dev).byte (a + dev * 2 ^ 46) = s.byte a := by
  obtain ⟨ls, ws, e⟩ := State.invalidateCaches_eq_of_hostMem_nil h (fun _ => true)
  unfold State.renumber
  rw [e]
  exact Sparse.get_renumbered s.mem 0 hdev ha

/-! The loss of power (R20, R334, R391). -/

/-- What a write that is cut leaves of the monitor: its marker copies and its fuse counters are all that may change. -/
theorem State.cutWrite_eq (s : State) (m : Monitor) : ∃ m0 m1 v, s.cutWrite m = { m with mark0 := m0, mark1 := m1, svn := v } := by
  unfold State.cutWrite Monitor.cutMarker
  split
  · split
    · exact ⟨_, _, _, rfl⟩
    · split <;> exact ⟨_, _, _, rfl⟩
  · split <;> exact ⟨_, _, _, rfl⟩

/-- No fuses are being blown: a write that is cut leaves the counters. -/
theorem State.cutWrite_svn {s : State} (h : ∀ k o, s.monitor.burning ≠ some (k, o, s.nextId)) (m : Monitor) : (s.cutWrite m).svn = m.svn := by
  have hmarker : m.cutMarker.svn = m.svn := by
    unfold Monitor.cutMarker
    split <;> rfl
  unfold State.cutWrite
  split
  · next kind old id hb =>
    have hid : ¬ s.nextId = id := fun hid => h kind old (hid ▸ hb)
    rw [if_neg hid]
    exact hmarker
  · exact hmarker

theorem State.cutWrite_burning {s : State} {kind old : Nat} (h : s.monitor.burning = some (kind, old, s.nextId)) (m : Monitor) :
    s.cutWrite m = m.cutCommit kind old (Config.freeNat s.free) := by
  simp only [State.cutWrite, h, if_true]

/-- Fuses that are blown one by one leave a counter between its old number and its new one, and touch no other (log entry 117, DESIGN CHOICE). -/
theorem Monitor.svn_cutCommit {m : Monitor} {kind old : Nat} (h : old ≤ Sparse.get m.svn kind 0) (x : Nat) :
    old ≤ Sparse.get (m.cutCommit kind old x).svn kind 0 ∧ Sparse.get (m.cutCommit kind old x).svn kind 0 ≤ Sparse.get m.svn kind 0 ∧
      ∀ k, k ≠ kind → Sparse.get (m.cutCommit kind old x).svn k 0 = Sparse.get m.svn k 0 := by
  have hlt : x % (Sparse.get m.svn kind 0 - old + 1) < Sparse.get m.svn kind 0 - old + 1 := Nat.mod_lt _ (Nat.succ_pos _)
  have hself : Sparse.get (m.cutCommit kind old x).svn kind 0 = old + x % (Sparse.get m.svn kind 0 - old + 1) := by
    simp [Monitor.cutCommit, Sparse.get_set]
  refine ⟨by omega, by omega, fun k hk => ?_⟩
  simp [Monitor.cutCommit, Sparse.get_set, hk]

/-- What lasts of memory is client memory. -/
theorem State.persistent_clientBytes (s : State) : ∀ c ∈ s.persistent, ClientByte c.1 := by
  intro c hc
  simp only [State.persistent, List.mem_append, List.mem_map, List.mem_filter] at hc
  rcases hc with ⟨o, ⟨-, ho⟩, rfl⟩ | ⟨-, hc⟩
  · right
    simp only [State.isLocal, Bool.and_eq_true, beq_iff_eq, rgn] at ho ⊢
    omega
  · left
    obtain ⟨link, -, hlink⟩ := List.any_eq_true.1 hc
    simp only [Bool.and_eq_true, decide_eq_true_eq] at hlink
    obtain ⟨⟨hlow, -⟩, -⟩ := hlink
    unfold hostKey at hlow
    omega

/-- The monitor once power is lost: its fuses and flash, with the write that was cut. -/
def State.monitorAfterLoss (s : State) (cut : Bool) : Monitor := if cut then s.cutWrite s.monitor.kept else s.monitor.kept

/-- The device once power is lost, its windows not yet brought to their reset base. -/
def State.darkened (s : State) (cut : Bool) : State :=
  { State.reset with
    powered := false, mem := s.persistent, free := s.free + 1, nextId := s.nextId
    walls := s.walls.filterMap (fun e => let w := e.2.repaired; if w = Wall.zero then none else some (e.1, w))
    dies := s.dies.filterMap (fun e => let d := { Die.zero with spares := e.2.spares }; if d = Die.zero then none else some (e.1, d))
    monitor := s.monitorAfterLoss cut, outbox := s.outbox, busOut := s.busOut }

theorem exec_powerLoss (s : State) (cut : Bool) :
    exec (.powerLoss cut) s = .next (((s.darkened cut).rebase 0 (Sparse.get s.windows 0 Window.zero).base 0).rebase 1
      (Sparse.get s.windows 1 Window.zero).base 0) := rfl

/-- The two re-based windows leave everything but caches, memory, tags and releases as the loss left it. -/
theorem State.rebase_rebase_eq (s : State) (l0 l1 : Nat) (o0 o1 n0 n1 : DWord) :
    ∃ ls ws m h ts rs, (s.rebase l0 o0 n0).rebase l1 o1 n1 = { s with lines := ls, walls := ws, mem := m, hostMem := h, tags := ts, rels := rs } := by
  obtain ⟨_, _, _, _, _, _, e⟩ := s.rebase_eq l0 o0 n0
  obtain ⟨_, _, _, _, _, _, e'⟩ := (s.rebase l0 o0 n0).rebase_eq l1 o1 n1
  exact ⟨_, _, _, _, _, _, by rw [e', e]⟩

theorem State.rebase_rebase_clientBytes {s : State} (hh : s.hostMem = []) (hd : s.did = 0) (o0 o1 n0 n1 : DWord) (hm : ∀ c ∈ s.mem, ClientByte c.1) :
    ∀ c ∈ ((s.rebase 0 o0 n0).rebase 1 o1 n1).mem, ClientByte c.1 := by
  obtain ⟨hh', hm'⟩ := State.rebase_clientBytes hh hd (Nat.zero_le 1) o0 n0 hm
  obtain ⟨_, _, _, _, _, _, e⟩ := s.rebase_eq 0 o0 n0
  have hd' : (s.rebase 0 o0 n0).did = 0 := by rw [e, ← hd]
  exact (State.rebase_clientBytes hh' hd' le_rfl o1 n1 hm').2

end Sys2Proof.Machine

open Sys2Proof Sys2Proof.Machine

namespace Sys2Proof.HostAndMonitor

theorem exec_boot_begins {s : State} (h : s.powered = false ∨ s.monitor.bootStep ≤ 1) (fabric : Bool) (dev : Nat) :
    exec (.boot fabric dev) s = .next s.bootUp := by
  have hn : ¬ (s.powered = true ∧ 1 < s.monitor.bootStep) := by
    rintro ⟨hp, hb⟩
    rcases h with h | h
    · exact Bool.false_ne_true (h.symm.trans hp)
    · omega
  exact congrArg Host.Outcome.next (if_neg hn)

theorem exec_boot_goes_on {s : State} (hp : s.powered = true) (hb : 1 < s.monitor.bootStep) (fabric : Bool) (dev : Nat) :
    exec (.boot fabric dev) s = .next (if s.monitor.bootStep = 4 then s.bringUp fabric dev else s) :=
  congrArg Host.Outcome.next (if_pos ⟨hp, hb⟩)

theorem exec_boot_held {s : State} (h : s.powered = false ∨ s.monitor.bootStep ≤ 1) (hA : s.monitor.slotOk s.monitor.slotA = false)
    (hB : s.monitor.slotOk s.monitor.slotB = false) (fabric : Bool) (dev : Nat) :
    ∃ t, exec (.boot fabric dev) s = .next t ∧ t.powered = true ∧ t.monitor.bootStep = 1 ∧ t.cur = s.cur ∧ t.mem = s.mem := by
  obtain ⟨m, f, e, hm⟩ := State.bootUp_held hA hB
  exact ⟨_, exec_boot_begins h fabric dev, by rw [e], by rw [e, ← hm], by rw [e], by rw [e]⟩

/-- The cores of a boot start at level 2 with events held back (R336). -/
theorem exec_boot_started {s : State} (h : s.powered = false ∨ s.monitor.bootStep ≤ 1)
    (hok : s.monitor.slotOk s.monitor.slotA = true ∨ s.monitor.slotOk s.monitor.slotB = true) (fabric : Bool) (dev : Nat) :
    ∃ t, exec (.boot fabric dev) s = .next t ∧ t.powered = true ∧ t.monitor.bootStep = 4 ∧ t.agents.length = 16 ∧
      (∀ c ∈ t.agents, ∃ y, c.sys = some y ∧ y.lvl = 2 ∧ y.ie = false) ∧ t.fabric = s.fabric ∧ t.did = s.did := by
  obtain ⟨r, pc, e, hp, hb, hf, hd⟩ := State.bootUp_started hok
  refine ⟨r.startCores pc, (exec_boot_begins h fabric dev).trans (congrArg _ e), hp, hb, ?_, fun c hc => ?_, hf, hd⟩
  · simp [State.agents_startCores]
  · rw [State.agents_startCores] at hc
    obtain ⟨n, -, rfl⟩ := List.mem_map.1 hc
    exact ⟨_, rfl, rfl, rfl⟩

/-- R22, R336: the fabric brought up at step 4, with the device's number. -/
theorem exec_boot_fabric {s : State} (hp : s.powered = true) (hb : s.monitor.bootStep = 4) (fabric : Bool) (dev : Nat) :
    ∃ t, exec (.boot fabric dev) s = .next t ∧ t.monitor.bootStep = 5 ∧ (t.fabric = true ↔ fabric = true ∧ dev < 64) ∧
      t.did = (if fabric = true ∧ dev < 64 then dev else 0) ∧
      (fabric = true → dev < 64 → dev ≠ 0 → s.hostMem = [] → ∀ a < 2 ^ 46, t.byte (a + dev * 2 ^ 46) = s.byte a) := by
  refine ⟨s.bringUp fabric dev, (exec_boot_goes_on hp (by omega) fabric dev).trans (congrArg _ (if_pos hb)), rfl, ?_, ?_, ?_⟩
  · simp [State.bringUp]
  · simp [State.bringUp]
  · intro hf hd h0 hh a ha
    have hmem : (s.bringUp fabric dev).mem = (s.renumber dev).mem := by simp [State.bringUp, hf, hd, h0]
    have hbyte : (s.bringUp fabric dev).byte (a + dev * 2 ^ 46) = (s.renumber dev).byte (a + dev * 2 ^ 46) := by
      simp only [State.byte, hmem]
    rw [hbyte, State.byte_renumber hh hd ha]

/-- R335: the inactive slot is written whole; if its images are accepted, a trial marker with three tries names it. -/
theorem exec_slotUpdate {s : State} (h : 4 ≤ s.monitor.bootStep) (imgs : List Image) :
    exec (.slotUpdate imgs) s = .next { s with monitor := s.monitor.updated imgs } :=
  congrArg Host.Outcome.next (if_neg (Nat.not_lt.2 h))

/-- R336, R391: the monitor held at step 1 takes an accepted image into slot A, and measures it. -/
theorem exec_managementPortImage {s : State} {img : Image} (hb : s.monitor.bootStep = 1) (hv : s.monitor.verdict img = 0) (hk : imgKind img ≤ 4) :
    ∃ t, exec (.managementPortImage img) s = .next t ∧ kindIn t.monitor.slotA (imgKind img) = some img ∧
      (∀ k, k ≠ imgKind img → kindIn t.monitor.slotA k = kindIn s.monitor.slotA k) ∧
      t.monitor.reg (imgKind img - 1) = Config.sha3 (s.monitor.reg (imgKind img - 1) ++ imgDigest img) := by
  have htake : ¬ (s.monitor.bootStep ≠ 1 ∨ s.monitor.verdict img ≠ 0 ∨ 4 < imgKind img) := by
    rintro (h | h | h)
    · exact h hb
    · exact h hv
    · omega
  exact ⟨_, congrArg Host.Outcome.next (if_neg htake), kindIn_replaced_self _ img, fun k h => kindIn_replaced_other _ img h, Monitor.reg_measure _ img⟩

/-- R392: the running counters are saved in flash. -/
theorem exec_lifeCounterUpdate (s : State) :
    ∃ t, exec .lifeCounterUpdate s = .next t ∧ t.monitor.life = t.monitor.lifeNow ∧ t.monitor.lifeTick = s.count 0 ∧ t.mem = s.mem := by
  obtain ⟨l, e⟩ := s.lifeRun_eq
  have hsave : s.lifeSave = { s.lifeRun with monitor := { s.lifeRun.monitor with life := s.lifeRun.monitor.lifeNow } } := rfl
  exact ⟨s.lifeSave, rfl, rfl, by rw [hsave, e], by rw [hsave, e]⟩

/-- R20, R334, R391: what a loss of power leaves of the monitor. -/
theorem monitorAfterLoss_spec (s : State) (cut : Bool) :
    let m := s.monitorAfterLoss cut
    m.bootStep = 0 ∧ m.slotA = s.monitor.slotA ∧ m.slotB = s.monitor.slotB ∧ m.keys = s.monitor.keys ∧
      m.life = s.monitor.life ∧ m.meas = [] ∧ (cut = false → m.marker = s.monitor.marker) ∧
      (cut = false ∨ (∀ k o, s.monitor.burning ≠ some (k, o, s.nextId)) → m.svn = s.monitor.svn) ∧
      (∀ kind old, let new := Sparse.get s.monitor.svn kind 0
        cut = true → s.monitor.burning = some (kind, old, s.nextId) → old ≤ new → m.marker = s.monitor.marker ∧
        old ≤ Sparse.get m.svn kind 0 ∧ Sparse.get m.svn kind 0 ≤ new ∧
        ∀ k, k ≠ kind → Sparse.get m.svn k 0 = Sparse.get s.monitor.svn k 0) := by
  cases cut with
  | false => exact ⟨rfl, rfl, rfl, rfl, rfl, rfl, fun _ => rfl, fun _ => rfl, fun kind old hc => absurd hc Bool.false_ne_true⟩
  | true =>
    have hm : s.monitorAfterLoss true = s.cutWrite s.monitor.kept := rfl
    obtain ⟨m0, m1, v, e⟩ := s.cutWrite_eq s.monitor.kept
    dsimp only
    rw [hm]
    refine ⟨by rw [e]; rfl, by rw [e]; rfl, by rw [e]; rfl, by rw [e]; rfl, by rw [e]; rfl, by rw [e]; rfl,
      fun hc => absurd hc.symm Bool.false_ne_true, fun h => ?_, fun kind old _ hburn hle => ?_⟩
    · exact State.cutWrite_svn (h.resolve_left fun hc => Bool.false_ne_true hc.symm) _
    · rw [State.cutWrite_burning hburn]
      exact ⟨rfl, Monitor.svn_cutCommit (m := s.monitor.kept) hle _⟩

theorem bootAndPower : Claims.BootAndPower := by
  intro s
  refine ⟨?_, ?_, ?_, ?_, ?_, ?_, ?_, ?_, ?_, ?_⟩
  · intro fabric dev hp hb h4
    exact (exec_boot_goes_on hp hb fabric dev).trans (congrArg _ (if_neg h4))
  · exact fun fabric dev h hA hB => exec_boot_held h hA hB fabric dev
  · exact fun fabric dev h hok => exec_boot_started h hok fabric dev
  · exact fun fabric dev hp hb => exec_boot_fabric hp hb fabric dev
  · exact fun imgs h => congrArg Host.Outcome.next (if_pos h)
  · intro imgs h
    obtain ⟨hself, hother⟩ := s.monitor.slot_updated imgs
    exact ⟨_, exec_slotUpdate h imgs, rfl, hself, hother, Monitor.marker_updated_refused, Monitor.marker_updated_accepted⟩
  · exact fun img h => congrArg Host.Outcome.next (if_pos h)
  · exact fun img hb hv hk => exec_managementPortImage hb hv hk
  · exact exec_lifeCounterUpdate s
  · intro cut
    obtain ⟨hstep, hslotA, hslotB, hkeys, hlife, hmeas, hmarker, hsvn, hburn⟩ := monitorAfterLoss_spec s cut
    have hclient := State.rebase_rebase_clientBytes (s := s.darkened cut) rfl rfl (Sparse.get s.windows 0 Window.zero).base
      (Sparse.get s.windows 1 Window.zero).base 0 0 s.persistent_clientBytes
    obtain ⟨_, _, _, _, _, _, e⟩ := (s.darkened cut).rebase_rebase_eq 0 1 (Sparse.get s.windows 0 Window.zero).base
      (Sparse.get s.windows 1 Window.zero).base 0 0
    refine ⟨_, exec_powerLoss s cut, by rw [e]; rfl, fun hbase => ?_, hclient, by rw [e]; rfl, ?_⟩
    · rw [hbase 0 (Nat.zero_le 1), hbase 1 le_rfl, State.rebase_self, State.rebase_self]
      rfl
    · rw [e]
      exact ⟨hstep, hslotA, hslotB, hkeys, hlife, hmeas, hmarker, hsvn, hburn⟩

/-- Settles O50, clause by clause: each access and each event of the monitor by the lemma that says what its operation comes to in that case. -/
theorem hostAndMonitor : Obligations.HostAndMonitor := ⟨hostRegisters, bootAndPower⟩

end Sys2Proof.HostAndMonitor
end

section
/-! SUPPORT. Compute words that complete, the rounding of a word, and the stochastic generator of a lane set (R88, R91, R93). -/

namespace Sys2Proof.Machine

/-! Compute words that issue. -/

section
variable {i : Instr} {s s' : State} {v : CView} {faces : Option Mask → BitVec 2 → Bool} {extra : Course → Bool} {body : CView → State → Res}

/-- A compute word that is ready completes with the plan of its own part. -/
theorem answersC_of_execC {p : Plan} (hexec : exec i s = execC i faces extra body s) (hready : s.ReadyC faces (extra s.cur) i v)
    (hbody : body v s = .done s' p) : AnswersC i s v s' p := by
  obtain ⟨hview, sh, hshape, hchecks, hissues, hquiet⟩ := hready
  refine ⟨sh, hshape, ?_⟩
  simp only [Answers, hexec, execC, hview, hshape, hchecks, State.issue_issues hissues hquiet, hbody]

/-- A compute word whose own part gives words, after updates that spare the course and the identities, gives those words. -/
theorem givesWords_of_execC {lat : Option Nat} {f : OpSet → Nat → Word} (hexec : exec i s = execC i faces extra body s)
    (hready : s.ReadyC faces (extra s.cur) i v) (hbody : body v s = s'.words v lat f) (hcur : s'.cur = s.cur)
    (hid : s'.nextId = s.nextId) : GivesWords i s s' v lat f := by
  refine answersC_of_execC hexec hready (hbody.trans ?_)
  simp only [State.words, Course.planC, State.wordWrites, hcur, hid]

end

/-! The generators (R91). -/

theorem State.wall_setWall (s : State) (w n : Nat) (x : Wall) : (s.setWall w x).wall n = if n = w then x else s.wall n :=
  Sparse.get_set s.walls w n x Wall.zero

/-- The generator of a lane set, and whether it has been loaded. -/
def State.gen (s : State) (w l : Nat) : Word × Bool := Sparse.get (s.wall w).gens l (0, false)

/-- What a generator steps from: its state once it is loaded, else what the next beat loads, a zero replaced by 1. -/
def stepsFrom (load : Word) (g : Word × Bool) : Word := if g.2 then g.1 else if load = 0 then 1 else load

/-- What the first beat loads into the generator of a lane set: the slot's seed and the place of the lane set. -/
def loadWord (seed : Word) (w l : Nat) : Word := seed ^^^ BitVec.ofNat 32 (4 * w + l)

/-- A generator after the beats of a word. -/
def genAfter (bs : List Nat) (load : Word) (g : Word × Bool) : Word × Bool :=
  if bs = [] then g else (stochStep^[bs.length] (stepsFrom load g), true)

/-- The words of beats that step from a state. -/
def beatWords : List Nat → Word → List (Nat × Word)
  | [], _ => []
  | k :: ks, x => (k, stochStep x) :: beatWords ks (stochStep x)

/-- One beat of `State.stochAt`: the words so far and the generator. -/
def stochBeat (load : Word) (acc : List (Nat × Word) × (Word × Bool)) (k : Nat) : List (Nat × Word) × (Word × Bool) :=
  (acc.1 ++ [(k, stochStep (stepsFrom load acc.2))], (stochStep (stepsFrom load acc.2), true))

theorem State.stochAt_eq (s : State) (w l : Nat) (seed : Word) (bs : List Nat) :
    s.stochAt w l seed bs =
      let run := bs.foldl (stochBeat (loadWord seed w l)) ([], s.gen w l)
      (run.1, s.setWall w { s.wall w with gens := Sparse.set (s.wall w).gens l run.2 (0, false) }) := rfl

/-- A generator that is loaded steps from its state. -/
@[simp] theorem stepsFrom_loaded (load x : Word) : stepsFrom load (x, true) = x := rfl

/-- Beats that follow a first one go on from where it has stepped. -/
theorem genAfter_loaded (bs : List Nat) (load x : Word) : genAfter bs load (x, true) = (stochStep^[bs.length] x, true) := by
  cases bs <;> rfl

theorem foldl_stochBeat (load : Word) (bs : List Nat) (ws : List (Nat × Word)) (g : Word × Bool) :
    bs.foldl (stochBeat load) (ws, g) = (ws ++ beatWords bs (stepsFrom load g), genAfter bs load g) := by
  induction bs generalizing ws g with
  | nil => simp [beatWords, genAfter]
  | cons k ks ih =>
    rw [List.foldl_cons, stochBeat, ih, genAfter_loaded]
    simp [beatWords, genAfter]

/-- The word of the i-th beat has been stepped i + 1 times. -/
theorem get_beatWords {bs : List Nat} (hnodup : bs.Nodup) {i k : Nat} (hk : bs[i]? = some k) (x : Word) :
    Sparse.get (beatWords bs x) k 0 = stochStep^[i + 1] x := by
  induction bs generalizing i x with
  | nil => simp at hk
  | cons b bs ih =>
    obtain ⟨hb, hnodup⟩ := List.nodup_cons.1 hnodup
    cases i with
    | zero =>
      obtain rfl : b = k := by simpa using hk
      simp [beatWords, Sparse.get]
    | succ i =>
      have hk' : bs[i]? = some k := by simpa using hk
      have hne : b ≠ k := fun h => hb (h ▸ List.mem_of_getElem? hk')
      rw [Function.iterate_succ_apply, ← ih hnodup hk']
      exact if_neg hne

theorem State.stochAt_words (s : State) (w l : Nat) (seed : Word) (bs : List Nat) :
    (s.stochAt w l seed bs).1 = beatWords bs (stepsFrom (loadWord seed w l) (s.gen w l)) := by
  simp [State.stochAt_eq, foldl_stochBeat]

/-- The beats of a word step the generator of its lane set, and no other. -/
theorem State.gen_stochAt (s : State) (w l : Nat) (seed : Word) (bs : List Nat) (n j : Nat) :
    (s.stochAt w l seed bs).2.gen n j =
      if (n, j) = (w, l) then genAfter bs (loadWord seed w l) (s.gen w l) else s.gen n j := by
  rw [State.stochAt_eq, foldl_stochBeat]
  simp only [State.gen, State.wall_setWall, Prod.mk.injEq]
  by_cases hn : n = w
  · simp [hn, Sparse.get_set]
  · simp [hn]

section
variable {s : State} {seed : Word} {bs : List Nat}

theorem State.stochastic_words : (s.stochastic seed bs).1 =
    beatWords bs (stepsFrom (loadWord seed s.cur.wall s.cur.lset) (s.gen s.cur.wall s.cur.lset)) := by
  unfold State.stochastic
  split <;> exact s.stochAt_words _ _ _ _

/-- The lane set of the course steps, also where a second member stands on another wall. -/
theorem State.gen_stochastic_own (hwall : ∀ p, s.cur.second = some p → p.1 ≠ s.cur.wall) :
    (s.stochastic seed bs).2.gen s.cur.wall s.cur.lset =
      genAfter bs (loadWord seed s.cur.wall s.cur.lset) (s.gen s.cur.wall s.cur.lset) := by
  unfold State.stochastic
  split
  · next p hp =>
    have hne : s.cur.wall ≠ p.1 := (hwall p hp).symm
    simp [State.gen_stochAt, hne]
  · simp [State.gen_stochAt]

/-- R387: the lane set of the second member steps likewise. -/
theorem State.gen_stochastic_second {p : Nat × Nat} (hp : s.cur.second = some p) (hwall : p.1 ≠ s.cur.wall) :
    (s.stochastic seed bs).2.gen p.1 s.cur.twinSet =
      genAfter bs (loadWord seed p.1 s.cur.twinSet) (s.gen p.1 s.cur.twinSet) := by
  simp [State.stochastic, hp, State.gen_stochAt, hwall]

theorem State.gen_stochastic_other {w l : Nat} (hown : (w, l) ≠ (s.cur.wall, s.cur.lset))
    (hsecond : ∀ p, s.cur.second = some p → (w, l) ≠ (p.1, s.cur.twinSet)) : (s.stochastic seed bs).2.gen w l = s.gen w l := by
  unfold State.stochastic
  split
  · next p hp => rw [State.gen_stochAt, if_neg (hsecond p hp), State.gen_stochAt, if_neg hown]
  · rw [State.gen_stochAt, if_neg hown]

/-- Stochastic beats change walls alone. -/
theorem State.stochastic_eq (s : State) (seed : Word) (bs : List Nat) : ∃ ws, (s.stochastic seed bs).2 = { s with walls := ws } := by
  unfold State.stochastic
  split <;> exact ⟨_, rfl⟩

end

/-! Rounding of a word (R88, R91). -/

section
variable {s : State} {v : CView}

theorem State.rounding_mode (s : State) (v : CView) : (s.rounding v).1.mode = (s.cur.slotOf v.h).mode v.h.ro := by
  unfold State.rounding
  dsimp only
  split <;> rfl

theorem State.rounding_plain (h : (s.rounding v).1.mode ≠ 4) : (s.rounding v).2 = s := by
  rw [State.rounding_mode] at h
  simp [State.rounding, h]

theorem State.rounding_stochastic (h : (s.rounding v).1.mode = 4) :
    (s.rounding v).1.beats = (s.stochastic (s.cur.slotOf v.h).seed (s.cur.beats v)).1 ∧
      (s.rounding v).2 = (s.stochastic (s.cur.slotOf v.h).seed (s.cur.beats v)).2 := by
  rw [State.rounding_mode] at h
  simp [State.rounding, h]

/-- Rounding changes walls alone. -/
theorem State.rounding_eq (s : State) (v : CView) : ∃ ws, (s.rounding v).2 = { s with walls := ws } := by
  by_cases h : (s.rounding v).1.mode = 4
  · rw [(State.rounding_stochastic h).2]
    exact s.stochastic_eq _ _
  · exact ⟨s.walls, State.rounding_plain h⟩

@[simp] theorem State.rounding_cur (s : State) (v : CView) : (s.rounding v).2.cur = s.cur := by
  obtain ⟨ws, e⟩ := s.rounding_eq v
  rw [e]

@[simp] theorem State.rounding_mem (s : State) (v : CView) : (s.rounding v).2.mem = s.mem := by
  obtain ⟨ws, e⟩ := s.rounding_eq v
  rw [e]

@[simp] theorem State.rounding_nextId (s : State) (v : CView) : (s.rounding v).2.nextId = s.nextId := by
  obtain ⟨ws, e⟩ := s.rounding_eq v
  rw [e]

theorem Slot.mode_slot (l : Slot) {ro : BitVec 2} (h : ro = 0) : l.mode ro = l.rnd := by subst h; rfl
theorem Slot.mode_stochastic (l : Slot) {ro : BitVec 2} (h : ro = 3) : l.mode ro = 4 := by subst h; rfl
theorem Slot.mode_fixed (l : Slot) {ro : BitVec 2} (h : ro = 1 ∨ ro = 2) : l.mode ro ≠ 4 := by
  rcases h with rfl | rfl
  · exact (by decide : (0 : Nat) ≠ 4)
  · exact (by decide : (1 : Nat) ≠ 4)

theorem Course.slotOf_rnd (c : Course) (h : CHdr) : (c.slotOf h).rnd = ((c.slotWord h.slot.toNat 0).extractLsb' 8 3).toNat := by
  rw [BitVec.extractLsb'_toNat, Nat.shiftRight_eq_div_pow]
  rfl

theorem Course.beats_uniform (c : Course) (h : v.h.uni = 1) : c.beats v = [0] := if_pos h

theorem Course.mem_beats (c : Course) (h : v.h.uni ≠ 1) (k : Nat) : k ∈ c.beats v ↔ k < 3 ∧ maskWord (c.actedMask v) k ≠ 0 := by
  unfold Course.beats
  rw [if_neg h]
  simp

theorem Course.nodup_beats (c : Course) (v : CView) : (c.beats v).Nodup := by
  unfold Course.beats
  split
  · exact List.nodup_singleton 0
  · exact List.nodup_range.filter _

end

/-! Special operands (R237, R238). -/

/-- The root, its reciprocal and the logarithm of a negative value are NaN. -/
theorem XVal.roots_negative {m : Nat} (h : m ≠ 0) (e : Int) (st : Bool) :
    (XVal.fin true m e st).rsq = .nan ∧ (XVal.fin true m e st).sqrt = .nan ∧ (XVal.fin true m e st).log2 = .nan := by
  simp [XVal.rsq, XVal.sqrt, XVal.log2, h]

theorem XVal.minmax_nan_left (w : Bool) (x : XVal) : XVal.minmax w .nan x = x := rfl

theorem XVal.minmax_nan_right (w : Bool) (x : XVal) : XVal.minmax w x .nan = x := by cases x <;> rfl

/-- Of the conditions of `FCMP`, a NaN satisfies "not equal" and "unordered" alone. -/
theorem fcond_unordered {x y : XVal} (h : x = .nan ∨ y = .nan) (c : Nat) : fcond c x y = (c == 1 || 7 ≤ c) := by
  have hun : (x == .nan || y == .nan) = true := by simpa using h
  unfold fcond
  simp only [hun]
  match c with
  | 0 | 1 | 2 | 3 | 4 | 5 | 6 => rfl
  | n + 7 => simp

end Sys2Proof.Machine

open Sys2Proof Sys2Proof.Machine

namespace Sys2Proof.FloatArithmetic

/-- R235: a floating instruction that is ready gives each thread its function of the sources, scaled, rounded once and clamped. -/
theorem givesWords_of_execFloat {i : Instr} {s : State} {v : CView} {opc lat : Nat} {h : CHdr} {a : OpSet} {t : Tail}
    {f : Nat → XVal → XVal → XVal → XVal} (hexec : exec i s = execFloat i lat f s) (hview : i.cview = some ⟨opc, h, a, t⟩)
    (hready : s.ReadyC faceBad false i v) :
    let r := (s.rounding v).1
    let sub := r.slot.sub
    GivesWords i s (s.rounding v).2 v (some lat) (fun b n => clampWord b.clmp (roundTyp (h.typ == 1) (r.at n)
      ((f r.mode (s.cur.fsrc1 v sub b n) (s.cur.fsrc2 v sub b n) (s.cur.fsrc3 v sub b n)).shift b.scl.toInt))) := by
  have hh : v.h = h := congrArg CView.h (Option.some.inj (hready.1.symm.trans hview))
  unfold execFloat execPlain at hexec
  refine givesWords_of_execC hexec hready ?_ (s.rounding_cur v) (s.rounding_nextId v)
  simp only [State.rounding_cur, hh, scl3]

theorem floatVectors : Claims.FloatVectors := by
  intro s h a t v
  exact ⟨givesWords_of_execFloat (f := fun m x y _ => XVal.add m x y) rfl rfl,
    givesWords_of_execFloat (f := fun m x y _ => XVal.add m x y.negate) rfl rfl,
    givesWords_of_execFloat (f := fun _ x y _ => x.mul y) rfl rfl,
    givesWords_of_execFloat (f := fun m x y z => XVal.add m (x.mul y) z) rfl rfl,
    givesWords_of_execFloat (f := fun _ x y _ => XVal.minmax false x y) rfl rfl,
    givesWords_of_execFloat (f := fun _ x y _ => XVal.minmax true x y) rfl rfl,
    givesWords_of_execFloat (f := fun _ x _ _ => x.rcp) rfl rfl,
    givesWords_of_execFloat (f := fun _ x _ _ => x.rsq) rfl rfl,
    givesWords_of_execFloat (f := fun _ x _ _ => x.sqrt) rfl rfl,
    givesWords_of_execFloat (f := fun _ x _ _ => x.exp2) rfl rfl,
    givesWords_of_execFloat (f := fun _ x _ _ => x.log2) rfl rfl,
    s.rounding_cur v, s.rounding_mem v, State.rounding_plain⟩

theorem stochasticSteps : Claims.StochasticSteps := by
  intro s v hwall c r s' step gen x0 bs stepped
  have hstepped {w l : Nat} (h : s'.gen w l = genAfter bs (loadWord (c.slotOf v.h).seed w l) (s.gen w l)) : stepped w l := h
  have hmode : r.mode = (c.slotOf v.h).mode v.h.ro := s.rounding_mode v
  refine ⟨fun h => ?_, fun h => ?_, fun h => ?_, c.beats_uniform, c.mem_beats, c.nodup_beats v, State.rounding_plain, fun h => ?_, by decide⟩
  · rw [hmode, Slot.mode_slot _ h, c.slotOf_rnd]
  · rw [hmode, Slot.mode_stochastic _ h]
  · rw [hmode]
    exact Slot.mode_fixed _ h
  · obtain ⟨hwords, hnext⟩ : r.beats = (s.stochastic (c.slotOf v.h).seed bs).1 ∧ s' = (s.stochastic (c.slotOf v.h).seed bs).2 :=
      State.rounding_stochastic h
    refine ⟨fun i k hk t _ htk => ?_, hstepped ?_, fun p hp => hstepped ?_, fun w l hown hsecond => ?_⟩
    · have hword : Sparse.get r.beats (t / 32) 0 = step^[i + 1] (x0 c.wall c.lset) := by
        rw [hwords, State.stochastic_words, htk]
        exact get_beatWords (c.nodup_beats v) hk _
      exact congrArg (laneWord · (t % 32)) hword
    · rw [hnext]
      exact State.gen_stochastic_own hwall
    · rw [hnext]
      exact State.gen_stochastic_second hp (hwall p hp)
    · change s'.gen w l = s.gen w l
      rw [hnext]
      exact State.gen_stochastic_other hown hsecond

theorem floatSpecials : Claims.FloatSpecials :=
  ⟨rfl, rfl, rfl, rfl, rfl, -- `FRCP`
    rfl, rfl, rfl, rfl, rfl, -- `FRSQ`
    rfl, rfl, rfl, rfl, rfl, -- `FSQRT`
    rfl, rfl, rfl, rfl, rfl, -- `FEXP2`
    rfl, rfl, rfl, rfl, rfl, rfl, -- `FLOG2`
    fun _ e st hm => XVal.roots_negative hm e st,
    fun w x => ⟨XVal.minmax_nan_left w x, XVal.minmax_nan_right w x⟩, rfl, rfl, rfl, rfl,
    fun _ => ⟨fcond_unordered (.inl rfl), fcond_unordered (.inr rfl)⟩, rfl, rfl,
    by decide, by decide, by decide, by decide⟩

/-- Settles O32: the arithmetic through the one form of a floating instruction, the generators by induction over the beats of a word, and the
special operands function by function. -/
theorem floatArithmetic : Obligations.FloatArithmetic := ⟨floatVectors, stochasticSteps, floatSpecials⟩

end Sys2Proof.FloatArithmetic
end

section
/-! SUPPORT. What this family of statements shares: address-stream instructions that issue, the focus, tables read after a write, the end of a
work item. -/

open Sys2Proof Sys2Proof.Machine

namespace Sys2Proof.Machine

/-! Address-stream instructions that issue. -/

section
variable {i : Instr} {s s' : State} {k : Ctl} {io : QueueUse} {body : State → Res}

/-- An instruction of a course completes as its own part says. -/
theorem answers_of_execCourse {p : Plan} (hexec : exec i s = execCourse k io body s) (hsys : s.cur.sys = none) (hready : s.Ready true k io)
    (hbody : body s = .done s' p) : Answers i s true k io s' p := by
  simp only [Answers, hexec, execCourse, hsys, Option.isSome_none, firstCode, State.issue_issues hready.1 hready.2, hbody]

/-- An instruction of a course traps as its own part says. -/
theorem traps_of_execCourse {t : Trp} (hexec : exec i s = execCourse k io body s) (hsys : s.cur.sys = none) (hready : s.Ready true k io)
    (hbody : body s = .trap s' t) : Traps i s true s' t := by
  simp only [Traps, hexec, execCourse, hsys, Option.isSome_none, firstCode, State.issue_issues hready.1 hready.2, hbody]

/-- An instruction of a course waits as its own part says. -/
theorem waits_of_execCourse (hexec : exec i s = execCourse k io body s) (hsys : s.cur.sys = none) (hready : s.Ready true k io)
    (hbody : body s = .wait s') : exec i s = .next s' := by
  simp only [hexec, execCourse, hsys, Option.isSome_none, firstCode, State.issue_issues hready.1 hready.2, hbody]

end

/-! The focus moves between agents and changes nothing else. -/

theorem State.focusBy_eq {s f : State} {q : Course → Bool} (h : s.focusBy q = some f) :
    ∃ c ps, f = { s with cur := c, parked := ps } := by
  unfold State.focusBy at h
  split at h
  · exact ⟨s.cur, s.parked, (Option.some.inj h).symm⟩
  · obtain ⟨e, -, rfl⟩ := Option.map_eq_some_iff.1 h
    exact ⟨e.1, e.2, rfl⟩

theorem State.focus_eq {s f : State} {who : DWord} (h : s.focus who = some f) : ∃ c ps, f = { s with cur := c, parked := ps } :=
  State.focusBy_eq h

theorem State.focus_self (s : State) : s.focus s.cur.ident = some s := if_pos (by simp)

theorem State.focus_mem {s f : State} {who : DWord} (h : s.focus who = some f) : f.mem = s.mem := by
  obtain ⟨c, ps, rfl⟩ := State.focus_eq h
  rfl

/-! Tables of the state read after a write. -/

@[simp] theorem State.plane_setPlane_self (s : State) (w p : Nat) (x : Plane) : (s.setPlane w p x).plane w p = x := by
  simp [State.plane, State.setPlane, Sparse.get_set]

theorem State.plane_setPlane_other (s : State) (x : Plane) {w p w' p' : Nat} (h : 3 * w' + p' ≠ 3 * w + p) :
    (s.setPlane w p x).plane w' p' = s.plane w' p' := by
  simp [State.plane, State.setPlane, Sparse.get_set, h]

@[simp] theorem State.plane_modC (s : State) (f : Course → Course) (w p : Nat) : (s.modC f).plane w p = s.plane w p := rfl

@[simp] theorem State.modC_cur_eq (s : State) (f : Course → Course) : (s.modC f).cur = f s.cur := rfl

theorem Plane.chute_setChute (p : Plane) (ch j : Nat) (q : Chute) : (p.setChute ch q).chute j = if j = ch then q else p.chute j :=
  Sparse.get_set p.chutes ch j q Chute.none

theorem State.chute_modChute (s : State) (w p ch j : Nat) (g : Chute → Chute) :
    ((s.modChute w p ch g).plane w p).chute j = if j = ch then g ((s.plane w p).chute ch) else (s.plane w p).chute j := by
  simp only [State.modChute, State.plane_setPlane_self, Plane.chute_setChute]

/-! A work item ends: its writes commit, its flag falls, it is gone. -/

theorem Course.signal_eq (c : Course) (sig : Option Nat) : ∃ fs h e, c.signal sig = { c with flags := fs, hold := h, event := e } := by
  unfold Course.signal
  split
  · dsimp only
    split
    · unfold Course.setEvent
      split
      · exact ⟨_, _, _, rfl⟩
      · exact ⟨_, _, _, rfl⟩
    · exact ⟨_, _, _, rfl⟩
  · exact ⟨_, _, _, rfl⟩

theorem Course.finish_eq (c : Course) (k : Work) :
    ∃ fs h e w, c.finish k = { k.writes.foldl Course.write c with flags := fs, hold := h, event := e, work := w } := by
  obtain ⟨fs, h, e, hs⟩ := (c.commitWrites k).signal_eq k.sig
  refine ⟨fs, h, e, ((c.commitWrites k).signal k.sig).work.filter (fun o => o.id != k.id), ?_⟩
  unfold Course.finish
  dsimp only
  rw [hs]
  rfl

@[simp] theorem Course.workOf_finish (c : Course) (k : Work) : (c.finish k).workOf k.id = none := by
  simp [Course.finish, Course.workOf]

theorem Course.id_of_workOf {c : Course} {id : Nat} {k : Work} (h : c.workOf id = some k) : k.id = id := by
  simpa using List.find?_some h

theorem Course.workOf_finish_of_workOf {c d : Course} {id : Nat} {k : Work} (h : c.workOf id = some k) : (d.finish k).workOf id = none := by
  rw [← Course.id_of_workOf h, Course.workOf_finish]

@[simp] theorem Course.finish_recs_of_none (c : Course) {k : Work} (h : k.writes = []) : (c.finish k).recs = c.recs := by
  obtain ⟨fs, h', e, w, hf⟩ := c.finish_eq k
  simp [hf, h]

theorem Course.S_write_s (c : Course) (rd n : Nat) (x : Word) : (c.write (.s rd x)).S n = if n = rd ∧ rd ≠ 0 then x else c.S n := by
  by_cases hrd : rd = 0
  · simp [Course.write, hrd]
  · by_cases hn : n = rd
    · simp [Course.write, Course.S, hrd, hn, Sparse.get_set]
    · simp [Course.write, Course.S, hrd, hn, Sparse.get_set]

/-! Acquiring changes nothing but what the focused agent knows of others. -/

theorem State.acquireIf_eq (s : State) (c : Carry) (scope : Nat) : ∃ y, s.acquireIf c scope = { s with cur := { s.cur with sync := y } } := by
  unfold State.acquireIf
  split
  · exact ⟨_, rfl⟩
  · exact ⟨s.cur.sync, rfl⟩

theorem State.foldl_acquireIf_eq (cs : List Carry) (scope : Nat) (s : State) :
    ∃ y, cs.foldl (fun s c => s.acquireIf c scope) s = { s with cur := { s.cur with sync := y } } := by
  induction cs generalizing s with
  | nil => exact ⟨s.cur.sync, rfl⟩
  | cons c cs ih =>
    obtain ⟨y, hy⟩ := s.acquireIf_eq c scope
    obtain ⟨z, hz⟩ := ih (s.acquireIf c scope)
    exact ⟨z, by rw [List.foldl_cons, hz, hy]⟩

theorem State.layRels_eq (s : State) (cs : List Carry) (a n : Nat) (rmw : Bool) : ∃ r, s.layRels cs a n rmw = { s with rels := r } := by
  unfold State.layRels
  split
  · exact ⟨s.rels, rfl⟩
  · exact ⟨_, rfl⟩

theorem State.foldl_layRels_eq (cs : List Carry) (n : Nat) (rmw : Bool) (ks : List Nat) (s : State) :
    ∃ r, ks.foldl (fun s k => s.layRels cs k n rmw) s = { s with rels := r } := by
  induction ks generalizing s with
  | nil => exact ⟨s.rels, rfl⟩
  | cons k ks ih =>
    obtain ⟨r, hr⟩ := s.layRels_eq cs k n rmw
    obtain ⟨q, hq⟩ := ih (s.layRels cs k n rmw)
    exact ⟨q, by rw [List.foldl_cons, hq, hr]⟩

end Sys2Proof.Machine
end

section
/-! SUPPORT. Chutes: what an operation does to its chute and to its course (R115, R117, R265). -/

open Sys2Proof Sys2Proof.Machine

namespace Sys2Proof.Machine

theorem State.publish_mem (s : State) (w p ch n : Nat) (carry : Carry) : (s.publish w p ch n carry).mem = s.mem := by
  unfold State.publish
  dsimp only
  obtain ⟨r, hr⟩ := State.foldl_layRels_eq [carry] 1 false (chuteKeys w p ch ((s.plane w p).chute ch) ((s.plane w p).chute ch).prod n) s
  rw [hr]
  rfl

/-- Who holds the side of a chute that an operation acts on (R115, R265). -/
def Chute.side (q : Chute) (op : Nat) : Nat := if opProduces op then q.pside else q.cside

/-- What an operation answers with (R265). -/
def Chute.answers (q : Chute) (op : Nat) : Nat := if op = 0 then q.prod else if op = 3 then (q.prod + q.resv) % (2 * q.cap) else q.cons

/-- The chute once an operation has moved the index of its side (R115). -/
def Chute.moved (q : Chute) (op n : Nat) : Chute :=
  { q with prod := if op = 0 then q.step q.prod n else q.prod, cons := if op = 1 then q.step q.cons n else q.cons }

variable (s : State) (plane ch op n : Nat)

theorem State.chuteAct_answers (h : op < 4) : (s.chuteAct plane ch op n).1 = ((s.plane s.cur.wall plane).chute ch).answers op := by
  match op, h with
  | 0, _ => rfl
  | 1, _ => rfl
  | 2, _ => rfl
  | 3, _ => rfl

/-- An operation moves an index and the releases of the entries; its course learns at most what their producers knew. -/
theorem State.chuteAct_spec (h : op < 4) :
    (s.chuteAct plane ch op n).2.mem = s.mem ∧ (∃ y, (s.chuteAct plane ch op n).2.cur = { s.cur with sync := y }) ∧
      ((s.chuteAct plane ch op n).2.plane s.cur.wall plane).chute ch = ((s.plane s.cur.wall plane).chute ch).moved op n := by
  match op, h with
  | 0, _ =>
    obtain ⟨r, hr⟩ := State.foldl_layRels_eq [(s.releaseC 3).1] 1 false
      (chuteKeys s.cur.wall plane ch ((s.plane s.cur.wall plane).chute ch) ((s.plane s.cur.wall plane).chute ch).prod n) (s.releaseC 3).2
    have hact : (s.chuteAct plane ch 0 n).2 = ({ (s.releaseC 3).2 with rels := r }).modChute s.cur.wall plane ch
        (fun c => { c with prod := c.step c.prod n }) := by rw [← hr]; rfl
    exact hact ▸ ⟨rfl, ⟨_, rfl⟩, (State.chute_modChute _ _ _ _ _ _).trans (if_pos rfl)⟩
  | 1, _ =>
    obtain ⟨y, hy⟩ := State.foldl_acquireIf_eq (s.entryRels s.cur.wall plane ch ((s.plane s.cur.wall plane).chute ch).cons n) 3 s
    have hact : (s.chuteAct plane ch 1 n).2 = ({ s with cur := { s.cur with sync := y } }).modChute s.cur.wall plane ch
        (fun q => { q with cons := q.step q.cons n }) := by rw [← hy]; rfl
    exact hact ▸ ⟨rfl, ⟨y, rfl⟩, (State.chute_modChute _ _ _ _ _ _).trans (if_pos rfl)⟩
  | 2, _ =>
    obtain ⟨y, hy⟩ := State.foldl_acquireIf_eq (s.entryRels s.cur.wall plane ch ((s.plane s.cur.wall plane).chute ch).cons n) 3 s
    have hact : (s.chuteAct plane ch 2 n).2 = { s with cur := { s.cur with sync := y } } := hy
    exact hact ▸ ⟨rfl, ⟨y, rfl⟩, rfl⟩
  | 3, _ => exact ⟨rfl, ⟨s.cur.sync, rfl⟩, rfl⟩

/-- A definition that a descriptor gives starts with both indices at 0 (R264). -/
theorem parseChute_indices {bs : List Byte} {d : Chute} (h : parseChute bs = some d) : d.prod = 0 ∧ d.cons = 0 := by
  unfold parseChute at h
  dsimp only at h
  split at h
  · cases h
  · split at h
    · split at h
      · exact Option.some.inj h ▸ ⟨rfl, rfl⟩
      · cases h
    · split at h
      · cases h
      · exact Option.some.inj h ▸ ⟨rfl, rfl⟩

/-- A count of 0 has no condition but its turn (R265). -/
theorem State.chuteReady_zero (c : Course) (id : Nat) (after : List Nat) (h : ∀ j ∈ s.waitingOps c.wall plane ch (opProduces op), id ≤ j) :
    s.chuteReady c id plane ch op 0 after = true := by
  simpa [State.chuteReady] using h

end Sys2Proof.Machine

namespace Sys2Proof.ChuteOperations

section
variable {s f : State} {who : DWord} {id : Nat} {k : Work}

theorem exec_flagWorkComplete_chute {plane ch op n rd : Nat} {after : List Nat} (hf : s.focus who = some f) (hk : f.cur.workOf id = some k)
    (hdue : k.due = none) (hearly : k.early ≤ f.cycle) (hact : k.act = .chute plane ch op n rd after) :
    exec (.flagWorkComplete who id) s = .next (if f.chuteReady f.cur id plane ch op n after then
      (f.chuteAct plane ch op n).2.modC (fun c => c.finish { k with writes := [.s rd (BitVec.ofNat 32 (f.chuteAct plane ch op n).1)] })
      else s) := by
  change execFlagWorkComplete who id s = _
  simp [execFlagWorkComplete, hf, hk, hdue, hact, not_lt.2 hearly]

theorem exec_chdefReplace {plane ch : Nat} {desc : List Byte} (hf : s.focus who = some f) (hk : f.cur.workOf id = some k)
    (hact : k.act = .chdef plane ch desc) :
    exec (.chdefReplace who id) s = .next (if f.chuteNamed f.cur.wall plane ch then s else
      ((parseChute desc).elim f (fun q => f.modChute f.cur.wall plane ch (fun _ => q))).modC
        (fun c => c.finish { k with act := .none })) := by
  change execChdefReplace who id s = _
  obtain ⟨i, st, due, early, late, sig, ws, act⟩ := k
  obtain rfl : act = .chdef plane ch desc := hact
  obtain rfl : i = id := Course.id_of_workOf hk
  simp only [execChdefReplace, hf, hk]
  cases parseChute desc <;> rfl

/-- What an operation that acts leaves (R115, R117, R265). -/
theorem chuteAct_completes {plane ch op n rd : Nat} (hk : f.cur.workOf id = some k) (hop : op < 4) :
    let q := (f.plane f.cur.wall plane).chute ch
    let t := (f.chuteAct plane ch op n).2.modC (fun c => c.finish { k with writes := [.s rd (BitVec.ofNat 32 (f.chuteAct plane ch op n).1)] })
    t.mem = f.mem ∧ t.cur.workOf id = none ∧ t.cur.live = f.cur.live ∧
      (∀ m, t.cur.S m = if m = rd ∧ rd ≠ 0 then BitVec.ofNat 32 (q.answers op) else f.cur.S m) ∧
      (t.plane f.cur.wall plane).chute ch = q.moved op n := by
  obtain ⟨hmem, ⟨y, hcur⟩, hchute⟩ := f.chuteAct_spec plane ch op n hop
  have hid := Course.id_of_workOf hk
  dsimp only
  rw [State.modC_cur_eq, hcur, State.chuteAct_answers f plane ch op n hop]
  obtain ⟨fs, h, e, w, hfin⟩ := Course.finish_eq { f.cur with sync := y }
    { k with writes := [.s rd (BitVec.ofNat 32 (((f.plane f.cur.wall plane).chute ch).answers op))] }
  refine ⟨hmem, by rw [← hid]; exact Course.workOf_finish _ _, ?_, fun m => ?_, hchute⟩
  · rw [hfin]
    simp only [List.foldl, Course.write]
    split <;> rfl
  · rw [hfin]
    exact Course.S_write_s { f.cur with sync := y } rd m _

end

/-- An operation at one side of a chute: its side and count are checked at issue, the rest waits (R265). -/
theorem execChuteOp_issue {s : State} {i : Instr} {k : Ctl} {ch : BitVec 4} {rd rs : BitVec 6} (op : Nat)
    (hexec : exec i s = execChuteOp op k ch rd rs s) (hsys : s.cur.sys = none) (hready : s.Ready true k {})
    (hdef : s.redefining s.cur.wall s.cur.plane ch.toNat = false) :
    let q := (s.plane s.cur.wall s.cur.plane).chute ch.toNat
    let n := (s.cur.S rs.toNat).toNat
    (q.side op = 1 → n ≤ q.cap → Answers i s true k {} s { lat := none, act := .chute s.cur.plane ch.toNat op n rd.toNat (if op = 0 then s.cur.storesTo q else []) }) ∧
    (q.side op ≠ 1 ∨ q.cap < n → Traps i s true s { code := 0x65 }) := by
  have hcond (q : Chute) (n : Nat) : ((if opProduces op then q.pside != 1 else q.cside != 1) || decide (q.cap < n)) = true ↔
      q.side op ≠ 1 ∨ q.cap < n := by
    unfold Chute.side
    split <;> simp
  refine ⟨fun h1 hn => answers_of_execCourse hexec hsys hready ?_, fun hbad => traps_of_execCourse hexec hsys hready ?_⟩
  · simp only [hdef]
    exact if_neg fun h => ((hcond _ _).1 h).elim (· h1) (not_lt.2 hn)
  · simp only [hdef]
    exact if_pos ((hcond _ _).2 hbad)

theorem chuteIssue : Claims.ChuteIssue := by
  intro s k ch rd rs hsys hready hdef
  refine ⟨execChuteOp_issue 0 rfl hsys hready hdef, fun id => ?_, execChuteOp_issue 1 rfl hsys hready hdef,
    execChuteOp_issue 2 rfl hsys hready hdef, execChuteOp_issue 3 rfl hsys hready hdef, ?_, ?_, ?_⟩
  · simp only [Course.storesTo, List.mem_map, List.mem_filter]
    constructor
    · rintro ⟨j, ⟨hj, hstore⟩, rfl⟩
      refine ⟨j, hj, rfl, ?_⟩
      split at hstore
      · rename_i w sp hact
        exact ⟨w, sp, hact, by simpa using hstore⟩
      · cases hstore
    · rintro ⟨j, hj, rfl, w, sp, hact, hover⟩
      exact ⟨j, ⟨hj, by simpa [hact] using hover⟩, rfl⟩
  · intro off s1 ps ab d hoff hread hparse
    exact answers_of_execCourse rfl hsys hready (by simp only [hdef, hoff, hread, Reach.res, hparse]; rfl)
  · intro off s1 ps ab hoff hread hparse
    exact traps_of_execCourse rfl hsys hready (by simp only [hdef, hoff, hread, Reach.res, hparse]; rfl)
  · intro hoff
    exact traps_of_execCourse rfl hsys hready (by simp only [hdef, hoff]; rfl)

theorem chuteCompletion : Claims.ChuteCompletion := by
  intro s f who id k hf hk hdue hearly
  refine ⟨fun plane ch op n rd after hact hop => ?_, fun plane ch desc hact => ?_⟩
  · rw [exec_flagWorkComplete_chute hf hk hdue hearly hact]
    refine ⟨fun hn hturn => ?_, fun hwait => by rw [hwait]; rfl, fun hready => ?_⟩
    · subst hn
      exact f.chuteReady_zero plane ch op f.cur id after hturn
    · rw [hready, if_pos rfl]
      obtain ⟨hmem, hwork, hlive, hS, hq⟩ := chuteAct_completes (n := n) (rd := rd) (plane := plane) (ch := ch) hk hop
      refine ⟨_, rfl, hmem.trans (State.focus_mem hf), hwork, hlive, fun hrd => ?_, fun m hm => ?_, ?_⟩
      · exact (hS rd).trans (if_pos ⟨rfl, hrd⟩)
      · exact (hS m).trans (if_neg fun h => hm h.1)
      · rw [hq]
        exact ⟨rfl, rfl, rfl, rfl, rfl⟩
  · rw [exec_chdefReplace hf hk hact]
    refine ⟨fun hnamed => by rw [hnamed]; rfl, fun d hfree hparse => ?_⟩
    rw [hfree, if_neg Bool.false_ne_true, hparse]
    obtain ⟨hprod, hcons⟩ := parseChute_indices hparse
    have hq (j : Nat) : ((f.modChute f.cur.wall plane ch (fun _ => d)).plane f.cur.wall plane).chute j = _ :=
      f.chute_modChute f.cur.wall plane ch j (fun _ => d)
    refine ⟨_, rfl, (hq ch).trans (if_pos rfl), hprod, hcons, ?_, (State.focus_mem hf : f.mem = s.mem), fun j hj => (hq j).trans (if_neg hj)⟩
    rw [← Course.id_of_workOf hk]
    exact Course.workOf_finish _ { k with act := .none }

/-- Settles O38: the operations by their one form at issue and by what an operation that acts leaves, the definitions by the descriptor. -/
theorem chuteOperations : Obligations.ChuteOperations := ⟨chuteIssue, chuteCompletion⟩

end Sys2Proof.ChuteOperations
end

section
/-! SUPPORT. Translation registers under an invalidation, caches under maintenance, and gates (R158, R159, R306 to R310). -/

open Sys2Proof Sys2Proof.Machine

namespace Sys2Proof.Machine

/-! Privileged instructions that issue. -/

section
variable {i : Instr} {s s' : State} {k : Ctl} {least : Nat} {body : State → Res} {y : SysRegs}

/-- An instruction of a system core completes as its own part says. -/
theorem answers_of_execPriv {p : Plan} (hexec : exec i s = execPriv k least body s) (hsys : s.cur.sys = some y) (hlevel : least ≤ y.lvl.toNat)
    (hready : s.Ready true k {}) (hbody : body s = .done s' p) : Answers i s true k {} s' p := by
  simp [Answers, hexec, execPriv, Course.level, hsys, not_lt.2 hlevel, firstCode, State.issue_issues hready.1 hready.2, hbody]

/-- An instruction of a system core traps as its own part says. -/
theorem traps_of_execPriv {t : Trp} (hexec : exec i s = execPriv k least body s) (hsys : s.cur.sys = some y) (hlevel : least ≤ y.lvl.toNat)
    (hready : s.Ready true k {}) (hbody : body s = .trap s' t) : Traps i s true s' t := by
  simp [Traps, hexec, execPriv, Course.level, hsys, not_lt.2 hlevel, firstCode, State.issue_issues hready.1 hready.2, hbody]

/-- An instruction that any agent may run completes as its own part says. -/
theorem answers_of_execA {p : Plan} (hexec : exec i s = execA k body s) (hready : s.Ready true k {}) (hbody : body s = .done s' p) :
    Answers i s true k {} s' p := by
  simp only [Answers, hexec, execA, State.issue_issues hready.1 hready.2, hbody]

end

/-! Tables whose entries are changed all together. -/

section
variable {β : Type} {d : β}

theorem Sparse.get_eq_default_or_mem (m : Sparse β) (k : Nat) (d : β) : Sparse.get m k d = d ∨ ∃ e ∈ m, e.1 = k ∧ Sparse.get m k d = e.2 := by
  induction m with
  | nil => exact .inl rfl
  | cons e r ih =>
    by_cases he : e.1 = k
    · exact .inr ⟨e, List.mem_cons_self, he, by simp [Sparse.get, he]⟩
    · rcases ih with h | ⟨e', hmem, hkey, h⟩
      · exact .inl (by simpa [Sparse.get, he] using h)
      · exact .inr ⟨e', List.mem_cons_of_mem _ hmem, hkey, by simpa [Sparse.get, he] using h⟩

theorem Sparse.get_of_forall_ne {m : Sparse β} {k : Nat} (h : ∀ e ∈ m, e.1 ≠ k) : Sparse.get m k d = d := by
  rcases Sparse.get_eq_default_or_mem m k d with hd | ⟨e, hmem, hkey, -⟩
  · exact hd
  · exact absurd hkey (h e hmem)

theorem Sparse.get_map (m : Sparse β) (g : β → β) (hd : g d = d) (k : Nat) :
    Sparse.get (m.map (fun (e : Nat × β) => (e.1, g e.2))) k d = g (Sparse.get m k d) := by
  induction m with
  | nil => exact hd.symm
  | cons e r ih => by_cases he : e.1 = k <;> simp [Sparse.get, he, ih]

theorem Sparse.get_filter_key (m : Sparse β) (q : Nat → Bool) (k : Nat) :
    Sparse.get (m.filter (fun e => q e.1)) k d = if q k then Sparse.get m k d else d := by
  induction m with
  | nil => simp [Sparse.get]
  | cons e r ih =>
    by_cases he : e.1 = k
    · subst he
      cases hq : q e.1 <;> simp_all [Sparse.get]
    · cases hq : q e.1 <;> simp [Sparse.get, he, hq, ih]

/-- A pass over a table that replaces some of its entries. -/
theorem Sparse.get_foldl_replace [DecidableEq β] (hit : β → Bool) (g : β → β) (hd : hit d = false) {m : Sparse β}
    (hm : m.Pairwise (fun a b => a.1 < b.1)) (t : Sparse β) (j : Nat) :
    Sparse.get (m.foldl (fun t e => if hit e.2 then Sparse.set t e.1 (g e.2) d else t) t) j d =
      if hit (Sparse.get m j d) then g (Sparse.get m j d) else Sparse.get t j d := by
  induction m generalizing t with
  | nil => simp [Sparse.get, hd]
  | cons e r ih =>
    obtain ⟨hlt, hr⟩ := List.pairwise_cons.1 hm
    rw [List.foldl_cons, ih hr]
    by_cases he : e.1 = j
    · have hrest : Sparse.get r j d = d := Sparse.get_of_forall_ne fun x hx h => absurd (hlt x hx) (by omega)
      cases hhit : hit e.2 <;> simp [Sparse.get, he, hrest, hd, hhit, Sparse.get_set]
    · have hkeep : Sparse.get (if hit e.2 then Sparse.set t e.1 (g e.2) d else t) j d = Sparse.get t j d := by
        split
        · rw [Sparse.get_set, if_neg (Ne.symm he)]
        · rfl
      simp [Sparse.get, he, hkeep]

/-- Writes at other keys leave an entry. -/
theorem Sparse.get_foldl_set_other [DecidableEq β] (cs : List (Nat × β)) {a : Nat} (h : ∀ c ∈ cs, c.1 ≠ a) (m : Sparse β) :
    Sparse.get (cs.foldl (fun (m : Sparse β) (c : Nat × β) => Sparse.set m c.1 c.2 d) m) a d = Sparse.get m a d := by
  induction cs generalizing m with
  | nil => rfl
  | cons c r ih =>
    rw [List.foldl_cons, ih fun e he => h e (List.mem_cons_of_mem _ he), Sparse.get_set, if_neg (Ne.symm (h c List.mem_cons_self))]

/-- One value written at a run of keys. -/
theorem Sparse.get_foldl_set_range [DecidableEq β] (x : β) (b n : Nat) (m : Sparse β) (j : Nat) :
    Sparse.get ((List.range n).foldl (fun (t : Sparse β) i => Sparse.set t (b + i) x d) m) j d =
      if b ≤ j ∧ j < b + n then x else Sparse.get m j d := by
  induction n with
  | zero => rw [if_neg (by omega)]; rfl
  | succ n ih =>
    rw [List.range_succ, List.foldl_append, List.foldl_cons, List.foldl_nil, Sparse.get_set, ih]
    by_cases hj : j = b + n
    · rw [if_pos hj, if_pos (by omega)]
    · by_cases hin : b ≤ j ∧ j < b + n
      · rw [if_neg hj, if_pos hin, if_pos (by omega)]
      · rw [if_neg hj, if_neg hin, if_neg (by omega)]

theorem Sparse.mem_foldl_del {α : Type} (key : α → Nat) (es : List α) (m : Sparse β) (x : Nat × β) :
    x ∈ es.foldl (fun (m : Sparse β) e => Sparse.del m (key e)) m ↔ x ∈ m ∧ ∀ e ∈ es, x.1 ≠ key e := by
  induction es generalizing m with
  | nil => simp
  | cons e r ih =>
    rw [List.foldl_cons, ih]
    simp only [Sparse.del, List.mem_filter, bne_iff_ne, List.mem_cons, forall_eq_or_imp]
    tauto

end

/-! Invalidation of translations (R158, R159). -/

theorem State.seeLeaf_mem (s : State) (asid va : Nat) (l : Leaf) : (s.seeLeaf asid va l).mem = s.mem ∧ (s.seeLeaf asid va l).tlb = s.tlb := by
  unfold State.seeLeaf
  dsimp only
  split
  · exact ⟨rfl, rfl⟩
  · split <;> exact ⟨rfl, rfl⟩

theorem State.recheck_mem (s : State) (a : Option Nat) (r : Option (Nat × Nat)) : (s.recheck a r).mem = s.mem ∧ (s.recheck a r).tlb = s.tlb := by
  unfold State.recheck
  refine List.foldlRecOn (motive := fun t : State => t.mem = s.mem ∧ t.tlb = s.tlb) _ _ ⟨rfl, rfl⟩ fun t ht e _ => ?_
  dsimp only
  split
  · split
    · exact ⟨(t.seeLeaf_mem _ _ _).1.trans ht.1, (t.seeLeaf_mem _ _ _).2.trans ht.2⟩
    · exact ht
  · exact ht

theorem State.dropEntries_spec (s : State) (a : Option Nat) (r : Option (Nat × Nat)) :
    (s.dropEntries a r).mem = s.mem ∧
      (s.dropEntries a r).tlb = s.tlb.filter (fun e => !hitBy a r e.asid (e.page * 2 ^ e.size) (2 ^ e.size)) := by
  obtain ⟨hmem, htlb⟩ := s.recheck_mem a r
  exact ⟨hmem, by rw [← htlb]; rfl⟩

theorem Course.B_markStale {c : Course} (h : Sparse.wf c.b BReg.zero = true) (a : Option Nat) (r : Option (Nat × Nat)) (j : Nat) :
    (c.markStale a r).B j = if (!(c.B j).mode && hitBy a r c.space (c.B j).base.toNat (c.B j).lim.toNat && decide (0 < (c.B j).lim.toNat)) = true
      then { c.B j with stale := true } else c.B j :=
  Sparse.get_foldl_replace (fun x : BReg => !x.mode && hitBy a r c.space x.base.toNat x.lim.toNat && decide (0 < x.lim.toNat))
    (fun x => { x with stale := true }) (by simp [BReg.zero]) ((Sparse.wf_iff_canon _ _).1 h).1 c.b j

/-- No write of a register that an invalidation hits is left unmarked. -/
theorem Course.stale_of_mem_markStale {c : Course} {a : Option Nat} {r : Option (Nat × Nat)} {o : Work} (ho : o ∈ (c.markStale a r).work)
    {j : Nat} {x : BReg} (hx : RegWrite.b j x ∈ o.writes) (hmode : x.mode = false) (hhit : hitBy a r c.space x.base.toNat x.lim.toNat = true)
    (hlim : 0 < x.lim.toNat) : x.stale = true := by
  obtain ⟨k, -, rfl⟩ := List.mem_map.1 ho
  obtain ⟨w, -, hw⟩ := List.mem_map.1 hx
  split at hw
  · split at hw
    · cases hw
      rfl
    · cases hw
      simp_all
  · subst hw
    simp at *

/-! Maintenance of the caches (R307). -/

/-- The bits of a mask of four sectors that a pass keeps. -/
def keptBits (p : Nat → Bool) : Nat := (List.range 4).foldl (fun m i => if p i then m + 2 ^ i else m) 0

theorem hasBit_keptBits (p : Nat → Bool) {i : Nat} (hi : i < 4) : hasBit (keptBits p) i = p i := by
  have hbits (b0 b1 b2 b3 : Bool) : hasBit (keptBits fun i => [b0, b1, b2, b3].getD i false) 0 = b0 ∧
      hasBit (keptBits fun i => [b0, b1, b2, b3].getD i false) 1 = b1 ∧ hasBit (keptBits fun i => [b0, b1, b2, b3].getD i false) 2 = b2 ∧
      hasBit (keptBits fun i => [b0, b1, b2, b3].getD i false) 3 = b3 := by
    revert b0 b1 b2 b3
    decide
  obtain ⟨h0, h1, h2, h3⟩ := hbits (p 0) (p 1) (p 2) (p 3)
  match i, hi with
  | 0, _ => exact h0
  | 1, _ => exact h1
  | 2, _ => exact h2
  | 3, _ => exact h3

/-- A line whose sectors that `hit` picks have been written back. -/
def BayLine.clean (hit : Nat → Bool) (x : BayLine) : BayLine :=
  { x with dirty := keptBits fun i => hasBit x.dirty i && !hit (4 * x.line + i) }

theorem State.writeBack_eq (s : State) (hit : Nat → Bool) :
    ∃ h, s.writeBack hit = { s with lines := s.lines.map (fun (e : Nat × BayLine) => (e.1, e.2.clean hit)), hostMem := h } := by
  unfold State.writeBack State.mergedHome
  dsimp only
  split
  · exact ⟨_, rfl⟩
  · exact ⟨_, rfl⟩

@[simp] theorem State.mem_writeBack (s : State) (hit : Nat → Bool) : (s.writeBack hit).mem = s.mem := by
  obtain ⟨h, hw⟩ := s.writeBack_eq hit
  rw [hw]

theorem State.bayLine_writeBack (s : State) (hit : Nat → Bool) (b line way : Nat) :
    (s.writeBack hit).bayLine b line way = (s.bayLine b line way).clean hit := by
  obtain ⟨h, hw⟩ := s.writeBack_eq hit
  rw [hw]
  exact Sparse.get_map s.lines (BayLine.clean hit) rfl _

theorem State.wayOf_writeBack (s : State) (hit : Nat → Bool) (b line : Nat) : (s.writeBack hit).wayOf b line = s.wayOf b line := by
  simp only [State.wayOf, State.bayLine_writeBack]
  rfl

theorem State.bayHolds_writeBack (s : State) (hit : Nat → Bool) (b m : Nat) : (s.writeBack hit).bayHolds b m = s.bayHolds b m := by
  simp only [State.bayHolds, State.wayOf_writeBack, State.bayLine_writeBack]
  rfl

/-- The way that holds a line does. -/
theorem State.line_of_wayOf {s : State} {b line w : Nat} (h : s.wayOf b line = some w) : (s.bayLine b line w).line = line := by
  have := List.find?_some h
  simp only [Bool.and_eq_true, beq_iff_eq] at this
  exact this.2

theorem State.bayDirty_writeBack (s : State) {hit : Nat → Bool} (b : Nat) {m : Nat} (h : hit m = true) : (s.writeBack hit).bayDirty b m = false := by
  simp only [State.bayDirty, State.wayOf_writeBack, State.bayLine_writeBack]
  split
  · rename_i w hw
    simp only [BayLine.clean, hasBit_keptBits _ (Nat.mod_lt m (by decide : 0 < 4)), State.line_of_wayOf hw]
    simp [Nat.div_add_mod, h]
  · rfl

/-- What is revealed is the host's. -/
theorem State.byte_reveal {s : State} {a : Nat} (h : ∀ e ∈ s.hostMem, e.1 ≠ a) (n : Nat) :
    (s.reveal n).byte a = s.byte a ∧ ∀ e ∈ (s.reveal n).hostMem, e.1 ≠ a := by
  unfold State.reveal
  split
  · exact ⟨rfl, h⟩
  · exact ⟨Sparse.get_foldl_set_other _ (fun c hc => h c (List.mem_filter.1 hc).1) s.mem, fun e he => h e (List.mem_filter.1 he).1⟩

theorem State.byte_revealAll {s : State} {a : Nat} (h : ∀ e ∈ s.hostMem, e.1 ≠ a) : s.revealAll.byte a = s.byte a := by
  unfold State.revealAll
  exact (List.foldlRecOn (motive := fun t : State => t.byte a = s.byte a ∧ ∀ e ∈ t.hostMem, e.1 ≠ a) _ _ ⟨rfl, h⟩
    fun t ht n _ => ⟨(State.byte_reveal ht.2 n).1.trans ht.1, (State.byte_reveal ht.2 n).2⟩).1

theorem State.hostMem_writeBack (s : State) (hit : Nat → Bool) : ∀ e ∈ (s.writeBack hit).hostMem, e ∈ s.hostMem := by
  unfold State.writeBack State.mergedHome
  dsimp only
  split
  · exact fun _ h => h
  · exact fun e he => (List.mem_filter.1 he).1

/-- The sectors of a line that an invalidation leaves. -/
def keptSectors (hit : Nat → Bool) (line mask : Nat) : Nat := keptBits fun i => hasBit mask i && !hit (4 * line + i)

theorem hasBit_keptSectors {hit : Nat → Bool} {m : Nat} (h : hit m = true) (mask : Nat) : hasBit (keptSectors hit (m / 4) mask) (m % 4) = false := by
  rw [keptSectors, hasBit_keptBits _ (Nat.mod_lt m (by decide : 0 < 4))]
  simp [Nat.div_add_mod, h]

/-- An invalidation: the lines and wall caches keep the sectors that it does not pick, and memory is what the caches no longer hold back. -/
theorem State.invalidateCaches_spec (s : State) (hit : Nat → Bool) :
    (s.invalidateCaches hit).lines = ((s.writeBack hit).lines.map
      (fun (e : Nat × BayLine) => (e.1, { e.2 with valid := keptSectors hit e.2.line e.2.valid }))).filter (fun e => e.2.valid != 0) ∧
    (s.invalidateCaches hit).walls = s.walls.map (fun (e : Nat × Wall) => (e.1, { e.2 with
      cache := (e.2.cache.map (fun (c : Nat × Nat) => (c.1, keptSectors hit c.1 c.2))).filter (fun (c : Nat × Nat) => c.2 != 0) })) ∧
    ∀ a, (∀ e ∈ s.hostMem, e.1 ≠ a) → (s.invalidateCaches hit).byte a = s.byte a := by
  unfold State.invalidateCaches
  obtain ⟨h, hw⟩ := s.writeBack_eq hit
  have hhost := s.hostMem_writeBack hit
  rw [hw] at hhost ⊢
  refine ⟨?_, ?_, fun a ha => ?_⟩
  · unfold State.revealAll
    obtain ⟨m, h', e⟩ := State.foldl_reveal_eq _ _
    rw [e]
    rfl
  · unfold State.revealAll
    obtain ⟨m, h', e⟩ := State.foldl_reveal_eq _ _
    rw [e]
    rfl
  · exact State.byte_revealAll fun e he => ha e (hhost e he)

theorem State.bayHolds_invalidateCaches (s : State) {hit : Nat → Bool} (b : Nat) {m : Nat} (h : hit m = true) :
    (s.invalidateCaches hit).bayHolds b m = false := by
  unfold State.bayHolds
  split
  · rename_i w hw
    have hline := State.line_of_wayOf hw
    rcases Sparse.get_eq_default_or_mem (s.invalidateCaches hit).lines (lineKey b (m / 4) w) BayLine.none with hnone | ⟨e, hmem, -, he⟩
    · have hnone : (s.invalidateCaches hit).bayLine b (m / 4) w = BayLine.none := hnone
      rw [hnone]
      simp [hasBit, BayLine.none]
    · rw [s.invalidateCaches_spec hit |>.1] at hmem
      obtain ⟨e', -, rfl⟩ := List.mem_map.1 (List.mem_filter.1 hmem).1
      have he : (s.invalidateCaches hit).bayLine b (m / 4) w = _ := he
      rw [he] at hline ⊢
      dsimp only at hline ⊢
      rw [hline]
      exact hasBit_keptSectors h _
  · rfl

theorem State.holds_invalidateCaches (s : State) {hit : Nat → Bool} (w : Nat) {m : Nat} (h : hit m = true) :
    ((s.invalidateCaches hit).wall w).holds m = false := by
  have hzero : hasBit 0 (m % 4) = false := by simp [hasBit]
  rcases Sparse.get_eq_default_or_mem (s.invalidateCaches hit).walls w Wall.zero with hnone | ⟨e, hmem, -, he⟩
  · unfold Wall.holds State.wall
    rw [hnone]
    exact hzero
  · rw [(s.invalidateCaches_spec hit).2.1] at hmem
    obtain ⟨x, -, rfl⟩ := List.mem_map.1 hmem
    unfold Wall.holds State.wall
    rw [he]
    dsimp only
    generalize hc : List.filter _ _ = cache
    rcases Sparse.get_eq_default_or_mem cache (m / 4) 0 with hnone | ⟨c, hcmem, hkey, hget⟩
    · rw [hnone]
      exact hzero
    · rw [hget]
      subst hc
      obtain ⟨o, -, rfl⟩ := List.mem_map.1 (List.mem_filter.1 hcmem).1
      have hkey : o.1 = m / 4 := hkey
      dsimp only
      rw [hkey]
      exact hasBit_keptSectors h _

/-! Gates (R119, R120, R308). -/

theorem State.reveal_of_hostMem_nil {s : State} (h : s.hostMem = []) (n : Nat) : s.reveal n = s := if_pos (.inl h)

/-- A way that gives up its line holds nothing, and memory changes only by a host's bytes that come into sight. -/
theorem State.dropLine_eq (s : State) (b line way : Nat) :
    ∃ m h, s.dropLine b line way = { s with lines := Sparse.del s.lines (lineKey b line way), mem := m, hostMem := h } ∧
      (s.hostMem = [] → m = s.mem ∧ h = []) := by
  have hhome (t : State) (ns : List Nat) : ∃ h, t.mergedHome ns = { t with hostMem := h } ∧ (t.hostMem = [] → h = []) := by
    unfold State.mergedHome
    split
    · next hn => exact ⟨t.hostMem, rfl, fun _ => hn⟩
    · next hn => exact ⟨_, rfl, fun h => absurd h hn⟩
  obtain ⟨h, hh, hnil⟩ := hhome s (maskSectors (s.bayLine b line way).line (s.bayLine b line way).dirty)
  unfold State.dropLine
  dsimp only
  rw [hh]
  by_cases hs : s.hostMem = []
  · refine ⟨s.mem, h, ?_, fun _ => ⟨rfl, hnil hs⟩⟩
    refine (List.foldlRecOn (motive := fun t => t = State.setLine { s with hostMem := h } b line way BayLine.none) _ _ rfl
      fun t ht n _ => ?_).trans rfl
    rw [State.reveal_of_hostMem_nil, ht]
    rw [ht]
    exact hnil hs
  · obtain ⟨m, h', e⟩ := State.foldl_reveal_eq (maskSectors (s.bayLine b line way).line (s.bayLine b line way).valid)
      (State.setLine { s with hostMem := h } b line way BayLine.none)
    exact ⟨m, h', e, fun h => absurd h hs⟩

theorem State.foldl_dropLine_eq (b : Nat) (es : List (Nat × BayLine)) (s : State) :
    ∃ m h, es.foldl (fun s e => s.dropLine b e.2.line (e.1 % 16)) s =
      { s with lines := es.foldl (fun ls e => Sparse.del ls (lineKey b e.2.line (e.1 % 16))) s.lines, mem := m, hostMem := h } ∧
      (s.hostMem = [] → m = s.mem ∧ h = []) := by
  induction es generalizing s with
  | nil => exact ⟨s.mem, s.hostMem, rfl, fun h => ⟨rfl, h⟩⟩
  | cons e r ih =>
    obtain ⟨m, h, hd, hnil⟩ := s.dropLine_eq b e.2.line (e.1 % 16)
    obtain ⟨m', h', hd', hnil'⟩ := ih (s.dropLine b e.2.line (e.1 % 16))
    refine ⟨m', h', by rw [List.foldl_cons, hd', hd]; rfl, fun hs => ?_⟩
    obtain ⟨rfl, rfl⟩ := hnil hs
    rw [hd] at hnil'
    exact hnil' rfl

/-- The gates of a bay's way pairs take their mask; the lines of a pair that goes off are given up. -/
theorem State.setWays_spec (s : State) (b : Nat) (on : Byte) :
    (s.hostMem = [] → (s.setWays b on).mem = s.mem) ∧ Sparse.get (s.setWays b on).waysOff b 0 = ~~~on ∧
      (s.setWays b on).lines = (s.lines.filter (fun e => e.1 / 16 / baySets == b &&
        (~~~on &&& ~~~(Sparse.get s.waysOff b 0)).getLsbD (e.1 % 16 / 2))).foldl
        (fun ls e => Sparse.del ls (lineKey b e.2.line (e.1 % 16))) s.lines := by
  obtain ⟨m, h, he, hnil⟩ := State.foldl_dropLine_eq b (s.lines.filter (fun e => e.1 / 16 / baySets == b &&
    (~~~on &&& ~~~(Sparse.get s.waysOff b 0)).getLsbD (e.1 % 16 / 2))) s
  unfold State.setWays
  dsimp only
  rw [he]
  exact ⟨fun hs => (hnil hs).1, by simp [Sparse.get_set], rfl⟩

theorem State.mem_lines_setWays {s : State} {b : Nat} {on : Byte}
    (hkeys : ∀ e ∈ s.lines, e.1 / 16 / baySets = b → e.1 = lineKey b e.2.line (e.1 % 16)) (e : Nat × BayLine) :
    e ∈ (s.setWays b on).lines ↔ e ∈ s.lines ∧
      ¬ (e.1 / 16 / baySets = b ∧ (~~~on &&& ~~~(Sparse.get s.waysOff b 0)).getLsbD (e.1 % 16 / 2) = true) := by
  rw [(s.setWays_spec b on).2.2, Sparse.mem_foldl_del]
  simp only [List.mem_filter, Bool.and_eq_true, beq_iff_eq]
  refine and_congr_right fun hmem => ⟨fun h hgoes => ?_, fun h g hg hkey => ?_⟩
  · exact h e ⟨hmem, hgoes⟩ (hkeys e hmem hgoes.1)
  · obtain ⟨hgmem, hgbay, hgoes⟩ := hg
    have hsame : e.1 = g.1 := hkey.trans (hkeys g hgmem hgbay).symm
    exact h (hsame ▸ ⟨hgbay, hgoes⟩)

theorem State.byte_dropGated (s : State) (w p : Nat) (banks : DWord) (a : Nat) :
    (s.dropGated w p banks).byte a = if s.inBanks w p banks a then 0 else s.byte a := by
  unfold State.dropGated
  split
  · next hz => simp [hz, State.inBanks]
  · refine (Sparse.get_filter_key s.mem (fun a => !s.inBanks w p banks a) a).trans ?_
    cases s.inBanks w p banks a <;> rfl

@[simp] theorem State.planes_dropGated (s : State) (w p : Nat) (banks : DWord) : (s.dropGated w p banks).planes = s.planes := by
  unfold State.dropGated
  split <;> rfl

theorem State.setBanks_spec (s : State) (w p : Nat) (on : DWord) :
    ((s.setBanks w p on).plane w p).off = ~~~on ∧
      ∀ a, (s.setBanks w p on).byte a = if s.inBanks w p ((~~~on &&& ~~~(s.plane w p).off) ||| (on &&& (s.plane w p).off)) a then 0 else s.byte a := by
  refine ⟨?_, fun a => State.byte_dropGated _ w p _ a⟩
  unfold State.setBanks State.plane
  rw [State.planes_dropGated]
  exact congrArg Plane.off (s.plane_setPlane_self w p _)

end Sys2Proof.Machine

namespace Sys2Proof.TlbAndGates

theorem foreign_of_level2 {s : State} {y : SysRegs} (hsys : s.cur.sys = some y) (hy : y.lvl = 2) (asid : Nat) : s.foreign asid = false := by
  simp [State.foreign, Course.level, hsys, hy]

/-- An invalidation completes where no access to a peer is outstanding. -/
theorem exec_tlbinvComplete {s f : State} {who : DWord} {id : Nat} {w : Work} {a : Option Nat} {r : Option (Nat × Nat)}
    (hf : s.focus who = some f) (hw : f.cur.workOf id = some w) (hact : w.act = .tlbinv a r)
    (hpeer : ∀ c ∈ f.agents, ∀ o ∈ c.work, (∀ wall, o.act ≠ .peer wall) ∧ ∀ word va ls wall since, o.act ≠ .lost word va ls wall since) :
    exec (.tlbinvComplete who id) s = .next ((f.dropEntries a r).modC (fun c => c.finish w)) := by
  change execTlbinvComplete who id s = _
  simp only [execTlbinvComplete, hf, hw, hact]
  refine congrArg _ (if_neg ?_)
  simp only [List.any_eq_true, Bool.and_eq_true, not_exists, not_and]
  intro c hc _ o ho hout
  obtain ⟨hpeer, hlost⟩ := hpeer c hc o ho
  split at hout
  · next hact => exact hpeer _ hact
  · next hact => exact hlost _ _ _ _ _ hact
  · cases hout

theorem tlbInvalidation : Claims.TlbInvalidation := by
  intro s k ra rb bp
  refine ⟨fun y hsys hlvl hready => ⟨fun hasid hown => ⟨?_, fun hbase hn => ?_⟩, fun hbad => ?_, fun hbad => ?_, fun hy => ?_⟩,
    fun f who id w a r hf hw hact hpeer => ?_, fun c a r j hwf => ?_, fun c a r o ho j x hx => Course.stale_of_mem_markStale ho hx⟩
  · exact answers_of_execPriv rfl hsys hlvl hready (if_neg fun h => by simp [hown] at h; omega)
  · exact answers_of_execPriv rfl hsys hlvl hready (if_neg fun h => by simp [hown] at h; omega)
  · exact traps_of_execPriv rfl hsys hlvl hready (if_pos hbad)
  · exact traps_of_execPriv rfl hsys hlvl hready (if_pos hbad)
  · exact answers_of_execPriv rfl hsys (by simp [hy]) hready rfl
  · obtain ⟨hmem, htlb⟩ := f.dropEntries_spec a r
    refine ⟨_, exec_tlbinvComplete hf hw hact hpeer, Course.workOf_finish_of_workOf hw, hmem.trans (State.focus_mem hf), fun e => ?_⟩
    have htlb : ((f.dropEntries a r).modC (fun c => c.finish w)).tlb = _ := htlb
    rw [htlb, List.mem_filter, Bool.not_eq_true']
  · simp only [Course.B_markStale hwf, Bool.and_eq_true, Bool.not_eq_true', decide_eq_true_eq, and_assoc]

/-- The sectors that maintenance of some pieces picks. -/
def picked (ps : List (Nat × Nat)) (sector : Nat) : Bool := ps.any (fun p => meets p.1 p.2 (32 * sector) 32)

theorem picked_iff (ps : List (Nat × Nat)) (m : Nat) : picked ps m = true ↔ ∃ p ∈ ps, p.1 < 32 * m + 32 ∧ 32 * m < p.1 + p.2 := by
  simp [picked, meets]

/-- Maintenance of a range whose pages all translate acts on the sectors of its pieces. -/
theorem execMaintain_answers {i : Instr} {drop : Bool} {s s1 : State} {k : Ctl} {bp : BitVec 5} {rb : BitVec 6} {y : SysRegs}
    {ps : List (Nat × Nat)} (hexec : exec i s = execMaintain drop k bp rb s) (hsys : s.cur.sys = some y) (hlvl : 1 ≤ y.lvl.toNat)
    (hready : s.Ready true k {})
    (hps : s.rangePieces (s.cur.S64 (2 * bp.toNat)).toNat (s.cur.S rb.toNat).toNat (List.range ((s.cur.S rb.toNat).toNat / 2 ^ 14 + 2)) = (.ok ps, s1)) :
    Answers i s true k {} (if drop then s1.invalidateCaches (picked ps) else s1.writeBack (picked ps)) { lat := none } := by
  refine answers_of_execPriv hexec hsys hlvl hready ?_
  dsimp only
  rw [hps]
  rfl

/-- `GRANSET` of frames of local HBM in the caller's partition. -/
theorem execGranset_answers {s : State} {k : Ctl} {bp : BitVec 5} {rb : BitVec 6} {gr : BitVec 2} {y : SysRegs} (hsys : s.cur.sys = some y)
    (hlvl : 1 ≤ y.lvl.toNat) (hready : s.Ready true k {}) (halign : (s.cur.S64 (2 * bp.toNat)).toNat % 2 ^ 14 = 0)
    (hn : 0 < (s.cur.S rb.toNat).toNat)
    (hhbm : ∀ i < (s.cur.S rb.toNat).toNat, s.isHbm ((s.cur.S64 (2 * bp.toNat)).toNat + i * 2 ^ 14) = true)
    (hpart : y.lvl = 1 → ∀ i < (s.cur.S rb.toNat).toNat, s.inPartition s.myPart ((s.cur.S64 (2 * bp.toNat)).toNat + i * 2 ^ 14) (2 ^ 14) = true) :
    let pa := (s.cur.S64 (2 * bp.toNat)).toNat
    let n := (s.cur.S rb.toNat).toNat
    Answers (.granset k bp rb gr) s true k {} { s.clearTags pa (n * 2 ^ 14) with
      granule := ((List.range n).map (fun i => pa + i * 2 ^ 14)).foldl (fun t f => Sparse.set t (f / 2 ^ 14) gr 0) s.granule } { lat := none } := by
  refine answers_of_execPriv rfl hsys hlvl hready ?_
  dsimp only
  rw [if_neg (by omega)]
  have hnone : ((List.range (s.cur.S rb.toNat).toNat).map (fun i => (s.cur.S64 (2 * bp.toNat)).toNat + i * 2 ^ 14)).find?
      (fun f => (s.cur.level == 1 && !s.inPartition s.myPart f (2 ^ 14)) || !s.isHbm f) = none := by
    refine List.find?_eq_none.2 fun f hf => ?_
    obtain ⟨i, hi, rfl⟩ := List.mem_map.1 hf
    have hi := List.mem_range.1 hi
    by_cases hy : y.lvl = 1
    · rw [hhbm i hi, hpart hy i hi]
      simp
    · have hlevel : s.cur.level ≠ 1 := fun h => hy (BitVec.eq_of_toNat_eq (by simpa [Course.level, hsys] using h))
      rw [hhbm i hi]
      simp [hlevel]
  rw [hnone]
  rfl

/-- The granules of a run of frames after they have been set one by one. -/
theorem get_granules {β : Type} [DecidableEq β] (m : Sparse β) (x d : β) {pa : Nat} (h : pa % 2 ^ 14 = 0) (n f : Nat) :
    Sparse.get (((List.range n).map (fun i => pa + i * 2 ^ 14)).foldl (fun (t : Sparse β) f => Sparse.set t (f / 2 ^ 14) x d) m) f d =
      if pa / 2 ^ 14 ≤ f ∧ f < pa / 2 ^ 14 + n then x else Sparse.get m f d := by
  have hframe (i : Nat) : (pa + i * 2 ^ 14) / 2 ^ 14 = pa / 2 ^ 14 + i := by omega
  rw [List.foldl_map]
  simp only [hframe]
  exact Sparse.get_foldl_set_range x (pa / 2 ^ 14) n m f

/-- A core that `HALT` holds goes on at once where a pending event is enabled (R305). -/
theorem hold_wakeHalt {c : Course} {y : SysRegs} (h : c.sys = some y) :
    (Course.wakeHalt { c with hold := .halt }).hold = if y.evpend &&& y.even = 0 then .halt else .none := by
  unfold Course.wakeHalt
  simp only [h]
  by_cases hev : y.evpend &&& y.even = 0
  · rw [if_neg fun hc => hc.2 hev, if_pos hev]
  · rw [if_pos ⟨trivial, hev⟩, if_neg hev]

theorem maintenanceAndGates : Claims.MaintenanceAndGates := by
  intro s s1 k ra rb bp gr pl y hsys hready
  have hlevel2 (hy : y.lvl = 2) : 2 ≤ y.lvl.toNat := by simp [hy]
  refine ⟨fun hlvl ps hps => ⟨⟨_, execMaintain_answers rfl hsys hlvl hready hps, fun a ha => (s1.invalidateCaches_spec _).2.2 a ha,
      fun m hm => ⟨fun b => s1.bayHolds_invalidateCaches b ((picked_iff ps m).2 hm), fun w => s1.holds_invalidateCaches w ((picked_iff ps m).2 hm)⟩⟩,
      ⟨_, execMaintain_answers rfl hsys hlvl hready hps, ?_,
      fun b m => ⟨s1.bayHolds_writeBack _ b m, fun hm => s1.bayDirty_writeBack b ((picked_iff ps m).2 hm)⟩⟩⟩,
    answers_of_execA rfl hready rfl, fun hlvl halign hn hhbm hpart => ?_, fun hy hx hn => ?_, fun hy hx hpl hst => ?_,
    fun hy hx hpl hst => ?_, fun hlvl => ?_⟩
  · exact s1.mem_writeBack _
  · exact ⟨_, execGranset_answers hsys hlvl hready halign hn hhbm hpart, rfl, fun f => get_granules s.granule gr 0 halign _ f⟩
  · obtain ⟨hmem, hoff, -⟩ := s.setWays_spec (s.cur.S ra.toNat).toNat ((s.cur.S rb.toNat).setWidth 8)
    have hmask : (s.cur.S rb.toNat).setWidth 8 = BitVec.ofNat 8 (s.cur.S rb.toNat).toNat := BitVec.eq_of_toNat_eq (by simp)
    refine ⟨_, answers_of_execPriv rfl hsys (hlevel2 hy) hready (if_neg (by omega)), hmem, by rw [hoff, hmask], fun hkeys e => ?_⟩
    rw [State.mem_lines_setWays hkeys]
    have hbit : e.1 % 16 / 2 < 8 := by omega
    simp [hbit, BitVec.testBit_toNat]
  · obtain ⟨hoff, hbytes⟩ := s.setBanks_spec (s.cur.S ra.toNat).toNat pl.toNat (s.cur.S64 rb.toNat)
    have hplain : ¬ (191 < (s.cur.S ra.toNat).toNat ∨ pl = 3) := by
      rintro (h | h)
      · omega
      · exact hpl h
    exact ⟨_, answers_of_execPriv rfl hsys (hlevel2 hy) hready ((if_neg hplain).trans (if_neg hst)), hoff, hbytes⟩
  · have hplain : ¬ (191 < (s.cur.S ra.toNat).toNat ∨ pl = 3) := by
      rintro (h | h)
      · omega
      · exact hpl h
    exact answers_of_execPriv rfl hsys (hlevel2 hy) hready ((if_neg hplain).trans (if_pos hst))
  · refine ⟨_, answers_of_execPriv rfl hsys hlvl hready rfl, rfl, ?_⟩
    exact hold_wakeHalt hsys

/-- Settles O43: invalidations by what they leave of the TLBs and of each translation register, maintenance by what it leaves of each line
and of memory, gates and granules entry by entry. -/
theorem tlbAndGates : Obligations.TlbAndGates := ⟨tlbInvalidation, maintenanceAndGates⟩

end Sys2Proof.TlbAndGates
end

section
/-! SUPPORT. The issue of copies, and the tables of shadow buffers (R106, R111, R138, R173, R257, R262, R263). -/

open Sys2Proof Sys2Proof.Machine

namespace Sys2Proof.Machine

/-! Register writes. -/

/-- A register write changes registers, and what a thread's exit ends. -/
theorem Course.write_eq (c : Course) (x : RegWrite) : ∃ s w v p qe qs q b rs me re l ea ec, c.write x =
    { c with s := s, w := w, v := v, p := p, qe := qe, qs := qs, queues := q, b := b, recs := rs, meld := me, recon := re, live := l,
             endA := ea, endC := ec } := by
  cases x with
  | s n x => rw [Course.write]; split <;> exact ⟨_, _, _, _, _, _, _, _, _, _, _, _, _, _, rfl⟩
  | w n x => rw [Course.write]; split <;> exact ⟨_, _, _, _, _, _, _, _, _, _, _, _, _, _, rfl⟩
  | p n a b => rw [Course.write]; split <;> exact ⟨_, _, _, _, _, _, _, _, _, _, _, _, _, _, rfl⟩
  | _ => exact ⟨_, _, _, _, _, _, _, _, _, _, _, _, _, _, rfl⟩

theorem Course.foldl_write_eq (ws : List RegWrite) (c : Course) : ∃ s w v p qe qs q b rs me re l ea ec, ws.foldl Course.write c =
    { c with s := s, w := w, v := v, p := p, qe := qe, qs := qs, queues := q, b := b, recs := rs, meld := me, recon := re, live := l,
             endA := ea, endC := ec } := by
  induction ws generalizing c with
  | nil => exact ⟨_, _, _, _, _, _, _, _, _, _, _, _, _, _, rfl⟩
  | cons x ws ih =>
    obtain ⟨s, w, v, p, qe, qs, q, b, rs, me, re, l, ea, ec, h⟩ := c.write_eq x
    obtain ⟨s', w', v', p', qe', qs', q', b', rs', me', re', l', ea', ec', h'⟩ := ih (c.write x)
    exact ⟨s', w', v', p', qe', qs', q', b', rs', me', re', l', ea', ec', by rw [List.foldl_cons, h', h]⟩

/-- A work item's end leaves where its course stands. -/
theorem Course.finish_place (c : Course) (k : Work) :
    (c.finish k).ident = c.ident ∧ (c.finish k).wall = c.wall ∧ (c.finish k).plane = c.plane ∧ (c.finish k).asid = c.asid ∧
      (c.finish k).sys = c.sys ∧ (c.finish k).launch = c.launch := by
  obtain ⟨fs, h, e, w, hf⟩ := c.finish_eq k
  obtain ⟨s', w', v, p, qe, qs, q, b, rs, me, re, l, ea, ec, hw⟩ := Course.foldl_write_eq k.writes c
  rw [hf, hw]
  exact ⟨rfl, rfl, rfl, rfl, rfl, rfl⟩

/-! Channels and launches. -/

theorem State.chan_setChan (s : State) (w ch c : Nat) (x : Chan) : (s.setChan w ch x).chan w c = if c = ch then x else s.chan w c := by
  unfold State.chan State.setChan
  dsimp only
  rw [State.wall_setWall, if_pos rfl]
  exact Sparse.get_set (s.wall w).chans ch c x Chan.zero

@[simp] theorem State.chan_modC (s : State) (f : Course → Course) (w ch : Nat) : (s.modC f).chan w ch = s.chan w ch := rfl

@[simp] theorem State.chan_outstanding (s : State) (l n : Nat) (f : Nat → Nat) (w ch : Nat) :
    (s.outstanding l n f).chan w ch = s.chan w ch := rfl

theorem State.launch_outstanding {s : State} {n : Nat} {l : Launch} (h : s.launches[n]? = some l) (w : Nat) (f : Nat → Nat) :
    (s.outstanding n w f).launches[n]? = some { l with outst := Sparse.set l.outst w (f (Sparse.get l.outst w 0)) 0 } := by
  simp [State.outstanding, State.modLaunch, h]

/-- A promise is later than the present tick, where one is left; it changes the dies' notes alone (R111, R112). -/
theorem State.promise_spec (s : State) :
    (s.now.toNat + 1 < 2 ^ 64 → s.now.toNat < s.promise.1.toNat) ∧ ∃ f ds, s.promise.2 = { s with free := f, dies := ds } := by
  refine ⟨fun h => ?_, _, _, rfl⟩
  unfold State.promise
  dsimp only [State.draw]
  rw [BitVec.toNat_ofNat]
  have hnow : ({ s with free := s.free + 1 } : State).now = s.now := rfl
  rw [hnow]
  omega

/-- What a copy that takes a channel leaves (R106, R111, R173, R257). -/
theorem State.startJob_spec (s : State) (j : CopyJob) (ch rd : Nat) (sig : Option Nat) :
    ∃ t p, s.startJob j ch rd sig =
        .done t { lat := none, act := .copy s.cur.wall ch, side := pairWrites rd p, sideLat := 4, sideAct := .promise } ∧
      (s.now.toNat + 1 < 2 ^ 64 → s.now.toNat < p.toNat) ∧ t.mem = s.mem ∧ t.cur.s = s.cur.s ∧
      (∃ j', (t.chan s.cur.wall ch).job = some j' ∧ j'.src = j.src ∧ j'.dst = j.dst ∧ j'.len = j.len ∧ j'.ident = s.cur.ident ∧
        j'.sig = sig ∧ j'.started = j.started) ∧
      (∀ l, s.launches[s.cur.launch]? = some l → ∃ l', t.launches[s.cur.launch]? = some l' ∧
        Sparse.get l'.outst s.cur.wall 0 = Sparse.get l.outst s.cur.wall 0 + if j.sigv then 2 else 1) := by
  obtain ⟨hp, f, ds, hprom⟩ := s.promise_spec
  unfold State.startJob
  dsimp only
  rw [hprom]
  refine ⟨_, _, rfl, hp, ?_, ?_, ?_, ?_⟩
  · split <;> split <;> rfl
  · split <;> split <;> rfl
  · rw [State.chan_outstanding, State.chan_modC, State.chan_setChan, if_pos rfl]
    exact ⟨_, rfl, rfl, rfl, rfl, rfl, rfl, rfl⟩
  · intro l hl
    refine ⟨_, State.launch_outstanding (l := l) ?_ _ _, ?_⟩
    · refine Eq.trans ?_ hl
      split <;> split <;> rfl
    · simp only [Sparse.get_set, if_pos]

/-! Tables of buffers. -/

theorem Sparse.map_put {β γ : Type} (g : β → γ) (m : Sparse β) (k : Nat) (x : β) :
    (Sparse.put m k x).map (fun (e : Nat × β) => (e.1, g e.2)) = Sparse.put (m.map (fun (e : Nat × β) => (e.1, g e.2))) k (g x) := by
  induction m with
  | nil => rfl
  | cons e r ih =>
    by_cases he : e.1 = k
    · simp [Sparse.put, he]
    · by_cases hk : k < e.1
      · simp [Sparse.put, he, hk]
      · simp [Sparse.put, he, hk, ih]

theorem Sparse.mem_put_self {β : Type} (m : Sparse β) (k : Nat) (x : β) : (k, x) ∈ Sparse.put m k x := by
  induction m with
  | nil => simp [Sparse.put]
  | cons e r ih =>
    unfold Sparse.put
    split
    · exact List.mem_cons_self
    · split
      · exact List.mem_cons_self
      · exact List.mem_cons_of_mem _ ih

theorem Sparse.get_put {β : Type} (m : Sparse β) (k i : Nat) (x d : β) :
    Sparse.get (Sparse.put m k x) i d = if i = k then x else Sparse.get m i d := by
  by_cases h : i = k
  · rw [if_pos h, h, Sparse.get_put_self]
  · rw [if_neg h, Sparse.get_put_other m h]

theorem Sparse.ne_of_mem_del {β : Type} {m : Sparse β} {k : Nat} {x : Nat × β} (h : x ∈ Sparse.del m k) : x.1 ≠ k := by
  simpa using (List.mem_filter.1 h).2

/-- The buffers that a handle of a kind names: those of a plane's scratchpad, or those of the shadow map. -/
def State.buffers (s : State) (w p : Nat) (sc : Bool) : Sparse Shadow := if sc then (s.plane w p).shadows else s.shadows

theorem State.buffers_setBuffer (s : State) (sc : Bool) (e : Nat) (b : Option Shadow) :
    (s.setBuffer sc e b).buffers s.cur.wall s.cur.plane sc =
      b.elim (Sparse.del (s.buffers s.cur.wall s.cur.plane sc) e) (Sparse.put (s.buffers s.cur.wall s.cur.plane sc) e) := by
  cases sc
  · cases b <;> rfl
  · simp only [State.buffers, State.setBuffer, State.setMyPlane, if_pos, State.plane_setPlane_self]
    cases b <;> rfl

theorem State.declare_eq (s : State) (sc : Bool) (e : Nat) (b : Shadow) :
    (if sc then s.setMyPlane { s.myPlane with shadows := Sparse.put (if sc then s.myPlane.shadows else s.shadows) e b }
      else { s with shadows := Sparse.put (if sc then s.myPlane.shadows else s.shadows) e b }) = s.setBuffer sc e (some b) := by
  cases sc <;> rfl

theorem State.setBuffer_spec (s : State) (sc : Bool) (e : Nat) (b : Option Shadow) :
    (s.setBuffer sc e b).mem = s.mem ∧ (s.setBuffer sc e b).cur = s.cur := by
  unfold State.setBuffer
  dsimp only
  split <;> exact ⟨rfl, rfl⟩

/-! Exchanging the copies empties race tags (R138). -/

theorem State.clearFrames_eq (s : State) (pa n : Nat) : ∃ ts, s.clearFrames pa n = { s with tags := ts } := by
  unfold State.clearFrames
  refine List.foldlRecOn (motive := fun t : State => ∃ ts, t = { s with tags := ts }) _ _ ⟨_, rfl⟩ fun t ht e _ => ?_
  obtain ⟨ts, rfl⟩ := ht
  split <;> exact ⟨_, rfl⟩

theorem State.clearVirtual_eq (s : State) (asid va n : Nat) : ∃ ts, s.clearVirtual asid va n = { s with tags := ts } := by
  unfold State.clearVirtual
  refine List.foldlRecOn (motive := fun t : State => ∃ ts, t = { s with tags := ts }) _ _ ⟨s.tags, rfl⟩ fun t ht i _ => ?_
  obtain ⟨ts, rfl⟩ := ht
  dsimp only
  split
  · exact ⟨ts, rfl⟩
  · split
    · split
      · obtain ⟨ts', h⟩ := State.clearFrames_eq { s with tags := ts } _ _
        exact ⟨ts', h⟩
      · exact ⟨ts, rfl⟩
    · exact ⟨ts, rfl⟩

/-- The copies of a buffer change places, and the publish is noted with it (R138). -/
theorem State.exchange_spec (s : State) (sc : Bool) (e : Nat) (b : Shadow) (carry : Carry) :
    (s.exchange sc e b carry).mem = s.mem ∧ (s.exchange sc e b carry).cur = s.cur ∧
      (e, { b with swap := !b.swap, pub := b.published carry }) ∈ (s.exchange sc e b carry).buffers s.cur.wall s.cur.plane sc := by
  unfold State.exchange
  dsimp only
  generalize (if b.swap then b.name else b.second) = now
  obtain ⟨ts, hts⟩ : ∃ ts, (if sc then s.clearTags (s.scratch s.cur.wall s.cur.plane now) b.len else s.clearVirtual b.asid now b.len) =
      { s with tags := ts } := by
    split
    · exact ⟨_, rfl⟩
    · exact s.clearVirtual_eq b.asid now b.len
  rw [hts]
  obtain ⟨hmem, hcur⟩ := State.setBuffer_spec { s with tags := ts } sc e (some { b with swap := !b.swap, pub := b.published carry })
  refine ⟨hmem, hcur, ?_⟩
  rw [State.buffers_setBuffer { s with tags := ts }]
  exact Sparse.mem_put_self _ _ _

end Sys2Proof.Machine

namespace Sys2Proof.CopiesAndShadows

/-- A copy instruction: its block is read and checked at issue, and it waits for a channel (R106, R257). -/
theorem execCopy_issue {s s1 : State} {i : Instr} {kind : CopyKind} {cached : Bool} {k : Ctl} {rd ra : BitVec 6} {off : Nat} {ps : List Place}
    {ab : List Nat} (hexec : exec i s = execCopy kind cached k rd ra s) (hsys : s.cur.sys = none) (hready : s.Ready true k {})
    (hoff : spOffset (s.cur.S ra.toNat) 32 = some off) :
    (s.freeChans s.cur.wall = [] → exec i s = .next s) ∧
    (s.freeChans s.cur.wall ≠ [] → s.readSp off 32 = .ok s1 ps ab →
      (parseBlock kind (s1.bytesAt ps) = none → Traps i s true s { code := 0x40 }) ∧
      (∀ j ch, parseBlock kind (s1.bytesAt ps) = some j →
        (j.dcv && s.redefining s.cur.wall s.cur.plane j.dch || j.scv && s.redefining s.cur.wall s.cur.plane j.sch) = false →
        (s1.chooseChan j = none → Traps i s true s { code := 0x40 }) ∧ (s1.chooseChan j = some none → exec i s = .next s) ∧
        (s1.chooseChan j = some (some ch) →
        let w := s1.cur.wall
        ∃ t p, Answers i s true k {} t { lat := none, act := .copy w ch, side := pairWrites rd.toNat p, sideLat := 4, sideAct := .promise } ∧
          (s1.now.toNat + 1 < 2 ^ 64 → s1.now.toNat < p.toNat) ∧ t.mem = s1.mem ∧ t.cur.s = s1.cur.s ∧
          (∃ j', (t.chan w ch).job = some j' ∧ j'.src = j.src ∧ j'.dst = j.dst ∧ j'.len = j.len ∧ j'.ident = s1.cur.ident ∧
            j'.sig = sigFlag k ∧ j'.started = j.started) ∧
          (∀ l, s1.launches[s1.cur.launch]? = some l → ∃ l', t.launches[s1.cur.launch]? = some l' ∧
            Sparse.get l'.outst w 0 = Sparse.get l.outst w 0 + if j.sigv then 2 else 1)))) := by
  refine ⟨fun hfree => waits_of_execCourse hexec hsys hready ?_, fun hfree hread => ⟨fun hparse => traps_of_execCourse hexec hsys hready ?_,
    fun j ch hparse hdef => ⟨fun hch => traps_of_execCourse hexec hsys hready ?_, fun hch => waits_of_execCourse hexec hsys hready ?_,
      fun hch => ?_⟩⟩⟩
  · simp only [hoff]
    exact if_pos hfree
  · simp only [hoff, hread, Reach.res, hparse]
    exact if_neg hfree
  · simp only [hoff, hread, Reach.res, hparse, hdef, hch]
    exact if_neg hfree
  · simp only [hoff, hread, Reach.res, hparse, hdef, hch]
    exact if_neg hfree
  · obtain ⟨t, p, hdone, hspec⟩ := (if cached then s1.setWall s.cur.wall ((s1.wall s.cur.wall).cacheBlock off) else s1).startJob_spec
      j ch rd.toNat (sigFlag k)
    refine ⟨t, p, answers_of_execCourse (s' := t) hexec hsys hready ?_, ?_⟩
    · simp only [hoff, hread, Reach.res, hparse, hdef, hch]
      refine (if_neg hfree).trans (hdone.trans ?_)
      cases cached <;> rfl
    · cases cached <;> exact hspec

theorem copyIssue : Claims.CopyIssue := fun _ _ _ _ _ _ _ _ hsys hready hoff =>
  ⟨execCopy_issue rfl hsys hready hoff, execCopy_issue rfl hsys hready hoff, execCopy_issue rfl hsys hready hoff,
    execCopy_issue rfl hsys hready hoff⟩

/-! Shadow buffers (R262, R263). -/

/-- The entry and the kind of a handle's buffer are the handle's. -/
theorem handle_eq {s : State} {h : Nat} {g : Bool} {e : Nat} {b : Shadow} (hh : s.handle h = some (g, e, b)) :
    g = decide (0x100 ≤ h) ∧ e = if 0x100 ≤ h then h - 0x100 else h := by
  unfold State.handle at hh
  dsimp only at hh
  split at hh
  · cases hh
    exact ⟨rfl, by simp⟩
  · cases hh

/-- Nothing that waits in no engine and in no work keeps a `PUBLISH` from exchanging (R138, R263). -/
theorem publishWaits_idle {s : State} {g : Bool} {e id : Nat} {b : Shadow} {c : Carry} (hengine : g = true → s.myPlane.engine = [])
    (hwork : ∀ a ∈ s.agents, ∀ x ∈ a.work, ∀ g' e' n p, x.act ≠ .publish g' e' n p) : s.publishWaits g e id b c = false := by
  have hrows : (g && s.rowsDue c b.name b.len) = false := by
    cases g with
    | false => rfl
    | true => simp [State.rowsDue, hengine rfl]
  have hbefore : s.publishesBefore g e id = false := by
    simp only [State.publishesBefore, List.any_eq_false, Bool.and_eq_true, not_and]
    intro a ha _ hx
    obtain ⟨x, hxmem, hx⟩ := List.any_eq_true.1 hx
    split at hx
    · next hact => exact hwork a ha x hxmem _ _ _ _ hact
    · cases hx
  rw [State.publishWaits, hrows, hbefore]
  rfl

/-- Rows of a fired operation that the publisher issued before keep it waiting (R138). -/
theorem publishWaits_rows {s : State} {e id : Nat} {b : Shadow} {c : Carry} {o : EngOp} {m : EngMember} {i : Nat}
    (ho : o ∈ s.myPlane.engine) (hfired : o.fired = true) (hm : m ∈ o.members) (hwho : m.ident = c.who) (hrc : m.rc.toNat ≤ c.rc.toNat)
    (hi : i < m.out) (hlo : (s.myPlane.chute m.c).entry (m.cIdx + i) < b.name + b.len)
    (hhi : b.name < (s.myPlane.chute m.c).entry (m.cIdx + i) + 512) : s.publishWaits true e id b c = true := by
  have hrow : (List.range m.out).any (fun j => overlap ((s.myPlane.chute m.c).entry (m.cIdx + j)) 512 b.name b.len) = true :=
    List.any_eq_true.2 ⟨i, List.mem_range.2 hi, by simp [overlap, hlo, hhi]⟩
  have hafter : c.after m = true := by simp [Carry.after, hwho, hrc]
  have hout : (m.out != 0) = true := by simp only [bne_iff_ne]; omega
  have hdue : s.rowsDue c b.name b.len = true := by
    refine List.any_eq_true.2 ⟨o, ho, List.any_eq_true.2 ⟨m, hm, ?_⟩⟩
    simp only [hafter, hout, hfired, hrow, if_pos, Bool.and_self]
  simp [State.publishWaits, hdue]

/-- What a waiting `PUBLISH` comes to once its time has come (R138, R263). -/
theorem exec_flagWorkComplete_publish {s f : State} {who : DWord} {id : Nat} {x : Work} {g : Bool} {e name : Nat} {p : Carry} {b : Shadow}
    (hf : s.focus who = some f) (hx : f.cur.workOf id = some x) (hact : x.act = .publish g e name p) (hdue : x.due = none)
    (hearly : x.early ≤ f.cycle) (hh : f.handle (if g then 0x100 + e else e) = some (g, e, b)) :
    exec (.flagWorkComplete who id) s = .next (if b.name ≠ name then f.modC (fun c => c.finish x)
      else if f.publishWaits g e x.id b p then f else (f.modC (fun c => c.finish x)).exchange g e b p) := by
  change execFlagWorkComplete who id s = _
  simp only [execFlagWorkComplete, hf, hx, hdue, hact, not_lt.2 hearly, State.endPublish, hh, ne_eq, not_true_eq_false, or_self, if_false]

theorem shadowBuffers : Claims.ShadowBuffers := by
  intro s k rd ra rb bp sp scope hsys hready c sc name second len bufs bad slot
  have hcode : scope = 3 ↔ scope.toNat = 3 := ⟨fun h => h ▸ rfl, fun h => BitVec.eq_of_toNat_eq h⟩
  refine ⟨fun hbad => ?_, fun e hok hslot => ?_, fun hh => ⟨?_, ?_⟩, fun g e b hh => ⟨?_, fun hscope => ?_, fun hlo hhi hwall => ⟨fun hwait => ?_, fun hwait => ?_, rfl, fun hengine hwork => ?_,
    fun o m i hg ho hfired hm hwho hrc hi hlo hhi => ?_⟩⟩,
    fun f who id x g e name p b hf hx hact hdue hearly hh => ?_⟩
  · refine traps_of_execCourse rfl hsys hready ?_
    by_cases hb : bad = true
    · exact if_pos hb
    · have hslot : freeEntry (if sp == 1 then s.myPlane.shadows else s.shadows) (if sp == 1 then 0 else 16 * yardOf s.cur.wall) = none :=
        hbad.resolve_left hb
      refine (if_neg hb).trans ?_
      rw [hslot]
  · have hslot : freeEntry (if sp == 1 then s.myPlane.shadows else s.shadows) (if sp == 1 then 0 else 16 * yardOf s.cur.wall) = some e := hslot
    refine ⟨s.setBuffer sc e (some ⟨c.asid, name, second, len, false, []⟩), answers_of_execCourse rfl hsys hready
      ((if_neg (Bool.eq_false_iff.1 hok)).trans ?_), (s.setBuffer_spec _ _ _).1, fun i => ?_⟩
    · rw [hslot]
      exact congrArg (fun t => Res.done t _) (s.declare_eq sc e ⟨c.asid, name, second, len, false, []⟩)
    · rw [show bufs _ sc = _ from s.buffers_setBuffer sc e (some ⟨c.asid, name, second, len, false, []⟩)]
      dsimp only [Option.elim]
      rw [Sparse.map_put some, Sparse.get_put]
      rfl
  · exact traps_of_execCourse rfl hsys hready (by rw [hh])
  · exact traps_of_execCourse rfl hsys hready (by rw [hh])
  · refine ⟨s.setBuffer g e none, answers_of_execCourse rfl hsys hready (by rw [hh]), fun x hx => ?_, (s.setBuffer_spec _ _ _).1⟩
    rw [show bufs _ g = _ from s.buffers_setBuffer g e none] at hx
    exact Sparse.ne_of_mem_del hx
  · refine traps_of_execCourse rfl hsys hready ?_
    dsimp only
    rw [hh]
    refine if_pos ?_
    simpa [← hcode, or_assoc] using hscope
  · refine ⟨answers_of_execCourse rfl hsys hready ?_, rfl, rfl⟩
    dsimp only
    rw [hh]
    refine (if_neg ?_).trans (if_pos hwait)
    simpa [← hcode, not_lt.2 hlo, not_lt.2 hhi] using hwall
  · obtain ⟨hmem, hcur, hin⟩ := (s.releaseC scope.toNat).2.exchange_spec g e b (s.releaseC scope.toNat).1
    refine ⟨_, answers_of_execCourse rfl hsys hready ?_, hmem, ?_, hin⟩
    · dsimp only
      rw [hh]
      refine (if_neg ?_).trans (if_neg (Bool.eq_false_iff.1 hwait))
      simpa [← hcode, not_lt.2 hlo, not_lt.2 hhi] using hwall
    · rw [hcur]
      rfl
  · refine publishWaits_idle hengine fun a ha x hx => ?_
    rcases List.mem_cons.1 ha with rfl | ha
    · exact hwork s.cur List.mem_cons_self x hx
    · exact hwork a (List.mem_cons_of_mem _ ha) x hx
  · subst hg
    exact publishWaits_rows ho hfired hm hwho hrc hi hlo hhi
  · rw [exec_flagWorkComplete_publish hf hx hact hdue hearly hh]
    refine ⟨fun hname => by rw [if_pos hname], fun hname hwait => ?_, fun hname hwait => ?_⟩
    · rw [if_neg (not_not.2 hname), if_pos hwait]
    · rw [if_neg (not_not.2 hname), if_neg (Bool.eq_false_iff.1 hwait)]
      obtain ⟨hmem, hcur, hin⟩ := (f.modC (fun c => c.finish x)).exchange_spec g e b p
      obtain ⟨-, hw, hp, -⟩ := f.cur.finish_place x
      refine ⟨_, rfl, ?_, hmem.trans (State.focus_mem hf : f.mem = s.mem), ?_⟩
      · rw [hcur]
        exact Course.workOf_finish_of_workOf hx
      · have hw : (f.modC (fun c => c.finish x)).cur.wall = f.cur.wall := hw
        have hp : (f.modC (fun c => c.finish x)).cur.plane = f.cur.plane := hp
        rw [hw, hp] at hin
        exact hin

/-- Settles O54: copies by the one form of their instructions and what a copy that takes a channel leaves, shadow buffers by what an exchange
does to its table. -/
theorem copiesAndShadows : Obligations.CopiesAndShadows := ⟨copyIssue, shadowBuffers⟩

end Sys2Proof.CopiesAndShadows
end

section
/-! SUPPORT. What the machine's shared operations change of the state: records of memory events, translation, the caches, a fetch. -/

open Sys2Proof Sys2Proof.Machine

namespace Sys2Proof.Machine

/-! What the machine does for an agent beside its own instructions: it learns of releases, its fetched words are kept, and a core's events are
raised. -/

/-- An agent is as before but for what it knows of others' releases, its fetched words and, on a core, its events. -/
def Course.Spared (c d : Course) : Prop :=
  ∃ y a b h z, d = { c with sync := y, icacheA := a, icacheC := b, hold := h, sys := z } ∧ (c.sys = none → h = c.hold ∧ z = none)

theorem Course.Spared.refl (c : Course) : c.Spared c := ⟨_, _, _, _, _, rfl, fun h => ⟨rfl, h⟩⟩

theorem Course.Spared.trans {c d e : Course} (h : c.Spared d) (h' : d.Spared e) : c.Spared e := by
  obtain ⟨y, a, b, hd, z, rfl, hz⟩ := h
  obtain ⟨y', a', b', hd', z', rfl, hz'⟩ := h'
  refine ⟨y', a', b', hd', z', rfl, fun hc => ?_⟩
  obtain ⟨rfl, rfl⟩ := hz hc
  exact hz' rfl

theorem Course.spared_sync (c : Course) (y : Sync) : c.Spared { c with sync := y } := ⟨y, _, _, _, _, rfl, fun h => ⟨rfl, h⟩⟩

theorem Course.spared_keepWord (c : Course) (st : Stream) (a : Nat) (w : BitVec 128) : c.Spared (c.keepWord st a w) := by
  cases st <;> exact ⟨_, _, _, _, _, rfl, fun h => ⟨rfl, h⟩⟩

section
variable {c d : Course} (h : c.Spared d)
include h

theorem Course.Spared.ident : d.ident = c.ident := by obtain ⟨_, _, _, _, _, rfl, _⟩ := h; rfl
theorem Course.Spared.work : d.work = c.work := by obtain ⟨_, _, _, _, _, rfl, _⟩ := h; rfl
theorem Course.Spared.recs : d.recs = c.recs := by obtain ⟨_, _, _, _, _, rfl, _⟩ := h; rfl
theorem Course.Spared.wall : d.wall = c.wall := by obtain ⟨_, _, _, _, _, rfl, _⟩ := h; rfl
theorem Course.Spared.plane : d.plane = c.plane := by obtain ⟨_, _, _, _, _, rfl, _⟩ := h; rfl
theorem Course.Spared.flags : d.flags = c.flags := by obtain ⟨_, _, _, _, _, rfl, _⟩ := h; rfl
theorem Course.Spared.s : d.s = c.s := by obtain ⟨_, _, _, _, _, rfl, _⟩ := h; rfl
theorem Course.Spared.promises : d.promises = c.promises := by obtain ⟨_, _, _, _, _, rfl, _⟩ := h; rfl
theorem Course.Spared.launch : d.launch = c.launch := by obtain ⟨_, _, _, _, _, rfl, _⟩ := h; rfl
theorem Course.Spared.pc (st : Stream) : d.pc st = c.pc st := by obtain ⟨_, _, _, _, _, rfl, _⟩ := h; cases st <;> rfl
theorem Course.Spared.streamOf (a : Bool) : d.streamOf a = c.streamOf a := by obtain ⟨_, _, _, _, _, rfl, _⟩ := h; rfl

theorem Course.Spared.sys (hsys : c.sys = none) : d.sys = none := by
  obtain ⟨_, _, _, _, z, rfl, hz⟩ := h
  exact (hz hsys).2

theorem Course.Spared.hold (hsys : c.sys = none) : d.hold = c.hold := by
  obtain ⟨_, _, _, _, z, rfl, hz⟩ := h
  exact (hz hsys).1

end

theorem State.releaseBy_eq (s : State) (who : DWord) (scope : Nat) :
    ∃ c ps, (s.releaseBy who scope).2 = { s with cur := c, parked := ps } ∧ s.cur.Spared c := by
  unfold State.releaseBy
  split
  · refine ⟨_, _, rfl, ?_⟩
    dsimp only
    split
    · exact s.cur.spared_sync _
    · exact .refl _
  · exact ⟨s.cur, s.parked, rfl, .refl _⟩

theorem State.unitStore_eq (s : State) (a : Nat) (bs : List Byte) :
    ∃ p, s.unitStore a bs = { s with mem := Memory.store s.mem a bs, poison := p } := by
  unfold State.unitStore State.cleanseRange
  split
  · exact ⟨s.poison, rfl⟩
  · exact ⟨_, rfl⟩

theorem State.releaseStore_eq (s : State) (who : DWord) (scope a : Nat) (bs : List Byte) :
    ∃ c ps p r, s.releaseStore who scope a bs =
      { s with cur := c, parked := ps, mem := Memory.store s.mem a bs, poison := p, rels := r } ∧ s.cur.Spared c := by
  obtain ⟨c, ps, h, hc⟩ := s.releaseBy_eq who scope
  unfold State.releaseStore
  generalize s.releaseBy who scope = x at h
  obtain ⟨carry, t⟩ := x
  obtain rfl : t = _ := h
  dsimp only
  obtain ⟨p, hp⟩ := State.unitStore_eq { s with cur := c, parked := ps } a bs
  rw [hp]
  obtain ⟨r, hr⟩ := State.layRels_eq { s with cur := c, parked := ps, mem := Memory.store s.mem a bs, poison := p } [carry] a bs.length false
  exact ⟨c, ps, p, r, hr, hc⟩

theorem Course.spared_raise (c : Course) (core : Nat) (bits : DWord) : c.Spared (match c.sys with
    | some y => if y.core = core then Course.wakeHalt { c with sys := some { y with evpend := y.evpend ||| bits } } else c
    | none => c) := by
  split
  · next y hy =>
    split
    · unfold Course.wakeHalt
      dsimp only
      split
      · exact ⟨_, _, _, _, _, rfl, fun h => absurd h (by simp [hy])⟩
      · exact ⟨_, _, _, _, _, rfl, fun h => absurd h (by simp [hy])⟩
    · exact .refl c
  · exact .refl c

theorem State.raiseEvent_eq (s : State) (core bit : Nat) :
    ∃ c ps, s.raiseEvent core bit = { s with cur := c, parked := ps } ∧ s.cur.Spared c :=
  ⟨_, _, rfl, s.cur.spared_raise core (BitVec.ofNat 64 (2 ^ bit))⟩

theorem State.raiseEventWord_eq (s : State) (e : Word) :
    ∃ c ps, s.raiseEventWord e = { s with cur := c, parked := ps } ∧ s.cur.Spared c := by
  unfold State.raiseEventWord
  split
  · exact ⟨s.cur, s.parked, rfl, .refl _⟩
  · exact s.raiseEvent_eq _ _

/-- The life-long counter of a kind of memory event runs on (R392). -/
def State.lifeCounted (s : State) (kind pa : Nat) : State :=
  match lifeOf kind (homeYard pa) with
  | some n => s.lifeAdd n 1
  | none => s

/-- The bytes of a memory event's record (R364). -/
def State.eventBytes (s : State) (kind pa die : Nat) (who other otherRc rc sub : DWord) : List Byte :=
  let gran := if 4 ≤ kind then 0 else s.granuleAt pa
  bytesLE 8 (pa / granBytes gran * granBytes gran) ++ bytesLE 8 (s.count die).toNat ++ bytesLE 8 who.toNat ++ bytesLE 8 other.toNat ++
    bytesLE 8 otherRc.toNat ++ bytesLE 8 rc.toNat ++ bytesLE 1 kind ++ bytesLE 1 gran ++ bytesLE 1 (homeYard pa) ++ bytesLE 1 0 ++
    bytesLE 8 sub.toNat ++ bytesLE 4 0

/-- The ring takes a record of 64 bytes, counts one that it drops, or keeps nothing (R364). -/
def State.ringTakes (s : State) (who : DWord) (bs : List Byte) : State :=
  if (s.dreg 0x892).toNat = 0 then s
  else if (s.dreg 0x893 - s.dreg 0x894).toNat = (s.dreg 0x892).toNat then
    s.setDreg 0x895 (if s.dreg 0x895 = 0xFFFFFFFF#32 then 0xFFFFFFFF#32 else s.dreg 0x895 + 1)
  else
    ((s.releaseStore who 8 (s.dreg64 0x890 + 64 * ((s.dreg 0x893).toNat % (s.dreg 0x892).toNat)) bs).setDreg 0x893
      (s.dreg 0x893 + 1)).raiseEventWord (s.dreg 0x896)

theorem State.memEvent_eq_ringTakes (s : State) (kind pa die : Nat) (who other otherRc rc sub : DWord) :
    s.memEvent kind pa die who other otherRc rc sub =
      (s.lifeCounted kind pa).ringTakes who ((s.lifeCounted kind pa).eventBytes kind pa die who other otherRc rc sub) := rfl

theorem State.lifeCounted_eq (s : State) (kind pa : Nat) : ∃ mo, s.lifeCounted kind pa = { s with monitor := mo } := by
  unfold State.lifeCounted
  split
  · exact ⟨_, rfl⟩
  · exact ⟨s.monitor, rfl⟩

theorem State.ringTakes_eq (s : State) (who : DWord) (bs : List Byte) :
    ∃ c ps m p r dr, s.ringTakes who bs = { s with cur := c, parked := ps, mem := m, poison := p, rels := r, dregs := dr } ∧ s.cur.Spared c := by
  unfold State.ringTakes
  split
  · exact ⟨s.cur, s.parked, s.mem, s.poison, s.rels, s.dregs, rfl, .refl _⟩
  · split
    · exact ⟨s.cur, s.parked, s.mem, s.poison, s.rels, _, rfl, .refl _⟩
    · obtain ⟨c, ps, p, r, hr, hc⟩ := s.releaseStore_eq who 8 (s.dreg64 0x890 + 64 * ((s.dreg 0x893).toNat % (s.dreg 0x892).toNat)) bs
      rw [hr]
      obtain ⟨c', ps', hr', hc'⟩ := State.raiseEventWord_eq (State.setDreg { s with
        cur := c, parked := ps, mem := Memory.store s.mem (s.dreg64 0x890 + 64 * ((s.dreg 0x893).toNat % (s.dreg 0x892).toNat)) bs,
        poison := p, rels := r } 0x893 (s.dreg 0x893 + 1)) (s.dreg 0x896)
      exact ⟨c', ps', _, p, r, _, hr', hc.trans hc'⟩

/-- A record of a memory event changes the ring, its registers, a life-long counter and what agents know (R364, R392). -/
theorem State.memEvent_eq (s : State) (kind pa die : Nat) (who other otherRc rc sub : DWord) :
    ∃ c ps m p r dr mo, s.memEvent kind pa die who other otherRc rc sub =
      { s with cur := c, parked := ps, mem := m, poison := p, rels := r, dregs := dr, monitor := mo } ∧ s.cur.Spared c := by
  rw [State.memEvent_eq_ringTakes]
  obtain ⟨mo, hmo⟩ := s.lifeCounted_eq kind pa
  rw [hmo]
  obtain ⟨c, ps, m, p, r, dr, h, hc⟩ := State.ringTakes_eq { s with monitor := mo } who
    (State.eventBytes { s with monitor := mo } kind pa die who other otherRc rc sub)
  exact ⟨c, ps, m, p, r, dr, mo, h, hc⟩

theorem State.poisonUsed_eq (s : State) (pa : Nat) (who : DWord) (die : Nat) :
    ∃ c ps m p r dr mo, s.poisonUsed pa who die =
      { s with cur := c, parked := ps, mem := m, poison := p, rels := r, dregs := dr, monitor := mo } ∧ s.cur.Spared c :=
  s.memEvent_eq 3 pa die who 0 0 0 0

/-! Translation: TLBs, counters of misses, what a walk's entries carry, the tags of a page whose attributes have changed. -/

/-- The channels run the same copies. -/
def State.SameJobs (s t : State) : Prop := ∀ w ch, (t.chan w ch).job = (s.chan w ch).job

theorem State.sameJobs_setWall (s : State) (w : Nat) (x : Wall) (h : x.chans = (s.wall w).chans) : s.SameJobs (s.setWall w x) := by
  intro v ch
  unfold State.chan
  rw [State.wall_setWall]
  split
  · next hv => rw [h, hv]
  · rfl

theorem State.countEvent_eq (s : State) (w code n : Nat) :
    ∃ ws, s.countEvent w code n = { s with walls := ws } ∧ s.SameJobs { s with walls := ws } := by
  unfold State.countEvent
  dsimp only
  split
  · exact ⟨s.walls, rfl, fun _ _ => rfl⟩
  · exact ⟨_, rfl, s.sameJobs_setWall w _ rfl⟩

theorem State.missed_eq (s : State) (passed : List (Nat × Nat)) :
    ∃ ws, s.missed passed = { s with walls := ws } ∧ s.SameJobs { s with walls := ws } := by
  unfold State.missed
  split
  · exact s.countEvent_eq _ _ _
  · exact ⟨s.walls, rfl, fun _ _ => rfl⟩

theorem State.walked_eq (s : State) (x : Ctx) (va : Nat) :
    ∃ c ps ws, s.walked x va = { s with cur := c, parked := ps, walls := ws } ∧ s.cur.Spared c ∧ s.SameJobs { s with walls := ws } := by
  unfold State.walked
  dsimp only
  split
  · exact ⟨s.cur, s.parked, s.walls, rfl, .refl _, fun _ _ => rfl⟩
  · next hx =>
    split
    · refine ⟨s.cur, s.parked, _, rfl, .refl _, fun w ch => ?_⟩
      unfold State.chan State.wall
      rw [Sparse.get_map s.walls (fun v => { v with chans := v.chans.map (fun (h : Nat × Chan) =>
        (h.1, if h.2.ident = x.who then { h.2 with sync := s.syncWalk x.who h.2.sync (s.walkRels x.asid va) } else h.2)) }) rfl]
      dsimp only
      rw [Sparse.get_map (Sparse.get s.walls w Wall.zero).chans
        (fun h => if h.ident = x.who then { h with sync := s.syncWalk x.who h.sync (s.walkRels x.asid va) } else h)
        (if_neg fun h => hx (.inr h.symm))]
      split <;> rfl
    · refine ⟨_, _, s.walls, rfl, ?_, fun _ _ => rfl⟩
      dsimp only
      split
      · exact s.cur.spared_sync _
      · exact .refl _

theorem State.tlbLook_eq (s : State) (level unit asid va : Nat) : ∃ e, (s.tlbLook level unit asid va).2 = { s with tlb := e } := by
  unfold State.tlbLook
  dsimp only
  split
  · exact ⟨s.tlb, rfl⟩
  · exact ⟨_, rfl⟩

theorem State.tlbFind_eq (asid va : Nat) (path : List (Nat × Nat)) (s : State) (passed : List (Nat × Nat)) :
    ∃ e, (s.tlbFind asid va path passed).2.2 = { s with tlb := e } := by
  induction path generalizing s passed with
  | nil => exact ⟨s.tlb, rfl⟩
  | cons p path ih =>
    obtain ⟨level, unit⟩ := p
    obtain ⟨e, he⟩ := s.tlbLook_eq level unit asid va
    unfold State.tlbFind
    generalize s.tlbLook level unit asid va = x at he
    obtain ⟨o, t⟩ := x
    obtain rfl : t = _ := he
    cases o with
    | none =>
      obtain ⟨e', he'⟩ := ih { s with tlb := e } ((level, unit) :: passed)
      exact ⟨e', he'⟩
    | some b => exact ⟨e, rfl⟩

theorem State.seeLeaf_eq (s : State) (asid va : Nat) (l : Leaf) : ∃ at_ ts, s.seeLeaf asid va l = { s with attrs := at_, tags := ts } := by
  unfold State.seeLeaf
  dsimp only
  split
  · exact ⟨_, s.tags, rfl⟩
  · split
    · exact ⟨s.attrs, s.tags, rfl⟩
    · exact ⟨_, _, rfl⟩

/-- What a translation changes. -/
def State.Translated (s t : State) : Prop :=
  ∃ c ps ws e at_ ts, t = { s with cur := c, parked := ps, walls := ws, tlb := e, attrs := at_, tags := ts } ∧ s.cur.Spared c ∧
    s.SameJobs { s with walls := ws }

theorem State.Translated.refl (s : State) : s.Translated s :=
  ⟨s.cur, s.parked, s.walls, s.tlb, s.attrs, s.tags, rfl, .refl _, fun _ _ => rfl⟩

theorem State.Translated.trans {s t u : State} (h : s.Translated t) (h' : t.Translated u) : s.Translated u := by
  obtain ⟨c, ps, ws, e, at_, ts, rfl, hc, hj⟩ := h
  obtain ⟨c', ps', ws', e', at_', ts', rfl, hc', hj'⟩ := h'
  exact ⟨c', ps', ws', e', at_', ts', rfl, hc.trans hc', fun w ch => (hj' w ch).trans (hj w ch)⟩

theorem State.translated_missed (s : State) (passed : List (Nat × Nat)) : s.Translated (s.missed passed) := by
  obtain ⟨ws, h, hj⟩ := s.missed_eq passed
  exact ⟨s.cur, s.parked, ws, s.tlb, s.attrs, s.tags, h, .refl _, hj⟩

theorem State.translated_walked (s : State) (x : Ctx) (va : Nat) : s.Translated (s.walked x va) := by
  obtain ⟨c, ps, ws, h, hc, hj⟩ := s.walked_eq x va
  exact ⟨c, ps, ws, s.tlb, s.attrs, s.tags, h, hc, hj⟩

theorem State.translated_tlb (s : State) (e : List TlbEntry) : s.Translated { s with tlb := e } :=
  ⟨s.cur, s.parked, s.walls, e, s.attrs, s.tags, rfl, .refl _, fun _ _ => rfl⟩

theorem State.translated_tlbFind (s : State) (asid va : Nat) (path passed : List (Nat × Nat)) :
    s.Translated (s.tlbFind asid va path passed).2.2 := by
  obtain ⟨e, h⟩ := State.tlbFind_eq asid va path s passed
  rw [h]
  exact s.translated_tlb e

theorem State.translated_seeLeaf (s : State) (asid va : Nat) (l : Leaf) : s.Translated (s.seeLeaf asid va l) := by
  obtain ⟨at_, ts, h⟩ := s.seeLeaf_eq asid va l
  exact ⟨s.cur, s.parked, s.walls, s.tlb, at_, ts, h, .refl _, fun _ _ => rfl⟩

theorem State.translateBy_translated (s : State) (x : Ctx) (va : Nat) (a : Acc) (ranged : Bool) :
    s.Translated (s.translateBy x va a ranged).2 := by
  have hfind := s.translated_tlbFind x.asid va x.path []
  unfold State.translateBy
  split
  · split
    · exact .refl s
    · split <;> exact .refl s
  · split
    · exact .refl s
    · split
      · next b passed t ht =>
        rw [ht] at hfind
        have hmissed := hfind.trans (t.translated_missed passed)
        dsimp only
        split
        · exact hmissed
        · split
          · exact hmissed
          · dsimp only
            split
            · exact hmissed
            · exact hmissed.trans (State.translated_tlb _ _)
      · next passed t ht =>
        rw [ht] at hfind
        have hwalked := (hfind.trans (t.translated_missed passed)).trans (State.translated_walked _ x va)
        dsimp only
        split
        · split
          · exact hwalked
          · refine State.Translated.trans ?_ (State.translated_seeLeaf _ _ _ _)
            split
            · exact hwalked
            · exact hwalked.trans (State.translated_tlb _ _)
        · exact hwalked

theorem State.translate_translated (s : State) (x : Ctx) (va : Nat) (a : Acc) : s.Translated (s.translate x va a).2 :=
  s.translateBy_translated x va a true

/-! The caches. -/

/-- What reads that come through a slice change: lines, poison that a fill brings, a host's bytes that come into sight, free values. -/
def State.Filled (s t : State) : Prop :=
  ∃ l p m h f, t = { s with lines := l, poison := p, mem := m, hostMem := h, free := f }

theorem State.Filled.refl (s : State) : s.Filled s := ⟨_, _, _, _, _, rfl⟩

theorem State.Filled.trans {s t u : State} (h : s.Filled t) (h' : t.Filled u) : s.Filled u := by
  obtain ⟨l, p, m, h, f, rfl⟩ := h
  obtain ⟨l', p', m', h', f', rfl⟩ := h'
  exact ⟨l', p', m', h', f', rfl⟩

theorem State.filled_dropLine (s : State) (b line way : Nat) : s.Filled (s.dropLine b line way) := by
  obtain ⟨m, h, he, -⟩ := s.dropLine_eq b line way
  exact ⟨_, s.poison, m, h, s.free, he⟩

theorem State.filled_setLine (s : State) (b line way : Nat) (x : BayLine) : s.Filled (s.setLine b line way x) := ⟨_, _, _, _, _, rfl⟩

theorem State.filled_victim (s : State) (b line : Nat) : s.Filled (s.victim b line).2 := by
  unfold State.victim
  dsimp only
  split
  · exact .refl s
  · exact ⟨_, _, _, _, _, rfl⟩

theorem State.filled_fillLine (s : State) (b line mask : Nat) (keep : Bool) : s.Filled (s.fillLine b line mask keep) := by
  have hv := s.filled_victim b line
  unfold State.fillLine
  split
  · exact s.filled_setLine _ _ _ _
  · split
    · next w t ht =>
      rw [ht] at hv
      exact (hv.trans (t.filled_dropLine b line w)).trans (State.filled_setLine _ _ _ _ _)
    · next t ht =>
      rw [ht] at hv
      exact hv

theorem State.filled_fillAll (s : State) (b : Nat) (ns : List Nat) (keep : Bool) : s.Filled (s.fillAll b ns keep) := by
  unfold State.fillAll
  exact List.foldlRecOn (motive := fun t => s.Filled t) _ _ (.refl s) fun t ht line _ => ht.trans (t.filled_fillLine _ _ _ _)

theorem State.filled_bayTouch (s : State) (b : Nat) (keep : Bool) (x : GranSector) : s.Filled (s.bayTouch b keep x) := by
  unfold State.bayTouch
  split
  · exact .refl s
  · refine State.Filled.trans ?_ (State.filled_fillAll _ _ _ _)
    unfold State.spreadPoison
    split
    · exact .refl s
    · exact ⟨_, _, _, _, _, rfl⟩

theorem State.filled_bayReads (s : State) (b : Nat) (h : Hint) (ns : List GranSector) : s.Filled (s.bayReads b h ns) := by
  unfold State.bayReads
  exact List.foldlRecOn (motive := fun t => s.Filled t) _ _ (.refl s) fun t ht n _ => ht.trans (t.filled_bayTouch _ _ _)

theorem State.filled_bayWrite (s : State) (b n : Nat) : s.Filled (s.bayWrite b n) := by
  unfold State.bayWrite
  split
  · exact s.filled_setLine _ _ _ _
  · exact .refl s

theorem State.filled_cacheWrites (s : State) (b : Nat) (h : Hint) (ns : List GranSector) : s.Filled (s.cacheWrites b h ns) := by
  unfold State.cacheWrites
  exact List.foldlRecOn (motive := fun t => s.Filled t) _ _ (.refl s) fun t ht n _ =>
    (ht.trans (t.filled_bayTouch _ _ _)).trans (State.filled_bayWrite _ _ _)

/-! A fetch. -/

/-- What a fetch leaves as it was: the agents but for what they know and have fetched, planes, dies, launches, queues, sessions. -/
structure State.Fetched (s t : State) : Prop where
  cur : s.cur.Spared t.cur
  planes : t.planes = s.planes
  dies : t.dies = s.dies
  launches : t.launches = s.launches
  sessions : t.sessions = s.sessions
  did : t.did = s.did
  nextId : t.nextId = s.nextId

theorem State.Fetched.refl (s : State) : s.Fetched s := ⟨.refl _, rfl, rfl, rfl, rfl, rfl, rfl⟩

theorem State.Fetched.trans {s t u : State} (h : s.Fetched t) (h' : t.Fetched u) : s.Fetched u :=
  ⟨h.cur.trans h'.cur, h'.planes.trans h.planes, h'.dies.trans h.dies, h'.launches.trans h.launches, h'.sessions.trans h.sessions,
    h'.did.trans h.did, h'.nextId.trans h.nextId⟩

theorem State.Translated.fetched {s t : State} (h : s.Translated t) : s.Fetched t := by
  obtain ⟨c, ps, ws, e, at_, ts, rfl, hc, -⟩ := h
  exact ⟨hc, rfl, rfl, rfl, rfl, rfl, rfl⟩

theorem State.Filled.fetched {s t : State} (h : s.Filled t) : s.Fetched t := by
  obtain ⟨l, p, m, h, f, rfl⟩ := h
  exact ⟨.refl _, rfl, rfl, rfl, rfl, rfl, rfl⟩

theorem State.fetched_poisonUsed (s : State) (pa : Nat) (who : DWord) (die : Nat) : s.Fetched (s.poisonUsed pa who die) := by
  obtain ⟨c, ps, m, p, r, dr, mo, h, hc⟩ := s.poisonUsed_eq pa who die
  rw [h]
  exact ⟨hc, rfl, rfl, rfl, rfl, rfl, rfl⟩

theorem State.fetched_unanswered (s : State) (ps : List Place) : s.Fetched (s.unanswered ps).2 := by
  unfold State.unanswered
  split
  · exact .refl s
  · exact ⟨.refl _, rfl, rfl, rfl, rfl, rfl, rfl⟩

theorem State.fetched_fetchReads (s : State) (p : Place) : s.Fetched (s.fetchReads p) := by
  unfold State.fetchReads
  split
  · exact (s.filled_bayReads _ _ _).fetched
  · exact .refl s

theorem State.fetched_keepWord (s : State) (st : Stream) (a : Nat) (w : BitVec 128) : s.Fetched (s.modC (fun c => c.keepWord st a w)) :=
  ⟨s.cur.spared_keepWord st a w, rfl, rfl, rfl, rfl, rfl, rfl⟩

theorem State.fetched_fetchAt (s : State) (st : Stream) (va : Nat) : s.Fetched (s.fetchAt st va).2 := by
  have htrans := (s.translate_translated (s.cur.fetchCtx st) va { ex := true }).fetched
  unfold State.fetchAt
  split
  · next h => rw [h] at htrans; exact htrans
  · next h => rw [h] at htrans; exact htrans.trans (State.fetched_poisonUsed _ _ _ _)
  · next l t h =>
    rw [h] at htrans
    dsimp only
    split
    · exact htrans
    · split
      · exact htrans.trans (State.fetched_poisonUsed _ _ _ _)
      · have hun := t.fetched_unanswered [t.framed t.cur.ctx.launch false (l.codePlace va (t.cur.wordBytes st))]
        split
        · split
          · exact htrans.trans hun
          · exact (htrans.trans hun).trans ((State.fetched_fetchReads _ _).trans (State.fetched_keepWord _ st va _))
        · split
          · exact htrans
          · exact htrans.trans ⟨.refl _, rfl, rfl, rfl, rfl, rfl, rfl⟩

theorem State.fetched_nextWord (s : State) (st : Stream) : s.Fetched (s.nextWord st).2 := by
  have hfetch := s.fetched_fetchAt st (s.cur.pc st).toNat
  unfold State.nextWord State.fetch
  split
  · next t u h =>
    rw [h] at hfetch
    exact hfetch.trans ⟨.refl _, rfl, rfl, rfl, rfl, rfl, rfl⟩
  · next w u h =>
    rw [h] at hfetch
    exact hfetch.trans ⟨.refl _, rfl, rfl, rfl, rfl, rfl, rfl⟩

end Sys2Proof.Machine
end

section
/-! SUPPORT. Barrier instances, and a trap at an agent's next instruction (R113, R224 to R227). -/

open Sys2Proof Sys2Proof.Machine

namespace Sys2Proof.Machine

/-- A barrier read after it has been replaced. -/
theorem State.barrier_setBarrier (s : State) (lid : Word) (scope u id : Nat) (b : Barrier) :
    (s.setBarrier lid scope u id b).barrier lid scope u id = b := by
  have hfind {α : Type} [BEq α] [LawfulBEq α] (key : α) (m : List (α × Barrier)) (b : Barrier) (r : List (α × Barrier))
      (hr : r = [(key, b)] ∨ (r = [] ∧ b = Barrier.zero)) :
      (((m.filter (fun e => e.1 != key) ++ r).find? (fun e => e.1 == key)).map Prod.snd).getD Barrier.zero = b := by
    have hnone : (m.filter (fun e => e.1 != key)).find? (fun e => e.1 == key) = none := by simp
    rw [List.find?_append, hnone]
    rcases hr with rfl | ⟨rfl, rfl⟩
    · simp
    · rfl
  unfold State.barrier State.setBarrier
  by_cases h3 : scope = 3
  · simp only [h3, if_pos, Sparse.get_set]
  · by_cases h2 : scope = 2
    · simp only [if_neg h3, if_pos h2, Sparse.get_set, if_true]
      refine hfind (lid, u % 256, id) _ b _ ?_
      split
      · next hb => exact .inr ⟨rfl, hb⟩
      · exact .inl rfl
    · simp only [if_neg h3, if_neg h2]
      exact hfind (lid, scope, u, id) s.gbars b _ (.inl rfl)

theorem State.setBarrier_mem (s : State) (lid : Word) (scope u id : Nat) (b : Barrier) :
    (s.setBarrier lid scope u id b).mem = s.mem ∧ (s.setBarrier lid scope u id b).cur = s.cur := by
  unfold State.setBarrier
  split
  · exact ⟨rfl, rfl⟩
  · split <;> exact ⟨rfl, rfl⟩

theorem State.barrier_congr {s t : State} (hp : t.planes = s.planes) (hg : t.gbars = s.gbars) (lid : Word) (scope u id : Nat) :
    t.barrier lid scope u id = s.barrier lid scope u id := by
  unfold State.barrier
  rw [hp, hg]

/-- The note of a trap reaches a client, and changes nothing of the device. -/
theorem State.note_eq (s : State) (c : Course) (reason : Nat) (pc : DWord) : ∃ o, s.note c reason pc = { s with outbox := o } := by
  unfold State.note
  split
  · exact ⟨s.outbox, rfl⟩
  · exact ⟨_, rfl⟩

/-- A trap of a course: its stream stops at the recorded program counter (R353). -/
theorem State.trapAt_cur {s : State} (h : s.cur.sys = none) (st : Stream) (t : Trp) :
    (s.trapAt st t).cur = { s.cur.setPc st (s.cur.trapInfo st s.word s.now t).pc with trap := some (s.cur.trapInfo st s.word s.now t) } := by
  unfold State.trapAt
  dsimp only
  rw [h]
  dsimp only
  split
  · obtain ⟨o, ho⟩ := State.note_eq _ s.cur 3 _
    rw [ho]
  · obtain ⟨o, ho⟩ := State.note_eq _ s.cur 3 _
    rw [ho]

/-- A trap at the next instruction of the address stream, whatever it is (R113): nothing else of the course changes but what it knows. -/
theorem State.trapNext_spec {s : State} (h : s.cur.sys = none) (code : Code) :
    let st := s.cur.streamOf true
    ∃ x, (s.trapNext code).cur.trap = some x ∧ x.code = code ∧ x.stream = st ∧ x.pc = s.cur.pc st ∧ (s.trapNext code).cur.hold = s.cur.hold ∧
      (s.trapNext code).cur.pc st = s.cur.pc st ∧ (s.trapNext code).cur.s = s.cur.s ∧ (s.trapNext code).cur.promises = s.cur.promises ∧
      (s.trapNext code).cur.work = s.cur.work := by
  intro st
  have hcur := (s.fetched_nextWord st).cur
  unfold State.trapNext
  dsimp only
  rw [State.trapAt_cur (hcur.sys h)]
  refine ⟨_, rfl, rfl, rfl, hcur.pc st, ?_, ?_, ?_, ?_, ?_⟩
  · exact (Course.setPc_hold _ _ _).trans (hcur.hold h)
  · exact (Course.pc_setPc _ st _).trans (hcur.pc st)
  · exact (Course.setPc_s _ _ _).trans hcur.s
  · exact (Course.setPc_promises _ _ _).trans hcur.promises
  · exact (Course.setPc_work _ _ _).trans hcur.work

end Sys2Proof.Machine

namespace Sys2Proof.BarriersAndSleep

/-- An agent whose stream may go on is a core, or resident in an Active plane; no hold keeps its address stream. -/
theorem active_of_frontReady {s : State} {st : Stream} {dist : Nat} (hsys : s.cur.sys = none) (h : s.frontReady st dist = true) :
    s.active s.cur = true := by
  unfold State.frontReady at h
  simp only [hsys, Bool.and_eq_true] at h
  unfold State.active
  simp only [Bool.and_eq_true]
  tauto

/-- The own part of `BAR` (R224, R381). -/
def barBody (rd ra : BitVec 6) (id scope : BitVec 4) (s : State) : Res :=
  let n := (s.cur.S ra.toNat).toNat
  if n = 0 ∨ 65535 < n then .trap s { code := 0x65 }
  else match s.cur.barUnit scope.toNat with
    | none => regs 1 [.s rd.toNat 0] (((s.releaseC 1).2.acquireC (s.releaseC 1).1).modC (fun c => c.passOne 1 (instanceOf s.cur.lid 0 id.toNat)))
    | some unit =>
      if (s.launchOf.map (fun l => l.abandoned)).getD false then regs 1 [.s rd.toNat 0x27] s
      else s.arrive rd.toNat scope.toNat unit id.toNat n

theorem exec_bar (k : Ctl) (rd ra : BitVec 6) (id scope : BitVec 4) (s : State) :
    exec (.bar k rd ra id scope) s = execCourse k {} (barBody rd ra id scope) s := rfl

section
variable {s : State} {rd ra : BitVec 6} {id scope : BitVec 4}

theorem barBody_course (hn : 0 < (s.cur.S ra.toNat).toNat) (hmax : (s.cur.S ra.toNat).toNat ≤ 65535)
    (hunit : s.cur.barUnit scope.toNat = none) : barBody rd ra id scope s =
      regs 1 [.s rd.toNat 0] (((s.releaseC 1).2.acquireC (s.releaseC 1).1).modC (fun c => c.passOne 1 (instanceOf s.cur.lid 0 id.toNat))) := by
  unfold barBody
  dsimp only
  rw [if_neg (by omega), hunit]

theorem barBody_arrives {u : Nat} (hn : 0 < (s.cur.S ra.toNat).toNat) (hmax : (s.cur.S ra.toNat).toNat ≤ 65535)
    (hunit : s.cur.barUnit scope.toNat = some u) (hstands : ∀ l, s.launchOf = some l → l.abandoned = false) :
    barBody rd ra id scope s = s.arrive rd.toNat scope.toNat u id.toNat (s.cur.S ra.toNat).toNat := by
  unfold barBody
  dsimp only
  rw [if_neg (by omega), hunit]
  refine if_neg ?_
  cases hl : s.launchOf with
  | none => simp
  | some l => simp [hstands l hl]

end

section
variable {s : State} {rd u id n scope : Nat}

/-- The arrival that completes a generation departs (R224). -/
theorem arrive_completes (hown : scope = 3 → (s.barrier s.cur.lid scope u id).count = 0 ∨ (s.barrier s.cur.lid scope u id).lid = s.cur.lid)
    (hsize : (s.barrier s.cur.lid scope u id).count = 0 ∨ (s.barrier s.cur.lid scope u id).n = n)
    (hlast : (s.barrier s.cur.lid scope u id).count + 1 = n) :
    ∃ t, s.arrive rd scope u id n = regs 1 [.s rd 0] t ∧ t.mem = s.mem ∧ (t.barrier s.cur.lid scope u id).count = 0 ∧
      (t.barrier s.cur.lid scope u id).epoch = (s.barrier s.cur.lid scope u id).epoch + 1 := by
  unfold State.arrive
  dsimp only
  rw [if_neg (by tauto), if_neg (by tauto)]
  refine ⟨_, if_pos hlast, (State.setBarrier_mem _ _ _ _ _ _).1, ?_, ?_⟩
  · exact congrArg Barrier.count (State.barrier_setBarrier _ _ _ _ _ _)
  · exact congrArg Barrier.epoch (State.barrier_setBarrier _ _ _ _ _ _)

/-- An arrival before it is held (R224). -/
theorem arrive_holds (hown : scope = 3 → (s.barrier s.cur.lid scope u id).count = 0 ∨ (s.barrier s.cur.lid scope u id).lid = s.cur.lid)
    (hsize : (s.barrier s.cur.lid scope u id).count = 0 ∨ (s.barrier s.cur.lid scope u id).n = n)
    (hearly : (s.barrier s.cur.lid scope u id).count + 1 < n) :
    ∃ t, s.arrive rd scope u id n = .done t { lat := none, act := .bar, target := some (s.cur.pc (s.cur.streamOf true)) } ∧ t.mem = s.mem ∧
      (t.barrier s.cur.lid scope u id).count = (s.barrier s.cur.lid scope u id).count + 1 ∧ (t.barrier s.cur.lid scope u id).n = n ∧
      t.cur.hold = .bar scope u id ((s.barrier s.cur.lid scope u id).epoch + 1) rd none ∧ t.cur.s = s.cur.s := by
  unfold State.arrive
  dsimp only
  rw [if_neg (by tauto), if_neg (by tauto)]
  refine ⟨_, if_neg (by omega), (State.setBarrier_mem _ _ _ _ _ _).1, ?_, ?_, rfl, ?_⟩
  · exact congrArg Barrier.count (State.barrier_setBarrier _ _ _ _ _ _)
  · exact congrArg Barrier.n (State.barrier_setBarrier _ _ _ _ _ _)
  · exact (congrArg Course.s (State.setBarrier_mem (s.releaseC scope).2 s.cur.lid scope u id _).2 :)

/-- Another size than the pending generation's traps (R224). -/
theorem arrive_otherSize (hown : scope = 3 → (s.barrier s.cur.lid scope u id).lid = s.cur.lid)
    (hcount : (s.barrier s.cur.lid scope u id).count ≠ 0) (hsize : (s.barrier s.cur.lid scope u id).n ≠ n) :
    s.arrive rd scope u id n = .trap s { code := 0x65 } :=
  (if_neg (by tauto)).trans (if_pos ⟨hcount, hsize⟩)

/-- A barrier of a wall that another launch's generation holds is waited for (R225). -/
theorem arrive_otherLaunch (hscope : scope = 3) (hcount : (s.barrier s.cur.lid scope u id).count ≠ 0)
    (hown : (s.barrier s.cur.lid scope u id).lid ≠ s.cur.lid) : s.arrive rd scope u id n = .wait s := if_pos ⟨hscope, hcount, hown⟩

end

theorem barriers : Claims.Barriers := by
  intro s k rd ra id scope hsys hready n b
  have h3 : scope = 3 ↔ scope.toNat = 3 := ⟨fun h => h ▸ rfl, fun h => BitVec.eq_of_toNat_eq h⟩
  refine ⟨fun hn => traps_of_execCourse (exec_bar ..) hsys hready (if_pos hn), fun hn hmax hunit => ?_, fun u hn hmax hunit hstands hown hsize => ⟨fun hlast => ?_,
    fun hearly => ?_⟩, fun u hn hmax hunit hstands hown hcount hsize => ?_, fun u hn hmax hscope hunit hstands hcount hown => ?_⟩
  · have h := answers_of_execCourse (exec_bar k rd ra id scope s) hsys hready (barBody_course hn hmax hunit)
    exact ⟨_, h, by simp [State.acquireC, State.releaseC, Course.passOne, Course.pass], by simp [State.acquireC, State.releaseC]⟩
  · obtain ⟨t, harrive, hmem, hcount, hepoch⟩ := arrive_completes (rd := rd.toNat) (fun h => hown (h3.2 h)) hsize hlast
    exact ⟨t, answers_of_execCourse (exec_bar ..) hsys hready ((barBody_arrives hn hmax hunit hstands).trans harrive), hcount, hepoch, hmem⟩
  · obtain ⟨t, harrive, hmem, hcount, hn', hhold, hs⟩ := arrive_holds (rd := rd.toNat) (fun h => hown (h3.2 h)) hsize hearly
    have hnext := answers_of_execCourse (i := .bar k rd ra id scope) (exec_bar ..) hsys hready ((barBody_arrives hn hmax hunit hstands).trans harrive)
    have hbar := State.barrier_congr (s := t) (t := t.issued (s.cur.streamOf true) (sigFlag k) {}
      { lat := none, act := .bar, target := some (s.cur.pc (s.cur.streamOf true)) }) (by simp) (by simp) s.cur.lid scope.toNat u id.toNat
    refine ⟨_, hnext, (congrArg Barrier.count hbar).trans hcount, (congrArg Barrier.n hbar).trans hn', ?_, ?_, ?_, ?_⟩
    · rw [State.issued_cur, Course.issued_hold]
      exact hhold
    · rw [State.issued_cur, Course.issued_pc]
      rfl
    · simpa using hmem
    · rw [State.issued_cur, Course.issued_s]
      exact hs
  · exact traps_of_execCourse (exec_bar ..) hsys hready ((barBody_arrives hn hmax hunit hstands).trans
      (arrive_otherSize (fun h => hown (h3.2 h)) hcount hsize))
  · subst hscope
    have hunit : s.cur.barUnit (3 : BitVec 4).toNat = some u := hunit
    exact waits_of_execCourse (exec_bar ..) hsys hready ((barBody_arrives hn hmax hunit hstands).trans (arrive_otherLaunch rfl hcount hown))

/-- The focus stands on an agent that is named. -/
theorem sleepAndEvents : Claims.SleepAndEvents := by
  intro s k rd hready
  refine ⟨answers_of_execA rfl hready rfl, fun hev => answers_of_execA rfl hready ?_, fun hev => answers_of_execA rfl hready ?_, ?_,
    fun t v hhold hsys htrap hactive => ?_⟩
  · simp only [regs, State.modC, hev, if_pos]
  · simp only [regs, State.modC, hev]
    rfl
  · refine ⟨_, answers_of_execA rfl hready rfl, ?_, fun hhold => ?_⟩
    · split <;> rfl
    · have hset : s.cur.setEvent.event = true := by simp [Course.setEvent, hhold]
      cases hsys : s.cur.sys with
      | some y => exact hset
      | none =>
        have hactive := active_of_frontReady hsys hready.1.1
        simpa [State.modWhere, State.modAll, hsys, hactive] using hset
  · have hover : (t.sleepOver t.cur && t.cur.trap.isNone && (t.cur.sys.isSome || t.active t.cur)) = decide (v.toNat ≤ t.now.toNat) := by
      simp only [State.sleepOver, hhold, htrap, hactive, Option.isNone_none, Bool.or_true, Bool.and_true]
      rfl
    have hexec : exec (.sleeptWake t.cur.ident) t = .next (if decide (v.toNat ≤ t.now.toNat) then
        (if t.cur.promises.any (fun p => p.2.toNat ≤ t.now.toNat) then
          ({ t with cur := { t.cur with hold := .none } }.countEvent t.cur.wall 9 1).trapNext 0x42
          else { t with cur := { t.cur with hold := .none } }) else t) := by
      rw [← hover]
      change execSleeptWake t.cur.ident t = _
      unfold execSleeptWake
      rw [State.focus_self]
      rfl
    rw [hexec]
    refine ⟨fun hv hall => ?_, fun hv p hp hlate => ?_, fun hv => by rw [if_neg (by simpa using hv)]⟩
    · rw [if_pos (decide_eq_true hv), if_neg]
      simpa using hall
    · rw [if_pos (decide_eq_true hv), if_pos (List.any_eq_true.2 ⟨p, hp, by simpa using hlate⟩)]
      obtain ⟨ws, hws, -⟩ := State.countEvent_eq { t with cur := { t.cur with hold := .none } } t.cur.wall 9 1
      rw [hws]
      obtain ⟨x, hx, hcode, hst, hpc, hrest⟩ := State.trapNext_spec (s := { t with cur := { t.cur with hold := .none }, walls := ws }) hsys 0x42
      exact ⟨_, x, rfl, hx, hcode, hst, hpc, hrest⟩

/-- Settles O30: an arrival by the case of `State.arrive` it falls in, sleep and events by their one step. -/
theorem barriersAndSleep : Obligations.BarriersAndSleep := ⟨barriers, sleepAndEvents⟩

end Sys2Proof.BarriersAndSleep
end

section
/-! SUPPORT. Peers, redundant pairs, clients (R151, R330, R362, R363, R376, R387, R388). -/

open Sys2Proof Sys2Proof.Machine

namespace Sys2Proof.Machine

/-! Stores from outside: pieces of a range with their bytes. -/

theorem State.dropBlocks_eq (s : State) (a n : Nat) : ∃ ws, s.dropBlocks a n = { s with walls := ws } ∧ s.SameJobs { s with walls := ws } := by
  unfold State.dropBlocks
  dsimp only
  split
  · split
    · exact ⟨s.walls, rfl, fun _ _ => rfl⟩
    · exact ⟨_, rfl, s.sameJobs_setWall _ _ rfl⟩
  · exact ⟨s.walls, rfl, fun _ _ => rfl⟩

theorem State.pastHost_eq (s : State) (a n : Nat) : ∃ h, s.pastHost a n = { s with hostMem := h } := by
  unfold State.pastHost
  split
  · exact ⟨s.hostMem, rfl⟩
  · exact ⟨_, rfl⟩

theorem State.cleanse_eq (s : State) (ps : List Place) : ∃ p, s.cleanse ps = { s with poison := p } := by
  unfold State.cleanse
  split
  · exact ⟨s.poison, rfl⟩
  · exact ⟨_, rfl⟩

/-- One store of `State.busStore`. -/
def State.busPut (s : State) (e : Place × List Byte) : State :=
  { ((s.dropBlocks e.1.pa e.1.w).pastHost e.1.pa e.1.w).store e.1.pa e.2 with rels := cutRels s.rels e.1.pa e.1.w }

theorem State.busStore_eq_foldl (s : State) (ps : List (Place × List Byte)) :
    s.busStore ps = ps.foldl State.busPut (s.cleanse (ps.map Prod.fst)) := rfl

theorem State.busPut_spec (s : State) (e : Place × List Byte) :
    (s.busPut e).mem = Memory.store s.mem e.1.pa e.2 ∧ (s.busPut e).busOut = s.busOut := by
  unfold State.busPut
  obtain ⟨ws, hws, -⟩ := s.dropBlocks_eq e.1.pa e.1.w
  rw [hws]
  obtain ⟨h, hh⟩ := State.pastHost_eq { s with walls := ws } e.1.pa e.1.w
  rw [hh]
  exact ⟨rfl, rfl⟩

/-- Places that stand where their addresses do, for the pieces of a range. -/
def plainPlaces (l : List (Nat × Nat)) : List Place := l.map (fun p => { t := 0, va := p.1, w := p.2, pa := p.1, chk := false })

/-- The bytes of a string written at a range, read one by one. -/
theorem State.foldl_busPut (fuel a n : Nat) (bs : List Byte) (hlen : bs.length = n) (hfuel : n = 0 ∨ n + a % 32 ≤ 32 * fuel) (s : State) (x : Nat) :
    ((cutBytes (plainPlaces (piecesFrom fuel a n)) bs).foldl State.busPut s).byte x =
      if a ≤ x ∧ x < a + n then bs.getD (x - a) 0 else s.byte x := by
  induction fuel generalizing a n bs s with
  | zero =>
    rw [if_neg (by omega)]
    rfl
  | succ fuel ih =>
    by_cases hn : n = 0
    · rw [if_neg (by omega)]
      simp [piecesFrom, hn, plainPlaces, cutBytes]
    · have hw : 0 < min n (32 - a % 32) ∧ min n (32 - a % 32) ≤ n := by omega
      have hnext : n - min n (32 - a % 32) = 0 ∨ n - min n (32 - a % 32) + (a + min n (32 - a % 32)) % 32 ≤ 32 * fuel := by omega
      generalize hmin : min n (32 - a % 32) = w at hw hnext
      have hstep : (cutBytes (plainPlaces (piecesFrom (fuel + 1) a n)) bs).foldl State.busPut s =
          (cutBytes (plainPlaces (piecesFrom fuel (a + w) (n - w))) (bs.drop w)).foldl State.busPut
            (s.busPut ({ t := 0, va := a, w := w, pa := a, chk := false }, bs.take w)) := by
        simp [piecesFrom, hn, plainPlaces, cutBytes, hmin]
      have hput : (s.busPut ({ t := 0, va := a, w := w, pa := a, chk := false }, bs.take w)).byte x = (s.store a (bs.take w)).byte x :=
        congrArg (fun m => Sparse.get m x 0) (s.busPut_spec _).1
      rw [hstep, ih (a + w) (n - w) (bs.drop w) (by simp [hlen]) hnext, hput, State.byte_store]
      have htake : (bs.take w).length = w := by simp [hlen, hw.2]
      by_cases hrest : a + w ≤ x ∧ x < a + w + (n - w)
      · have hsub : w + (x - (a + w)) = x - a := by omega
        rw [if_pos hrest, if_pos (by omega)]
        simp [List.getD, List.getElem?_drop, hsub]
      · rw [if_neg hrest]
        by_cases hfirst : a ≤ x ∧ x - a < (bs.take w).length
        · have hx : x - a < w := by omega
          rw [dif_pos hfirst, if_pos (by omega)]
          simp [List.getD, List.getElem?_eq_getElem (show x - a < bs.length by omega)]
        · rw [dif_neg hfirst, if_neg (by omega)]

theorem State.foldl_busPut_busOut (l : List (Place × List Byte)) (s : State) : (l.foldl State.busPut s).busOut = s.busOut := by
  induction l generalizing s with
  | nil => rfl
  | cons e r ih => rw [List.foldl_cons, ih, (s.busPut_spec e).2]

/-- A peer's write of a range (R330): its bytes stand there, and no other byte changes. -/
theorem State.busStore_pieces (s : State) (a : Nat) (bs : List Byte) :
    (s.busStore (cutBytes (plainPlaces (pieces a bs.length)) bs)).busOut = s.busOut ∧
      ∀ x, (s.busStore (cutBytes (plainPlaces (pieces a bs.length)) bs)).byte x =
        if a ≤ x ∧ x < a + bs.length then bs.getD (x - a) 0 else s.byte x := by
  rw [State.busStore_eq_foldl]
  obtain ⟨p, hp⟩ := s.cleanse_eq ((cutBytes (plainPlaces (pieces a bs.length)) bs).map Prod.fst)
  rw [hp]
  exact ⟨State.foldl_busPut_busOut _ _, fun x => State.foldl_busPut _ a bs.length bs rfl (.inr (by omega)) { s with poison := p } x⟩

/-! A peer's request is served (R330, R388). -/

/-- Nothing keeps a peer's request for some bytes from being served, but poison, a full directory and what the request itself is. -/
structure State.PeerOpen (s : State) (dev a n : Nat) : Prop where
  dev : dev ≤ 63
  fabric : s.fabric = true
  reaches : s.peerReaches a n = true
  awake : s.peerStalls a n = false
  on : (List.range n).any (fun i => s.gatedAt (a + i)) = false

theorem peerStalls_false {s : State} {a n : Nat} (h : ∀ i < n, s.stalls (a + i) = false) : s.peerStalls a n = false := by
  simpa [State.peerStalls] using h

theorem peerStalls_true {s : State} {a n i : Nat} (hi : i < n) (h : s.stalls (a + i) = true) : s.peerStalls a n = true :=
  List.any_eq_true.2 ⟨i, List.mem_range.2 hi, h⟩

/-- What a request that nothing keeps comes to, once none of its bytes that are read is poisoned. -/
def State.servedOpen (s : State) (dev : Nat) (pa : BitVec 52) (rq : BusReq) : State :=
  let a := pa.toNat
  let n := reqLen rq
  match rq with
  | .read _ => s.answer (.data (s.load a n))
  | .write bs _ => (s.busStore (cutBytes (plainPlaces (pieces a n)) bs)).answer .ok
  | .atomic op _ x who k =>
    s.peerAtomic dev pa rq who k (fun old => if op = 11 then none else some (amoNew op.toNat n old (x.toNat % 2 ^ (8 * n))))
  | .cas _ expected new who k =>
    s.peerAtomic dev pa rq who k (fun old => if old = expected.toNat % 2 ^ (8 * n) then some (new.toNat % 2 ^ (8 * n)) else none)
  | _ => s.answer (.failed 0x10)

section
variable {s : State} {dev : Nat} {pa : BitVec 52} {rq : BusReq} (h : s.PeerOpen dev pa.toNat (reqLen rq))
include h

theorem State.servePeer_poisoned (hread : ∀ bs p, rq ≠ .write bs p) (hp : ∃ i < reqLen rq, s.poisoned (pa.toNat + i) = true) :
    (s.servePeer dev pa rq).busOut = s.busOut ++ [.failed 0x0C] := by
  obtain ⟨hdev, hfabric, hreaches, hawake, hon⟩ := h
  obtain ⟨i, hfind⟩ : ∃ i, (List.range (reqLen rq)).find? (fun i => s.poisoned (pa.toNat + i)) = some i := by
    obtain ⟨i, hi, hpi⟩ := hp
    exact Option.isSome_iff_exists.1 (List.find?_isSome.2 ⟨i, List.mem_range.2 hi, hpi⟩)
  have hserve : s.servePeer dev pa rq = (s.poisonUsed (pa.toNat + i) 0 (homeYard pa.toNat / 4)).answer (.failed 0x0C) := by
    unfold State.servePeer
    dsimp only
    rw [if_neg (by simp [hfabric, hdev]), if_neg (by simp [hreaches]), if_neg (by simp [hawake]), if_neg (by rw [hon]; simp)]
    cases rq with
    | write bs p => exact absurd rfl (hread bs p)
    | _ =>
      dsimp only
      rw [if_pos rfl, hfind]
  obtain ⟨c, ps, m, p, r, dr, mo, hused, -⟩ := s.poisonUsed_eq (pa.toNat + i) 0 (homeYard pa.toNat / 4)
  rw [hserve, hused]
  rfl

theorem State.servePeer_open (hp : (∃ bs p, rq = .write bs p) ∨ ∀ i < reqLen rq, s.poisoned (pa.toNat + i) = false) :
    s.servePeer dev pa rq = s.servedOpen dev pa rq := by
  obtain ⟨hdev, hfabric, hreaches, hawake, hon⟩ := h
  have hnone (hp : ∀ i < reqLen rq, s.poisoned (pa.toNat + i) = false) :
      (List.range (reqLen rq)).find? (fun i => s.poisoned (pa.toNat + i)) = none := by simpa using hp
  unfold State.servePeer State.servedOpen
  dsimp only
  rw [if_neg (by simp [hfabric, hdev]), if_neg (by simp [hreaches]), if_neg (by simp [hawake]), if_neg (by rw [hon]; simp)]
  cases rq with
  | write bs p => rfl
  | _ =>
    dsimp only
    rw [if_pos rfl, hnone (hp.resolve_left (by simp))]

end

/-! A read-modify-write at the home directory (R388). -/

section
variable {s : State} {dev : Nat} {pa : BitVec 52} {rq : BusReq} {who : DWord} {k : Nat} {f : Nat → Option Nat}

theorem State.peerAtomic_recorded {rs : List DWord} (h : s.keyed? s.homeUnit who k = some rs) :
    s.peerAtomic dev pa rq who k f = s.answer (.data (rs.flatMap (fun r => bytesLE (reqLen rq) r.toNat))) := by
  unfold State.peerAtomic
  dsimp only
  rw [h]

theorem State.peerAtomic_crosses (h : s.keyed? s.homeUnit who k = none) (hc : 32 < pa.toNat % 32 + reqLen rq) :
    s.peerAtomic dev pa rq who k f = s.answer (.failed 0x0A) := by
  unfold State.peerAtomic
  dsimp only
  rw [h]
  exact if_pos (by simpa [crosses] using hc)

theorem State.peerAtomic_full (h : s.keyed? s.homeUnit who k = none) (hc : pa.toNat % 32 + reqLen rq ≤ 32) (hfull : s.peerFull rq = true) :
    s.peerAtomic dev pa rq who k f = { s with stalled := s.stalled ++ [(dev, pa, rq)] } := by
  unfold State.peerAtomic
  dsimp only
  rw [h]
  exact (if_neg (by simpa [crosses] using hc)).trans (if_pos hfull)

/-- An atomic that is performed writes what `f` gives, if anything, and answers with the old value. -/
theorem State.peerAtomic_performed (h : s.keyed? s.homeUnit who k = none) (hc : pa.toNat % 32 + reqLen rq ≤ 32) (hfull : s.peerFull rq = false) :
    let a := pa.toNat
    let n := reqLen rq
    let t := s.peerAtomic dev pa rq who k f
    t.busOut = s.busOut ++ [.data (bytesLE n (s.loadNat a n))] ∧ (∀ b, b < a ∨ a + n ≤ b → t.byte b = s.byte b) ∧
      t.loadNat a n = match f (s.loadNat a n) with | some x => x % 256 ^ n | none => s.loadNat a n := by
  unfold State.peerAtomic
  dsimp only
  rw [h]
  have hcross : ¬ crosses pa.toNat (reqLen rq) = true := by simpa [crosses] using hc
  dsimp only
  rw [if_neg hcross, if_neg (Bool.eq_false_iff.1 hfull)]
  cases f (s.loadNat pa.toNat (reqLen rq)) with
  | none => exact ⟨rfl, fun _ _ => rfl, rfl⟩
  | some x =>
    obtain ⟨ws, hws, -⟩ := s.dropBlocks_eq pa.toNat (reqLen rq)
    rw [hws]
    refine ⟨rfl, fun b hb => ?_, State.loadNat_storeNat _ _ _ _⟩
    exact State.byte_store_outside s pa.toNat _ (by simpa [bytesLE_length] using hb)

end

end Sys2Proof.Machine

namespace Sys2Proof.RemoteAgentsAndClients

theorem exec_peerRequestArrival {s t : State} {dev : Nat} {pa : BitVec 52} {rq : BusReq} (h : s.servePeer dev pa rq = t) :
    exec (.peerRequestArrival dev pa rq) s = .next t := congrArg Host.Outcome.next h

theorem match_casValue (old expected new m : Nat) :
    (match (if old = expected then some new else none) with | some x => x % m | none => old) = if old = expected then new % m else old := by
  by_cases h : old = expected <;> simp [h]

theorem peerRequests : Claims.PeerRequests := by
  intro s dev pa rq a n run done
  refine ⟨fun h => ?_, fun hdev hfab hreach => ?_, fun hdev hfab hreach hstall => ?_, fun hdev hfab hreach hawake hgate => ?_,
    fun hdev hfab hreach hfree => ?_⟩
  · exact exec_peerRequestArrival (if_pos (by simpa using h))
  · exact exec_peerRequestArrival ((if_neg (by simp [hdev, hfab])).trans (if_pos (by simpa using hreach)))
  · obtain ⟨i, hi, hstall⟩ := hstall
    have hstalls := peerStalls_true hi hstall
    exact ⟨exec_peerRequestArrival ((if_neg (by simp [hdev, hfab])).trans ((if_neg (by simpa using hreach)).trans (if_pos hstalls))),
      congrArg _ (if_pos (Bool.or_eq_true_iff.2 (.inl hstalls)))⟩
  · obtain ⟨i, hi, hgate⟩ := hgate
    exact exec_peerRequestArrival ((if_neg (by simp [hdev, hfab])).trans ((if_neg (by simpa using hreach)).trans
      ((if_neg (Bool.eq_false_iff.1 (peerStalls_false hawake))).trans (if_pos (List.any_eq_true.2 ⟨i, List.mem_range.2 hi, hgate⟩)))))
  · have hopen : s.PeerOpen dev a n := ⟨hdev, hfab, hreach, peerStalls_false fun i hi => (hfree i hi).1, by simpa using fun i hi => (hfree i hi).2⟩
    refine ⟨fun hp hread => ⟨_, rfl, State.servePeer_poisoned hopen hread hp⟩, fun k hk hp => ?_, fun bs p hw => ?_, fun op wide x who k hat hp => ?_,
      fun wide x y who k hcas hp hkey hc hroom => ?_⟩
    · subst hk
      have hrun := State.servePeer_open hopen (.inr hp)
      refine ⟨exec_peerRequestArrival hrun, ?_⟩
      have hproceeds : peerProceeds (dev, pa, .read k) s = .next (State.servePeer { s with stalled := s.stalled.erase (dev, pa, .read k) } dev pa (.read k)) :=
        congrArg _ (if_neg (by rw [show s.peerStalls _ _ = false from hopen.awake]; simp [State.peerFull, reqKey]))
      rw [hproceeds]
      exact congrArg _ (State.servePeer_open (s := { s with stalled := s.stalled.erase (dev, pa, .read k) }) ⟨hdev, hfab, hreach, hopen.awake, hopen.on⟩ (.inr hp))
    · subst hw
      obtain ⟨hout, hbytes⟩ := s.busStore_pieces a bs
      refine ⟨_, ⟨exec_peerRequestArrival (State.servePeer_open hopen (.inl ⟨bs, p, rfl⟩)), congrArg (· ++ [BusAns.ok]) hout, fun b hb => ?_⟩, ?_⟩
      · exact (hbytes b).trans (if_neg (by have : n = bs.length := rfl; omega))
      · refine List.ext_getElem (by simp [State.load]) fun i hi hi' => ?_
        have hrow := (hbytes (a + i)).trans (if_pos ⟨by omega, by omega⟩)
        simp only [State.load, List.getElem_map, List.getElem_range]
        refine Eq.trans hrow ?_
        simp [List.getD, List.getElem?_eq_getElem hi']
    · subst hat
      have hserved : s.servePeer dev pa (.atomic op wide x who k) = s.peerAtomic dev pa (.atomic op wide x who k) who k
          (fun old => if op = 11 then none else some (amoNew op.toNat n old (x.toNat % 2 ^ (8 * n)))) := State.servePeer_open hopen (.inr hp)
      have hfull (hkey : s.keyed? s.homeUnit who k = none) : s.peerFull (.atomic op wide x who k) =
          decide (4096 ≤ (s.keys.filter (fun e => e.1 == 4096 + s.did)).length) := by
        simp only [State.peerFull, reqKey, Option.any_some, hkey]
        rfl
      refine ⟨fun rs hkey => exec_peerRequestArrival (hserved.trans (State.peerAtomic_recorded hkey)),
        fun hkey hc => exec_peerRequestArrival (hserved.trans (State.peerAtomic_crosses hkey hc)),
        fun hkey hc hroom => exec_peerRequestArrival (hserved.trans (State.peerAtomic_full hkey hc (by rw [hfull hkey]; simpa using hroom))),
        fun hkey hc hroom hop => ?_⟩
      obtain ⟨hout, hframe, hval⟩ := State.peerAtomic_performed (dev := dev) (f := fun old => if op = 11 then none
        else some (amoNew op.toNat n old (x.toNat % 2 ^ (8 * n)))) hkey hc (by rw [hfull hkey]; simpa using hroom)
      refine ⟨_, ⟨exec_peerRequestArrival hserved, hout, hframe⟩, hval.trans ?_⟩
      rw [if_neg hop, Nat.pow_mul]
    · subst hcas
      have hserved : s.servePeer dev pa (.cas wide x y who k) = s.peerAtomic dev pa (.cas wide x y who k) who k
          (fun old => if old = x.toNat % 2 ^ (8 * n) then some (y.toNat % 2 ^ (8 * n)) else none) := State.servePeer_open hopen (.inr hp)
      have hfull : s.peerFull (.cas wide x y who k) = false := by
        have hkey : s.keyed? s.homeUnit who k = none := hkey
        simp only [State.peerFull, reqKey, Option.any_some, hkey]
        exact (Bool.true_and _).trans (decide_eq_false (not_le.2 hroom))
      obtain ⟨hout, hframe, hval⟩ := State.peerAtomic_performed (dev := dev) (f := fun old => if old = x.toNat % 2 ^ (8 * n)
        then some (y.toNat % 2 ^ (8 * n)) else none) hkey hc hfull
      refine ⟨_, ⟨exec_peerRequestArrival hserved, hout, hframe⟩, hval.trans ?_⟩
      refine (match_casValue _ _ _ _).trans ?_
      have hmod : y.toNat % 2 ^ (8 * n) % 256 ^ n = y.toNat % 2 ^ (8 * n) := by
        rw [Nat.pow_mul]
        exact Nat.mod_mod _ _
      exact congrArg (fun v => if s.loadNat a n = x.toNat % 2 ^ (8 * n) then v else s.loadNat a n) hmod

/-! Client functions (R151, R326, R363). -/

section
variable {s : State} {vf : Nat} {va : DWord} {rq : BusReq}

/-- What an enabled function does with an access. -/
def served (vf : Nat) (va : DWord) (rq : BusReq) (s : State) : State :=
  match rq, (if vf < 256 then s.vfAsid vf else none) with
  | .blockRead n, _ => s.answer (.data ((List.range n).map (fun i => s.blockByte vf (va.toNat + i))))
  | .blockWrite bs, _ => s.blockWrite vf va.toNat bs
  | .read n, some asid => s.clientMemory vf asid va none n
  | .write bs posted, some asid => s.clientMemory vf asid va (some (bs, posted)) bs.length
  | _, _ => s.answer .unsupported

theorem exec_clientAccess (h : ∀ bs, rq ≠ .hostWrite bs) : exec (.clientAccess vf va rq) s = .next (s.onFunction vf (served vf va rq)) := by
  cases rq with
  | hostWrite bs => exact absurd rfl (h bs)
  | _ => rfl

/-- Any function answers an atomic with Unsupported Request. -/
theorem onFunction_unsupported (hv : vf ≤ 257) (hup : s.monitor.bootStep ≠ 1) (h : served vf va rq s = s.answer .unsupported) :
    s.onFunction vf (served vf va rq) = s.answer .unsupported := by
  cases he : s.enabled vf with
  | true => rw [State.onFunction_enabled he hup, h]
  | false => exact State.onFunction_disabled hv hup he

end

/-- A function as the maker of its accesses, through the TLB of yard 0 or 15 (R151). -/
def clientMaker (vf asid : Nat) (who : DWord) : Maker :=
  let yard := if vf < 128 then 0 else 15
  { who := who, sync := Sync.start, die := yard / 4, ctx := { asid := asid, user := true, path := [(2, yard)] } }

section
variable {s t f : State} {vf asid : Nat} {va who : DWord} {r : Option (List Place)}

theorem clientMemory_read {n : Nat} (hid : s.vfIdent vf = (who, t))
    (hplaces : t.clientPlaces (clientMaker vf asid who) { acc := { rd := true } } (pieces va.toNat n) = (r, f)) :
    s.clientMemory vf asid va none n = match (generalizing := false) r with
      | some ps => (f.tagPlaces (clientMaker vf asid who) false ps).answer (.data (f.bytesAt ps))
      | none => f.answer .abort := by
  unfold State.clientMemory
  rw [hid]
  unfold clientMaker at hplaces
  dsimp only [Option.isNone_none, Option.isSome_none] at hplaces ⊢
  rw [hplaces]
  cases r <;> rfl

theorem clientMemory_write {bs : List Byte} {posted : Bool} (hid : s.vfIdent vf = (who, t))
    (hplaces : t.clientPlaces (clientMaker vf asid who) { acc := { wr := true } } (pieces va.toNat bs.length) = (r, f)) :
    s.clientMemory vf asid va (some (bs, posted)) bs.length = match (generalizing := false) r with
      | some ps => let t := (f.tagPlaces (clientMaker vf asid who) true ps).busStore (cutBytes ps bs); if posted then t else t.answer .ok
      | none => if posted then f else f.answer .abort := by
  unfold State.clientMemory
  rw [hid]
  unfold clientMaker at hplaces
  dsimp only [Option.isNone_some, Option.isSome_some] at hplaces ⊢
  rw [hplaces]
  cases r <;> rfl

end

theorem clientRequests : Claims.ClientRequests := by
  intro s vf va rq hrq run up
  have hrun (t : State) : run t ↔ s.onFunction vf (served vf va rq) = t := by
    change exec (.clientAccess vf va rq) s = .next t ↔ _
    rw [exec_clientAccess hrq]
    exact ⟨fun h => Host.Outcome.next.inj h, fun h => congrArg _ h⟩
  refine ⟨fun h => (hrun _).2 (State.onFunction_ignored h), fun hv hup he => (hrun _).2 (State.onFunction_disabled hv hup he),
    fun hv hup => ⟨fun op wide x who n hat => (hrun _).2 (onFunction_unsupported hv hup ?_), fun wide x y who n hcas => (hrun _).2 (onFunction_unsupported hv hup ?_)⟩,
    fun hv hup he n hread => (hrun _).2 ((State.onFunction_enabled he hup).trans ?_), ?_⟩
  · subst hat
    rfl
  · subst hcas
    rfl
  · subst hread
    rfl
  · intro asid hv hup hasid yard m
    have he : s.enabled vf = true := by simp [State.enabled, hv, hasid]
    have hmem : (if vf < 256 then s.vfAsid vf else none) = some asid := by rw [if_pos hv, hasid]
    refine ⟨fun n hread r f hplaces => (hrun _).2 ((State.onFunction_enabled he hup).trans ?_),
      fun bs posted hwrite r f hplaces => (hrun _).2 ((State.onFunction_enabled he hup).trans ?_)⟩
    · subst hread
      unfold served
      rw [hmem]
      exact (clientMemory_read (who := (s.vfIdent vf).1) (t := (s.vfIdent vf).2) (hid := rfl) hplaces :)
    · subst hwrite
      unfold served
      rw [hmem]
      exact (clientMemory_write (who := (s.vfIdent vf).1) (t := (s.vfIdent vf).2) (posted := posted) (hid := rfl) hplaces :)

/-! Peers and redundant pairs (R362, R376, R387, R388). -/

/-- A trap of an agent leaves memory as it is. -/
theorem trapAt_mem (s : State) (st : Stream) (t : Trp) : (s.trapAt st t).mem = s.mem := by
  have hnote (u : State) (c : Course) (pc : DWord) : (u.note c 3 pc).mem = u.mem := by
    obtain ⟨o, ho⟩ := u.note_eq c 3 pc
    rw [ho]
  unfold State.trapAt
  dsimp only
  split
  · rfl
  · refine (hnote _ _ _).trans ?_
    split
    · obtain ⟨ws, hws, -⟩ := s.countEvent_eq s.cur.wall 10 1
      rw [hws]
    · rfl

section
variable {c d : Course} {st : Stream}

theorem pair_spared (h : c.Spared d) (st : Stream) : d.pair st = c.pair st := by
  obtain ⟨_, _, _, _, _, rfl, _⟩ := h
  cases st <;> rfl

theorem pair_setPair (c : Course) (st : Stream) (p : Pair) : (c.setPair st p).pair st = p := by cases st <;> rfl

theorem sys_setPair (c : Course) (st : Stream) (p : Pair) : (c.setPair st p).sys = c.sys := by cases st <;> rfl

theorem pair_setPc (c : Course) (st : Stream) (x : DWord) : (c.setPc st x).pair st = c.pair st := by cases st <;> rfl

end

/-- A pair's trap is at its stream, whose comparison begins anew. -/
theorem pairTraps_spec {s : State} (hsys : s.cur.sys = none) (st : Stream) (code : Code) :
    ∃ x, (s.pairTraps st code).cur.trap = some x ∧ x.code = code ∧ x.stream = st ∧ (s.pairTraps st code).cur.pair st = Pair.none := by
  have hcur := (((s.modC (fun c => c.unpaired st)).lifeAdd 0x31 1).fetched_nextWord st).cur
  have hsys' : (((s.modC (fun c => c.unpaired st)).lifeAdd 0x31 1).nextWord st).2.cur.sys = none := hcur.sys ((sys_setPair _ _ _).trans hsys)
  unfold State.pairTraps
  rw [State.trapAt_cur hsys']
  refine ⟨_, rfl, rfl, rfl, ?_⟩
  exact (pair_setPc _ st _).trans ((pair_spared hcur st).trans (pair_setPair _ st _))

section
variable {s : State}

theorem exec_pairCompare (hpair : s.cur.twin.isSome = true) (htrap : s.cur.trap = none) (m : Bool) :
    exec (.pairCompare s.cur.ident m) s = .next (if !s.twinRuns then s
      else match s.pairWaiting with
        | [] => s
        | [st] => s.compared st m
        | st :: o :: _ => { s with free := s.free + 1 }.compared (if (Config.freeNat s.free) % 2 = 0 then st else o) m) := by
  refine congrArg Host.Outcome.next ?_
  unfold State.onPair
  rw [State.focus_self]
  exact if_pos (by simp [hpair, htrap])

theorem exec_pairCompare_single (h : s.cur.twin = none) (m : Bool) : exec (.pairCompare s.cur.ident m) s = .next s := by
  refine congrArg Host.Outcome.next ?_
  unfold State.onPair
  rw [State.focus_self]
  exact if_neg (by simp [h])

/-- A course that is no pair, or a pair of which neither member waits, meets no comparison. -/
theorem exec_pairCompare_none (htrap : s.cur.trap = none) (h : s.cur.twin.isSome = true → s.twinRuns = false ∨ s.pairWaiting = []) (m : Bool) :
    exec (.pairCompare s.cur.ident m) s = .next s := by
  cases hpair : s.cur.twin with
  | none => exact exec_pairCompare_single hpair m
  | some _ =>
    rw [exec_pairCompare (by simp [hpair]) htrap]
    rcases h (by simp [hpair]) with hruns | hw
    · simp [hruns]
    · rw [hw]
      exact congrArg _ (ite_self _)

theorem exec_pairPartnerTimeout_single (h : s.cur.twin = none) : exec (.pairPartnerTimeout s.cur.ident) s = .next s := by
  change execPairPartnerTimeout s.cur.ident s = _
  unfold execPairPartnerTimeout
  rw [State.focus_self]
  dsimp only
  rw [h]

theorem exec_pairPartnerTimeout_trapped {x : TrapInfo} (hpair : s.cur.twin.isSome = true) (htrap : s.cur.trap = some x) :
    exec (.pairPartnerTimeout s.cur.ident) s = .next (s.trapsDiffer x) := by
  obtain ⟨w, hw⟩ := Option.isSome_iff_exists.1 hpair
  change execPairPartnerTimeout s.cur.ident s = _
  unfold execPairPartnerTimeout
  rw [State.focus_self]
  dsimp only
  rw [hw, htrap]

theorem exec_pairPartnerTimeout (hpair : s.cur.twin.isSome = true) (htrap : s.cur.trap = none) :
    exec (.pairPartnerTimeout s.cur.ident) s = .next
      (match s.pairWaiting.find? (fun st => (s.cur.pair st).since.any (fun t => decide (2 ^ 24 ≤ (s.now - t).toNat))) with
        | some st => s.pairTraps st 0x82
        | none => s) := by
  obtain ⟨w, hw⟩ := Option.isSome_iff_exists.1 hpair
  change execPairPartnerTimeout s.cur.ident s = _
  unfold execPairPartnerTimeout
  rw [State.focus_self]
  dsimp only
  rw [hw, htrap] <;> rfl

/-- Only the streams of a pair wait for a partner. -/
theorem twin_of_pairWaiting {st : Stream} (h : st ∈ s.pairWaiting) : s.cur.twin.isSome = true := by
  obtain ⟨-, hheld⟩ := List.mem_filter.1 h
  simp only [Course.pairHeld, Bool.and_eq_true] at hheld
  exact hheld.1.1

/-- What an answer that never comes leaves of a course and its launch's count (R376). -/
def lostEnds (f : State) (n : Nat) (word : BitVec 128) (wall : Option Nat) : State :=
  let f1 := match wall with | some w => f.outstanding f.cur.launch w (· - 1) | none => f
  ({ f1 with word := word }.modC (fun c => { c with work := c.work.filter (fun o => o.id != n) })).lifeAdd 0x32 1

theorem lostEnds_eq (f : State) (n : Nat) (word : BitVec 128) (wall : Option Nat) : ∃ ls mo, lostEnds f n word wall =
    { f with word := word, cur := { f.cur with work := f.cur.work.filter (fun o => o.id != n) }, launches := ls, monitor := mo } := by
  cases wall with
  | none => exact ⟨f.launches, _, rfl⟩
  | some w => exact ⟨_, _, rfl⟩

theorem exec_peerTimeout {f : State} {who : DWord} {n : Nat} {k : Work} {word : BitVec 128} {va : Nat} {lanes : Mask} {wall : Option Nat} {since : DWord}
    (hfocus : s.focus who = some f) (hwork : f.cur.workOf n = some k) (hact : k.act = .lost word va lanes wall since) :
    exec (.peerTimeout who n) s = .next (if (f.now - since).toNat < 2 ^ 24 ∨ f.cur.trap.isSome then s
      else if f.cur.ended k.stream then lostEnds f n word wall
      else (lostEnds f n word wall).trapAt k.stream { code := 0x10, detail := BitVec.ofNat 64 va, fmask := lanes }) := by
  change execPeerTimeout who n s = _
  unfold execPeerTimeout
  rw [hfocus]
  dsimp only
  rw [hwork]
  dsimp only
  rw [hact]
  rfl

end

theorem remoteAgents : Claims.RemoteAgents := by
  intro s who n
  refine ⟨fun h => ?_, fun f k word va lanes wall since hfocus hwork hact => ⟨fun hw => ?_, fun hlate htrap hsys => ?_⟩, fun h => ?_, fun e he => ?_,
    fun htwin m => ⟨exec_pairCompare_single htwin m, exec_pairPartnerTimeout_single htwin⟩, fun x htwin htrap hslot h82 h83 => ?_, fun st => ?_, fun htrap hw => ⟨fun m => ?_, ?_⟩,
    fun htrap hruns m => ?_, fun htrap hruns m => ⟨fun st hw => ?_, fun a b hw => ?_⟩, fun st m => ?_, fun f k sz rd bp ord imm h => ?_,
    fun st since htrap hw hsince => ⟨fun hearly => ?_, fun hsys hlate => ?_⟩⟩
  · change execPeerTimeout who n s = _
    unfold execPeerTimeout
    rw [h]
  · rw [exec_peerTimeout hfocus hwork hact, if_pos hw]
  · rw [exec_peerTimeout hfocus hwork hact, if_neg (not_or.2 ⟨Nat.not_lt.2 hlate, by simp [htrap]⟩)]
    obtain ⟨ls, mo, hends⟩ := lostEnds_eq f n word wall
    have hmem := State.focus_mem hfocus
    have hgone : List.find? (fun k => k.id == n) (f.cur.work.filter (fun o => o.id != n)) = none := by simp
    cases hend : f.cur.ended k.stream with
    | true =>
      rw [if_pos rfl, hends]
      exact ⟨_, rfl, hgone, hmem, fun _ => htrap, nofun⟩
    | false =>
      rw [if_neg Bool.false_ne_true]
      have hcur := State.trapAt_cur (s := lostEnds f n word wall) (by rw [hends]; exact hsys) k.stream { code := 0x10, detail := BitVec.ofNat 64 va, fmask := lanes }
      refine ⟨_, rfl, ?_, ?_, nofun, fun _ => ?_⟩
      · rw [hcur, hends]
        cases k.stream <;> exact hgone
      · rw [trapAt_mem, hends, hmem]
      · rw [hcur, hends]
        refine ⟨_, rfl, rfl, ?_, rfl, rfl, rfl, rfl⟩
        cases k.stream <;> rfl
  · refine congrArg Host.Outcome.next ?_
    rw [List.find?_eq_none.2 (fun e hm => by simpa [imp_iff_not_or] using h e hm)]
  · refine congrArg Host.Outcome.next ?_
    rw [he]
  · rw [exec_pairPartnerTimeout_trapped htwin htrap]
    unfold State.trapsDiffer
    rw [if_neg (by simpa [hslot] using ⟨h82, h83⟩)]
    exact ⟨_, _, rfl, rfl, rfl, rfl, rfl, rfl⟩
  · simp [State.pairWaiting, Course.pairHeld, and_assoc]
  · exact exec_pairCompare_none htrap (fun _ => .inr hw) m
  · cases hpair : s.cur.twin with
    | none => exact exec_pairPartnerTimeout_single hpair
    | some _ => rw [exec_pairPartnerTimeout (by simp [hpair]) htrap, hw]; rfl
  · exact exec_pairCompare_none htrap (fun _ => .inl hruns) m
  · rw [exec_pairCompare (twin_of_pairWaiting (st := st) (by simp [hw])) htrap, hw]
    simp [hruns]
  · rw [exec_pairCompare (twin_of_pairWaiting (st := a) (by simp [hw])) htrap, hw]
    simp only [hruns]
    refine ⟨_, ?_, rfl⟩
    split <;> simp
  · intro p second match_
    have hmatch : (m && second.isSome && second == p.issue) = true ↔ match_ := by
      simp [match_, Option.isSome_iff_ne_none, and_assoc]
    refine ⟨fun h => if_pos (hmatch.2 h), fun h hfails => ?_, fun h hfails hsys => ?_⟩
    · exact (if_neg (mt hmatch.1 h)).trans (if_neg (Nat.not_le.2 hfails))
    · have hrun : s.compared st m = s.pairTraps st 0x83 := (if_neg (mt hmatch.1 h)).trans (if_pos hfails)
      rw [hrun]
      exact pairTraps_spec hsys st 0x83
  · obtain ⟨hword, hscalars, -, hlive, -⟩ := PairIssue.mk.inj h
    simp only [Instr.externalReads, scalarRun, if_true, List.map_cons, List.cons_append, List.nil_append,
      List.cons.injEq] at hscalars
    obtain ⟨hlo, hhi, hrd⟩ := hscalars
    refine ⟨hword, hlive, by simp [Course.S64, hlo, hhi], ?_, fun hsz => ?_⟩
    · split at hrd
      · exact (List.cons.inj hrd).1
      · exact (List.cons.inj hrd).1
    · rw [if_pos (by simp [hsz])] at hrd
      exact (List.cons.inj (List.cons.inj hrd).2).1
  · rw [exec_pairPartnerTimeout (twin_of_pairWaiting (st := st) (by simp [hw])) htrap, hw,
      List.find?_cons_of_neg (by simpa only [hsince, Option.any_some, decide_eq_true_eq] using Nat.not_le.2 hearly)]
    rfl
  · obtain ⟨x, hx⟩ := pairTraps_spec hsys st 0x82
    refine ⟨_, x, ?_, hx⟩
    rw [exec_pairPartnerTimeout (twin_of_pairWaiting (st := st) (by simp [hw])) htrap, hw,
      List.find?_cons_of_pos (by simpa only [hsince, Option.any_some, decide_eq_true_eq] using hlate)]

/-- Settles O49: a pair by the two cases of its comparison, an access by the answer it is owed, a peer's request by what it meets at its bytes. -/
theorem remoteAgentsAndClients : Obligations.RemoteAgentsAndClients := ⟨remoteAgents, clientRequests, peerRequests⟩

end Sys2Proof.RemoteAgentsAndClients
end

section
/-! SUPPORT. What units of a wall leave as it was when they read and write ranges of memory (R109, R118, R136). -/

open Sys2Proof Sys2Proof.Machine

namespace Sys2Proof.Machine

/-! Tables of the state that a unit's accesses leave alone. -/

theorem State.plane_congr {s t : State} (h : t.planes = s.planes) (w p : Nat) : t.plane w p = s.plane w p := by
  unfold State.plane
  rw [h]

theorem State.fetched_modWall (s : State) (w : Nat) (x : Wall) : s.Fetched (s.setWall w x) := ⟨.refl _, rfl, rfl, rfl, rfl, rfl, rfl⟩

theorem State.fetched_setChan (s : State) (w ch : Nat) (x : Chan) : s.Fetched (s.setChan w ch x) := s.fetched_modWall w _

theorem State.fetched_countEvent (s : State) (w code n : Nat) : s.Fetched (s.countEvent w code n) := by
  obtain ⟨ws, h, -⟩ := s.countEvent_eq w code n
  rw [h]
  exact ⟨.refl _, rfl, rfl, rfl, rfl, rfl, rfl⟩

theorem State.fetched_memEvent (s : State) (kind pa die : Nat) (who other otherRc rc sub : DWord) :
    s.Fetched (s.memEvent kind pa die who other otherRc rc sub) := by
  obtain ⟨c, ps, m, p, r, dr, mo, h, hc⟩ := s.memEvent_eq kind pa die who other otherRc rc sub
  rw [h]
  exact ⟨hc, rfl, rfl, rfl, rfl, rfl, rfl⟩

/-! A memory event writes nothing outside its ring (R364). -/

/-- The device as a memory event leaves it, outside the event ring: its registers but for the ring's head and drops, and every byte. -/
def State.RingOnly (s t : State) : Prop :=
  (∀ i, i ≠ 0x893 → i ≠ 0x895 → t.dreg i = s.dreg i) ∧ ∀ a, ¬ s.InEventRing a → t.byte a = s.byte a

theorem State.RingOnly.inEventRing {s t : State} (h : s.RingOnly t) (a : Nat) : t.InEventRing a ↔ s.InEventRing a := by
  unfold State.InEventRing State.dreg64
  rw [h.1 0x890 (by decide) (by decide), h.1 0x891 (by decide) (by decide), h.1 0x892 (by decide) (by decide)]

theorem State.RingOnly.refl (s : State) : s.RingOnly s := ⟨fun _ _ _ => rfl, fun _ _ => rfl⟩

theorem State.RingOnly.trans {s t u : State} (h : s.RingOnly t) (h' : t.RingOnly u) : s.RingOnly u :=
  ⟨fun i hi hi' => (h'.1 i hi hi').trans (h.1 i hi hi'), fun a ha => (h'.2 a (mt (h.inEventRing a).1 ha)).trans (h.2 a ha)⟩

theorem State.RingOnly.of_eq {s t : State} (hm : t.mem = s.mem) (hd : t.dregs = s.dregs) : s.RingOnly t := by
  unfold State.RingOnly State.dreg State.byte
  rw [hm, hd]
  exact ⟨fun _ _ _ => rfl, fun _ _ => rfl⟩

theorem State.Translated.ringOnly {s t : State} (h : s.Translated t) : s.RingOnly t := by
  obtain ⟨c, ps, ws, e, at_, ts, rfl, -⟩ := h
  exact .of_eq rfl rfl

theorem State.dreg_setDreg (s : State) (i j : Nat) (x : Word) : (s.setDreg i x).dreg j = if j = i then x else s.dreg j :=
  Sparse.get_set s.dregs i j x 0

/-- What the ring takes, where it has room: its head moves on, and the record stands at the old head (R364). -/
theorem State.ringTakes_room {s : State} (who : DWord) (bs : List Byte) (hsize : (s.dreg 0x892).toNat ≠ 0)
    (hroom : (s.dreg 0x893 - s.dreg 0x894).toNat ≠ (s.dreg 0x892).toNat) :
    (s.ringTakes who bs).dreg 0x893 = s.dreg 0x893 + 1 ∧ (∀ i, i ≠ 0x893 → (s.ringTakes who bs).dreg i = s.dreg i) ∧
      ∀ a, (s.ringTakes who bs).byte a =
        (s.store (s.dreg64 0x890 + 64 * ((s.dreg 0x893).toNat % (s.dreg 0x892).toNat)) bs).byte a := by
  unfold State.ringTakes
  rw [if_neg hsize, if_neg hroom]
  generalize s.dreg64 0x890 + 64 * ((s.dreg 0x893).toNat % (s.dreg 0x892).toNat) = at_
  obtain ⟨c, ps, p, r, hr, -⟩ := s.releaseStore_eq who 8 at_ bs
  rw [hr]
  obtain ⟨c', ps', hr', -⟩ := State.raiseEventWord_eq (State.setDreg { s with
    cur := c, parked := ps, mem := Memory.store s.mem at_ bs, poison := p, rels := r } 0x893 (s.dreg 0x893 + 1)) (s.dreg 0x896)
  rw [hr']
  refine ⟨(State.dreg_setDreg _ 0x893 0x893 _).trans (if_pos rfl), fun i hi => (State.dreg_setDreg _ 0x893 i _).trans (if_neg hi), fun a => rfl⟩

theorem State.ringOnly_ringTakes (s : State) (who : DWord) {bs : List Byte} (hbs : bs.length = 64) : s.RingOnly (s.ringTakes who bs) := by
  by_cases hsize : (s.dreg 0x892).toNat = 0
  · unfold State.ringTakes
    rw [if_pos hsize]
    exact .refl s
  · by_cases hfull : (s.dreg 0x893 - s.dreg 0x894).toNat = (s.dreg 0x892).toNat
    · unfold State.ringTakes
      rw [if_neg hsize, if_pos hfull]
      exact ⟨fun i _ hi => (s.dreg_setDreg 0x895 i _).trans (if_neg hi), fun _ _ => rfl⟩
    · obtain ⟨-, hdregs, hbytes⟩ := State.ringTakes_room who bs hsize hfull
      refine ⟨fun i hi _ => hdregs i hi, fun a ha => (hbytes a).trans (s.byte_store_outside _ _ ?_)⟩
      have hlt := Nat.mod_lt (s.dreg 0x893).toNat (Nat.pos_of_ne_zero hsize)
      generalize (s.dreg 0x893).toNat % (s.dreg 0x892).toNat = i at hlt ⊢
      unfold State.InEventRing at ha
      omega

theorem State.eventBytes_length (s : State) (kind pa die : Nat) (who other otherRc rc sub : DWord) :
    (s.eventBytes kind pa die who other otherRc rc sub).length = 64 := by
  simp [State.eventBytes, bytesLE_length]

theorem State.ringOnly_memEvent (s : State) (kind pa die : Nat) (who other otherRc rc sub : DWord) :
    s.RingOnly (s.memEvent kind pa die who other otherRc rc sub) := by
  rw [State.memEvent_eq_ringTakes]
  obtain ⟨mo, hmo⟩ := s.lifeCounted_eq kind pa
  rw [hmo]
  exact State.RingOnly.trans (.of_eq rfl rfl) (State.ringOnly_ringTakes _ who (State.eventBytes_length _ _ _ _ _ _ _ _ _))

/-! The pieces of a range (R136). -/

/-- What reading or trying the places of a range changes: what a fetch may, and in memory the event ring alone. -/
def State.Tried (s t : State) : Prop := s.Fetched t ∧ s.RingOnly t

theorem State.Tried.refl (s : State) : s.Tried s := ⟨.refl s, .refl s⟩

theorem State.Tried.trans {s t u : State} (h : s.Tried t) (h' : t.Tried u) : s.Tried u := ⟨h.1.trans h'.1, h.2.trans h'.2⟩

theorem State.Translated.tried {s t : State} (h : s.Translated t) : s.Tried t := ⟨h.fetched, h.ringOnly⟩

theorem State.tried_poisonUsed (s : State) (pa : Nat) (who : DWord) (die : Nat) : s.Tried (s.poisonUsed pa who die) :=
  ⟨s.fetched_poisonUsed pa who die, s.ringOnly_memEvent 3 pa die who 0 0 0 0⟩

theorem State.laneGlobal_translated (s : State) (x : Ctx) (h : How) (l : Lane) (va : Nat) : s.Translated (s.laneGlobal x h l va).2 := by
  have htrans := s.translate_translated x va h.acc
  unfold State.laneGlobal
  split
  · next he => rw [he] at htrans; exact htrans
  · next he => rw [he] at htrans; exact htrans
  · next he => rw [he] at htrans; exact htrans

theorem State.pieceAt_translated (s : State) (m : Maker) (h : How) (p : Nat × Nat) : s.Translated (s.pieceAt m h p).2 := by
  unfold State.pieceAt
  split
  · exact .refl s
  · split
    · exact .refl s
    · have hlane := s.laneGlobal_translated m.ctx h ⟨0, p.1, p.2⟩ (shadowMove s.shadows m.ctx.asid p.1 m.visible)
      split
      · next he => rw [he] at hlane; exact hlane
      · exact hlane

theorem State.tried_tagged (s : State) (me : DWord) (y : Sync) (sector : Nat) (write atm : Bool) (scp : Nat) :
    s.Tried (s.tagged me y sector write atm scp) := ⟨⟨.refl _, rfl, rfl, rfl, rfl, rfl, rfl⟩, .of_eq rfl rfl⟩

theorem State.tried_checkPlace (s : State) (m : Maker) (h : How) (q : Place) : s.Tried (s.checkPlace m h q).2 := by
  unfold State.checkPlace
  split
  · exact .refl s
  · split
    · exact .refl s
    · exact s.tried_tagged _ _ _ _ _ _

theorem State.tried_range (m : Maker) (h : How) (ps : List (Nat × Nat)) (s : State) : s.Tried (s.range m h ps).2.2 := by
  induction ps generalizing s m with
  | nil => exact .refl s
  | cons p ps ih =>
    have hpiece := (s.pieceAt_translated (s.walksFor m p) h p).tried
    unfold State.range
    dsimp only
    split
    · next he =>
      rw [he] at hpiece
      dsimp only
      split
      · exact hpiece.trans (State.tried_poisonUsed _ _ _ _)
      · exact hpiece
    · next he => rw [he] at hpiece; exact hpiece
    · next q t he =>
      rw [he] at hpiece
      have hcheck := t.tried_checkPlace (s.walksFor m p) h q
      split
      · next hc => rw [hc] at hcheck; exact hpiece.trans hcheck
      · next hc => rw [hc] at hcheck; exact (hpiece.trans hcheck).trans (ih _ _)

/-! Bytes stored by a unit of a wall (R105, R108, R131, R179, R366). -/

/-- What a unit's stores change: lines, poison, bytes, releases, working frames, the parameter-block caches, free values. -/
def State.Stored (s t : State) : Prop :=
  ∃ l p m h f r ls ws, t = { s with lines := l, poison := p, mem := m, hostMem := h, free := f, rels := r, launches := ls, walls := ws }

theorem State.Stored.refl (s : State) : s.Stored s := ⟨_, _, _, _, _, _, _, _, rfl⟩

theorem State.Stored.trans {s t u : State} (h : s.Stored t) (h' : t.Stored u) : s.Stored u := by
  obtain ⟨l, p, m, h, f, r, ls, ws, rfl⟩ := h
  obtain ⟨l', p', m', h', f', r', ls', ws', rfl⟩ := h'
  exact ⟨l', p', m', h', f', r', ls', ws', rfl⟩

theorem State.Stored.cur {s t : State} (h : s.Stored t) : t.cur = s.cur := by obtain ⟨_, _, _, _, _, _, _, _, rfl⟩ := h; rfl
theorem State.Stored.parked {s t : State} (h : s.Stored t) : t.parked = s.parked := by obtain ⟨_, _, _, _, _, _, _, _, rfl⟩ := h; rfl
theorem State.Stored.planes {s t : State} (h : s.Stored t) : t.planes = s.planes := by obtain ⟨_, _, _, _, _, _, _, _, rfl⟩ := h; rfl

theorem State.Filled.stored {s t : State} (h : s.Filled t) : s.Stored t := by
  obtain ⟨l, p, m, h, f, rfl⟩ := h
  exact ⟨l, p, m, h, f, s.rels, s.launches, s.walls, rfl⟩

theorem State.stored_ownFrame (s : State) (n wall va pa : Nat) : s.Stored (s.ownFrame n wall va pa).2 := by
  unfold State.ownFrame
  split
  · exact .refl s
  · split
    · exact .refl s
    · dsimp only
      split
      · exact ⟨_, _, _, _, _, _, _, _, rfl⟩
      · exact ⟨_, _, _, _, _, _, _, _, rfl⟩

theorem State.stored_cleanse (s : State) (ps : List Place) : s.Stored (s.cleanse ps) := by
  obtain ⟨p, h⟩ := s.cleanse_eq ps
  rw [h]
  exact ⟨_, _, _, _, _, _, _, _, rfl⟩

theorem State.stored_dropBlocks (s : State) (a n : Nat) : s.Stored (s.dropBlocks a n) := by
  obtain ⟨ws, h, -⟩ := s.dropBlocks_eq a n
  rw [h]
  exact ⟨_, _, _, _, _, _, _, _, rfl⟩

theorem State.stored_pastHost (s : State) (a n : Nat) : s.Stored (s.pastHost a n) := by
  obtain ⟨h, hh⟩ := s.pastHost_eq a n
  rw [hh]
  exact ⟨_, _, _, _, _, _, _, _, rfl⟩

theorem State.stored_putRange (s : State) (launch wall : Nat) (hint : Hint) (qs : List (Place × List Byte)) :
    s.Stored (s.putRange launch wall hint qs) := by
  unfold State.putRange
  have hframes : s.Stored (qs.foldl (fun s e => (s.ownFrame launch wall e.1.va e.1.pa).2) s) :=
    List.foldlRecOn (motive := fun t => s.Stored t) _ _ (.refl s) fun t ht e _ => ht.trans (t.stored_ownFrame _ _ _ _)
  refine List.foldlRecOn (motive := fun t => s.Stored t) _ _ ?_ fun t ht e _ => ?_
  · exact (hframes.trans (State.filled_cacheWrites _ _ _ _).stored).trans (State.stored_cleanse _ _)
  · have hown := ht.trans (t.stored_ownFrame launch wall e.1.va e.1.pa)
    have hdrop := (hown.trans (State.stored_dropBlocks _ e.1.pa e.1.w)).trans (State.stored_pastHost _ e.1.pa e.1.w)
    exact hdrop.trans ⟨_, _, _, _, _, _, _, _, rfl⟩

end Sys2Proof.Machine
end

section
/-! SUPPORT. Completion records, and the steps of a copy (R109, R110, R114, R227, R228, R259, R373, R376). -/

open Sys2Proof Sys2Proof.Machine

namespace Sys2Proof.Machine

/-! Completion records. -/

/-- The words of the completion records after a register write. -/
def RegWrite.onRecs (t : Sparse Word) : RegWrite → Sparse Word
  | .record k x => Sparse.set t k (recordWord k x) 0
  | _ => t

/-- A write of a word of completion record f. -/
def RegWrite.ofRecord (f : Nat) : RegWrite → Bool
  | .record k _ => k / 4 == f
  | _ => false

theorem Course.recs_write (c : Course) (w : RegWrite) : (c.write w).recs = w.onRecs c.recs := by
  cases w with
  | s n x => rw [Course.write]; split <;> rfl
  | w n x => rw [Course.write]; split <;> rfl
  | p n a b => rw [Course.write]; split <;> rfl
  | _ => rfl

theorem Course.recs_foldl_write (ws : List RegWrite) (c : Course) : (ws.foldl Course.write c).recs = ws.foldl RegWrite.onRecs c.recs := by
  induction ws generalizing c with
  | nil => rfl
  | cons w ws ih => rw [List.foldl_cons, List.foldl_cons, ih, Course.recs_write]

/-- Writes of other records leave a record's words. -/
theorem RegWrite.get_foldl_onRecs {f : Nat} {ws : List RegWrite} (h : ∀ w ∈ ws, w.ofRecord f = false) (t : Sparse Word) {n : Nat} (hn : n / 4 = f) :
    Sparse.get (ws.foldl RegWrite.onRecs t) n 0 = Sparse.get t n 0 := by
  induction ws generalizing t with
  | nil => rfl
  | cons w ws ih =>
    rw [List.foldl_cons, ih fun o ho => h o (List.mem_cons_of_mem _ ho)]
    cases w with
    | record k x =>
      have hk : ¬ k / 4 = f := by simpa [RegWrite.ofRecord] using h _ List.mem_cons_self
      exact (Sparse.get_set t k n (recordWord k x) 0).trans (if_neg fun (hkn : n = k) => hk (by rw [← hkn, hn]))
    | _ => rfl

/-- The writes of record f that have not committed yet. -/
def Course.pendingRecord (c : Course) (f : Nat) : List RegWrite := c.work.flatMap (fun k => k.writes.filter (RegWrite.ofRecord f))

theorem Course.settleRecord_eq (c : Course) (f : Nat) : c.settleRecord f =
    { (c.pendingRecord f).foldl Course.write c with
      work := ((c.pendingRecord f).foldl Course.write c).work.map (fun k => { k with writes := k.writes.filter (fun w => !w.ofRecord f) }) } := rfl

theorem Course.settleRecord_recs (c : Course) (f : Nat) : (c.settleRecord f).recs = (c.pendingRecord f).foldl RegWrite.onRecs c.recs :=
  Course.recs_foldl_write _ c

/-- The writes of a record take effect, and are awaited no more. -/
theorem Course.settleRecord_work (c : Course) (f : Nat) :
    (c.settleRecord f).work = c.work.map (fun k => { k with writes := k.writes.filter (fun w => !w.ofRecord f) }) := by
  obtain ⟨s, w, v, p, qe, qs, q, b, rs, me, re, l, ea, ec, h⟩ := Course.foldl_write_eq (c.pendingRecord f) c
  rw [Course.settleRecord_eq, h]

theorem Course.settleRecord_frame (c : Course) (f : Nat) :
    (c.settleRecord f).flags = c.flags ∧ (c.settleRecord f).hold = c.hold ∧ (c.settleRecord f).event = c.event ∧
      (c.settleRecord f).cancelled = c.cancelled ∧ (c.settleRecord f).ident = c.ident := by
  obtain ⟨s, w, v, p, qe, qs, q, b, rs, me, re, l, ea, ec, h⟩ := Course.foldl_write_eq (c.pendingRecord f) c
  rw [Course.settleRecord_eq, h]
  exact ⟨rfl, rfl, rfl, rfl, rfl⟩

/-- The first word of a completion record: status, channel, code (R114). -/
def recordHead (status code : Code) (chan : Nat) : Word := BitVec.ofNat 32 (status.toNat + chan * 2 ^ 8 + code.toNat * 2 ^ 16)

/-- The four words of a completion record (R114). -/
def recordWords (status code : Code) (chan bytes bmap : Nat) : List Word :=
  [recordHead status code chan, BitVec.ofNat 32 bytes, BitVec.ofNat 32 bmap, BitVec.ofNat 32 (bmap / 2 ^ 32)]

theorem Course.setEvent_frame (c : Course) : c.setEvent.recs = c.recs ∧ c.setEvent.work = c.work ∧ c.setEvent.flags = c.flags ∧
    c.setEvent.cancelled = c.cancelled ∧ c.setEvent.ident = c.ident := by
  unfold Course.setEvent
  split <;> exact ⟨rfl, rfl, rfl, rfl, rfl⟩

section
variable (c : Course) (f : Nat) (status code : Code) (chan bytes bmap : Nat)

/-- A record is the event bit set, after its earlier writes and its words, where it has any. -/
theorem Course.record_eq : ∃ rs, c.record f status code chan bytes bmap = Course.setEvent { c.settleRecord f with recs := rs } ∧
    rs = if status = 0 ∧ (Sparse.get (c.settleRecord f).recs (4 * f) 0).extractLsb' 0 8 ≠ 0 then (c.settleRecord f).recs
      else (recordWords status code chan bytes bmap).zipIdx.foldl (fun t e => Sparse.set t (4 * f + e.2) e.1 0) (c.settleRecord f).recs := by
  refine ⟨_, ?_, rfl⟩
  unfold Course.record
  dsimp only
  split <;> rfl

theorem Course.record_recs : (c.record f status code chan bytes bmap).recs =
    if status = 0 ∧ (Sparse.get (c.settleRecord f).recs (4 * f) 0).extractLsb' 0 8 ≠ 0 then (c.settleRecord f).recs
    else (recordWords status code chan bytes bmap).zipIdx.foldl (fun t e => Sparse.set t (4 * f + e.2) e.1 0) (c.settleRecord f).recs := by
  obtain ⟨rs, h, hrs⟩ := c.record_eq f status code chan bytes bmap
  rw [h, ← hrs]
  exact (Course.setEvent_frame _).1

theorem Course.record_work : (c.record f status code chan bytes bmap).work = (c.settleRecord f).work := by
  obtain ⟨rs, h, -⟩ := c.record_eq f status code chan bytes bmap
  rw [h]
  exact (Course.setEvent_frame _).2.1

/-- No write of the record is awaited after it. -/
theorem Course.ofRecord_of_mem_record {k : Work} (hk : k ∈ (c.record f status code chan bytes bmap).work) {w : RegWrite} (hw : w ∈ k.writes) :
    w.ofRecord f = false := by
  rw [Course.record_work, Course.settleRecord_work] at hk
  obtain ⟨o, -, rfl⟩ := List.mem_map.1 hk
  simpa using (List.mem_filter.1 hw).2

theorem Course.record_frame : (c.record f status code chan bytes bmap).flags = c.flags ∧
    (c.record f status code chan bytes bmap).cancelled = c.cancelled ∧ (c.record f status code chan bytes bmap).ident = c.ident := by
  obtain ⟨rs, h, -⟩ := c.record_eq f status code chan bytes bmap
  obtain ⟨-, -, hflags, hcancelled, hident⟩ := Course.setEvent_frame { c.settleRecord f with recs := rs }
  obtain ⟨hflags', -, -, hcancelled', hident'⟩ := c.settleRecord_frame f
  rw [h]
  exact ⟨hflags.trans hflags', hcancelled.trans hcancelled', hident.trans hident'⟩

end

theorem recordWord_fields {status code : Code} {chan : Nat} (h : chan < 8) :
    (recordHead status code chan).extractLsb' 0 8 = status ∧ (recordHead status code chan).extractLsb' 8 8 = BitVec.ofNat 8 chan ∧
      (recordHead status code chan).extractLsb' 16 8 = code := by
  have hs := status.isLt
  have hc := code.isLt
  have hx : (recordHead status code chan).toNat = status.toNat + chan * 2 ^ 8 + code.toNat * 2 ^ 16 := Nat.mod_eq_of_lt (by omega)
  refine ⟨BitVec.eq_of_toNat_eq ?_, BitVec.eq_of_toNat_eq ?_, BitVec.eq_of_toNat_eq ?_⟩ <;>
    simp only [BitVec.extractLsb'_toNat, BitVec.toNat_ofNat, Nat.shiftRight_eq_div_pow, hx] <;> omega

/-- Of the words of the records, those of one record are written. -/
theorem get_recordWords (t : Sparse Word) (f : Nat) (status code : Code) (chan bytes bmap m : Nat) :
    Sparse.get ((recordWords status code chan bytes bmap).zipIdx.foldl (fun t e => Sparse.set t (4 * f + e.2) e.1 0) t) m 0 =
      if m = 4 * f + 3 then BitVec.ofNat 32 (bmap / 2 ^ 32) else if m = 4 * f + 2 then BitVec.ofNat 32 bmap
      else if m = 4 * f + 1 then BitVec.ofNat 32 bytes
      else if m = 4 * f then recordHead status code chan else Sparse.get t m 0 := by
  simp [recordWords, Sparse.get_set]

section
variable {c : Course} {f : Nat} {status code : Code} {chan bytes bmap : Nat}

/-- A completion record in words: status, channel and code, the bytes, the bitmap's place. -/
structure Course.Holds (d : Course) (f : Nat) (status code : Code) (chan bytes bmap : Nat) : Prop where
  inStatus : (Sparse.get d.recs (4 * f) 0).extractLsb' 0 8 = status
  inChan : (Sparse.get d.recs (4 * f) 0).extractLsb' 8 8 = BitVec.ofNat 8 chan
  inCode : (Sparse.get d.recs (4 * f) 0).extractLsb' 16 8 = code
  inBytes : Sparse.get d.recs (4 * f + 1) 0 = BitVec.ofNat 32 bytes
  inBmap : Sparse.get d.recs (4 * f + 2) 0 = BitVec.ofNat 32 bmap
  inHigh : Sparse.get d.recs (4 * f + 3) 0 = BitVec.ofNat 32 (bmap / 2 ^ 32)

theorem Course.record_holds (hchan : chan < 8)
    (h : ¬(status = 0 ∧ (Sparse.get (c.settleRecord f).recs (4 * f) 0).extractLsb' 0 8 ≠ 0)) :
    (c.record f status code chan bytes bmap).Holds f status code chan bytes bmap ∧
      ∀ n, n / 4 ≠ f → Sparse.get (c.record f status code chan bytes bmap).recs n 0 = Sparse.get (c.settleRecord f).recs n 0 := by
  have hget (m : Nat) := get_recordWords (c.settleRecord f).recs f status code chan bytes bmap m
  obtain ⟨hstatus, hch, hcode⟩ := recordWord_fields (status := status) (code := code) hchan
  have hrecs := (c.record_recs f status code chan bytes bmap).trans (if_neg h)
  refine ⟨?_, fun n hn => ?_⟩
  · constructor <;> rw [hrecs, hget] <;> simp [hstatus, hch, hcode]
  · rw [hrecs, hget]
    simp only [if_neg (show n ≠ 4 * f + 3 by omega), if_neg (show n ≠ 4 * f + 2 by omega), if_neg (show n ≠ 4 * f + 1 by omega),
      if_neg (show n ≠ 4 * f by omega)]

/-- What a record says of a course as it stood, as the statements say it. -/
theorem Course.recorded_of_record {d : Course} (hchan : chan < 8)
    (hrecs : ∀ n, n / 4 = f → Sparse.get d.recs n 0 = Sparse.get (c.record f status status chan bytes bmap).recs n 0) :
    c.Recorded d f status chan bytes bmap := by
  unfold Course.Recorded
  simp only [Nat.add_zero]
  split
  · next h =>
    intro n hn
    rw [hrecs _ (by omega), (c.record_recs f status status chan bytes bmap).trans (if_pos h)]
  · next h =>
    obtain ⟨⟨hs, hch, hcode, hb, hbm, hhigh⟩, -⟩ := Course.record_holds (code := status) (bytes := bytes) (bmap := bmap) hchan h
    rw [hrecs _ (show 4 * f / 4 = f by omega), hrecs _ (show (4 * f + 1) / 4 = f by omega), hrecs _ (show (4 * f + 2) / 4 = f by omega),
      hrecs _ (show (4 * f + 3) / 4 = f by omega)]
    exact ⟨hs, hch, hcode, hb, hbm, hhigh⟩

/-- A record depends on the work under way and on the records that stand. -/
theorem Course.recorded_congr {b d : Course} (hwork : c.work = b.work) (hrecs : c.recs = b.recs) (h : c.Recorded d f status chan bytes bmap) :
    b.Recorded d f status chan bytes bmap := by
  have hsettled : (c.settleRecord f).recs = (b.settleRecord f).recs := by
    rw [Course.settleRecord_recs, Course.settleRecord_recs, Course.pendingRecord, Course.pendingRecord, hwork, hrecs]
  unfold Course.Recorded at h ⊢
  simp only [hsettled] at h ⊢
  exact h

/-- The end of a work item that awaits no write of a record leaves the record as it is. -/
theorem Course.get_finish_recs {k : Work} (h : ∀ w ∈ k.writes, w.ofRecord f = false) {n : Nat} (hn : n / 4 = f) :
    Sparse.get (c.finish k).recs n 0 = Sparse.get c.recs n 0 := by
  obtain ⟨fs, h', e, w, hf⟩ := c.finish_eq k
  rw [hf]
  dsimp only
  rw [Course.recs_foldl_write, RegWrite.get_foldl_onRecs h _ hn]

/-- The end of a work item lowers its flag. -/
theorem Course.flag_finish {k : Work} {g : Nat} (h : k.sig = some g) : (c.finish k).flag g = c.flag g - 1 := by
  obtain ⟨s, w, v, p, qe, qs, q, b, rs, me, re, l, ea, ec, hw⟩ := Course.foldl_write_eq k.writes c
  have hcommit : (c.commitWrites k).flags = c.flags := by
    unfold Course.commitWrites
    rw [hw]
  have hset (d : Course) (x : Nat) : (d.setFlag g x).flag g = x := (Sparse.get_set _ _ _ _ _).trans (if_pos rfl)
  have hevent (d : Course) : d.setEvent.flag g = d.flag g := congrArg (Sparse.get · g 0) (Course.setEvent_frame d).2.2.1
  have hflag : (c.commitWrites k).flag g = c.flag g := congrArg (Sparse.get · g 0) hcommit
  have hsignal : ((c.commitWrites k).signal (some g)).flag g = (c.commitWrites k).flag g - 1 := by
    unfold Course.signal
    dsimp only
    split
    · rw [hevent, hset]
    · rw [hset]
  unfold Course.finish
  rw [h]
  exact hsignal.trans (by rw [hflag])

end

/-! The end of a copy (R114, R131, R173, R373). -/

/-- What a copy's end leaves of its course: the record, the promise gone, the channel's release for the flag, the work done. -/
def Course.endsCopy (c : Course) (j : CopyJob) (status : Code) (ch bytes : Nat) (r : Carry) : Course :=
  let c := c.recordFor j.sig status status ch bytes (if j.kind = .cpyg then j.bmap else 0)
  let c := { c with promises := c.promises.filter (fun p => p.1 != j.workId),
                    copyRels := match j.sig with | some f => c.copyRels ++ [(f, r)] | none => c.copyRels }
  match c.workOf j.workId with
  | some k => c.finish k
  | none => c

section
variable (s : State) (w ch : Nat) (j : CopyJob) (status : Code) (bytes : Nat)

theorem State.endCopy_eq : ∃ ws ls r, s.endCopy w ch j status bytes =
      State.modWhere { s with walls := ws, launches := ls } (fun c => c.ident == j.ident) (fun c => c.endsCopy j status ch bytes r) ∧
    (State.chan { s with walls := ws, launches := ls } w ch).job = none := by
  let x := s.chan w ch
  let r := x.sync.release x.ident 3
  let t := (s.setChan w ch { x with job := none, sync := r.2, ended := x.ended.filter (fun e => e.1 != j.ident) ++ [(j.ident, x.sync.rc)] }).modLaunch
    j.launch (fun l => { l with sync := l.sync.acquire 0 r.1 })
  obtain ⟨ws, hws, hjobs⟩ := t.countEvent_eq w 8 1
  refine ⟨ws, _, r.1, (congrArg (fun u : State => (u.outstanding j.launch w (· - (if j.sigv && !j.signalled then 2 else 1))).modWhere
    (fun c => c.ident == j.ident) (fun c => c.endsCopy j status ch bytes r.1)) hws :), (hjobs w ch).trans ?_⟩
  exact congrArg Chan.job ((s.chan_setChan w ch ch _).trans (if_pos rfl))

theorem State.endCopy_job : ((s.endCopy w ch j status bytes).chan w ch).job = none := by
  obtain ⟨ws, ls, r, h, hjob⟩ := s.endCopy_eq w ch j status bytes
  rw [h]
  exact hjob

theorem State.endCopy_mem : (s.endCopy w ch j status bytes).mem = s.mem := by
  obtain ⟨ws, ls, r, h, -⟩ := s.endCopy_eq w ch j status bytes
  rw [h]
  rfl

theorem State.endCopy_cur (h : s.cur.ident = j.ident) : ∃ r, (s.endCopy w ch j status bytes).cur = s.cur.endsCopy j status ch bytes r := by
  obtain ⟨ws, ls, r, hend, -⟩ := s.endCopy_eq w ch j status bytes
  rw [hend]
  exact ⟨r, if_pos (by simpa using h)⟩

end

theorem Course.endsCopy_recorded {c : Course} {j : CopyJob} {status : Code} {ch bytes g : Nat} (r : Carry) (hsig : j.sig = some g) (hch : ch < 8) :
    c.Recorded (c.endsCopy j status ch bytes r) g status ch bytes (if j.kind = .cpyg then j.bmap else 0) := by
  refine Course.recorded_of_record hch fun n hn => ?_
  unfold Course.endsCopy
  rw [hsig]
  dsimp only [Course.recordFor]
  split
  · next k hk =>
    exact Course.get_finish_recs (fun w hw => Course.ofRecord_of_mem_record _ _ _ _ _ _ _ (List.mem_of_find?_eq_some hk) hw) hn
  · rfl

theorem Course.workOf_record (c : Course) (f : Nat) (status code : Code) (chan bytes bmap id : Nat) :
    (c.record f status code chan bytes bmap).workOf id =
      (c.workOf id).map (fun k => { k with writes := k.writes.filter (fun w => !w.ofRecord f) }) := by
  unfold Course.workOf
  rw [Course.record_work, Course.settleRecord_work, List.find?_map]
  rfl

/-- A copy's end lowers its flag, and its work item is gone. -/
theorem Course.endsCopy_flag {c : Course} {j : CopyJob} {status : Code} {ch bytes g : Nat} {k : Work} (r : Carry) (hsig : j.sig = some g)
    (hwork : c.workOf j.workId = some k) (hk : k.sig = some g) :
    (c.endsCopy j status ch bytes r).flag g = c.flag g - 1 ∧ (c.endsCopy j status ch bytes r).workOf j.workId = none := by
  have hfind := c.workOf_record g status status ch bytes (if j.kind = .cpyg then j.bmap else 0) j.workId
  obtain ⟨hflags, -, -⟩ := c.record_frame g status status ch bytes (if j.kind = .cpyg then j.bmap else 0)
  rw [hwork] at hfind
  unfold Course.endsCopy
  rw [hsig]
  dsimp only [Course.recordFor]
  split
  · next o ho =>
    obtain rfl := Option.some.inj (ho.symm.trans hfind)
    refine ⟨(Course.flag_finish (k := { k with writes := k.writes.filter (fun w => !w.ofRecord g) }) hk).trans ?_, Course.workOf_finish_of_workOf ho⟩
    exact congrArg (fun t => Sparse.get t g 0 - 1) hflags
  · next ho => exact absurd (ho.symm.trans hfind) (by simp)

end Sys2Proof.Machine

namespace Sys2Proof.CopyRuns

theorem completionRecords : Claims.CompletionRecords := by
  intro c f status code chan bytes bmap s w ch j hf hchan hbytes hbmap d e word
  have hwork : d.work = e.work := c.record_work f status code chan bytes bmap
  obtain ⟨-, hhold, -, -, -⟩ := c.settleRecord_frame f
  obtain ⟨rs, hd, -⟩ := c.record_eq f status code chan bytes bmap
  refine ⟨fun h => ?_, fun k hk n x hx => ?_, fun h0 h => (c.record_recs f status code chan bytes bmap).trans (if_pos ⟨h0, h⟩), fun h => ?_, fun h => ?_,
    fun h => ?_, State.endCopy_job s w ch j status bytes, State.endCopy_mem s w ch j status bytes, fun g k hsig hident hk hg => ?_⟩
  · have hnone : c.pendingRecord f = [] := by
      refine List.flatMap_eq_nil_iff.2 fun k hk => List.filter_eq_nil_iff.2 fun x hx => ?_
      cases x with
      | record n y => simpa [RegWrite.ofRecord] using h k hk n y hx
      | _ => simp [RegWrite.ofRecord]
    rw [Course.settleRecord_recs, hnone]
    rfl
  · simpa [RegWrite.ofRecord] using Course.ofRecord_of_mem_record c f status code chan bytes bmap hk hx
  · obtain ⟨⟨hs, hch, hcode, hb, hbm, hhigh⟩, hrest⟩ := Course.record_holds (c := c) (f := f) (status := status) (code := code) (bytes := bytes) (bmap := bmap) hchan
      (fun h' => h.elim (fun hs => hs h'.1) h'.2)
    exact ⟨hs, hch, hcode, hb, hbm, hhigh.trans (by rw [Nat.div_eq_of_lt hbmap]; rfl), hrest⟩
  · change (c.record f status code chan bytes bmap).hold = .none
    rw [hd]
    unfold Course.setEvent
    rw [if_pos (hhold.trans h)]
  · change (c.record f status code chan bytes bmap).event = true ∧ (c.record f status code chan bytes bmap).hold = c.hold
    rw [hd]
    unfold Course.setEvent
    rw [if_neg (fun h' => h (hhold.symm.trans h'))]
    exact ⟨rfl, hhold⟩
  · obtain ⟨r, hcur⟩ := s.endCopy_cur w ch j status bytes hident
    rw [hcur]
    exact Course.endsCopy_flag r hsig hk hg

end Sys2Proof.CopyRuns
end

section
/-! SUPPORT. The steps of a copy on its channel (R109, R110, R114, R259, R373, R376). -/

open Sys2Proof Sys2Proof.Machine

namespace Sys2Proof.Machine

/-! What a copy tries leaves what a fetch leaves. -/

theorem State.fetched_drawBit (s : State) : s.Fetched s.drawBit.2 := ⟨.refl _, rfl, rfl, rfl, rfl, rfl, rfl⟩

/-- The lanes of a gather's row, found in turn. -/
theorem State.fetched_foldl_pieceAt (ps : List (Nat × Nat)) (h : How) (s : State) (acc : List LaneR × Maker × State) (hacc : s.Fetched acc.2.2) :
    s.Fetched (ps.foldl (fun (acc : List LaneR × Maker × State) p =>
      let m := acc.2.2.walksFor acc.2.1 p
      let r := acc.2.2.pieceAt m h p
      (acc.1 ++ [r.1], m, r.2)) acc).2.2 :=
  List.foldlRecOn (motive := fun (t : List LaneR × Maker × State) => s.Fetched t.2.2) _ _ hacc fun t ht _ _ => ht.trans (t.2.2.pieceAt_translated _ _ _).fetched

theorem State.fetched_foldl_checkPlace (qs : List Place) (m : Maker) (h : How) (s : State) (acc : Option RangeFault × State) (hacc : s.Fetched acc.2) :
    s.Fetched (qs.foldl (fun (acc : Option RangeFault × State) q =>
      match acc.1 with | some f => (some f, acc.2) | none => acc.2.checkPlace m h q) acc).2 := by
  refine List.foldlRecOn (motive := fun (t : Option RangeFault × State) => s.Fetched t.2) _ _ hacc fun t ht q _ => ?_
  split
  · exact ht
  · exact ht.trans (t.2.tried_checkPlace m h q).1

theorem State.fetched_gatherRow (s : State) (w : Nat) (hint : Hint) (m : Maker) (va n : Nat) : s.Fetched (s.gatherRow w hint m va n).2.2 := by
  have hpieces := State.fetched_foldl_pieceAt (pieces va n) { acc := { rd := true }, nr := true } s ([], m, s) (.refl s)
  unfold State.gatherRow
  dsimp only
  generalize (pieces va n).foldl _ _ = x at hpieces ⊢
  obtain ⟨rs, m', t⟩ := x
  dsimp only at hpieces ⊢
  split
  · split
    · exact hpieces.trans (State.fetched_poisonUsed _ _ _ _)
    · exact hpieces
  · split
    · have hcheck := State.fetched_foldl_checkPlace (placesOf rs) m' { acc := { rd := true }, nr := true } t (none, t) (.refl t)
      exact (hpieces.trans hcheck).trans (State.filled_bayReads _ _ _ _).fetched
    · exact hpieces

theorem State.fetched_gatherRows (w : Nat) (hint : Hint) (m : Maker) (n : Nat) (vas : List Nat) (s : State) :
    s.Fetched (s.gatherRows w hint m n vas).2.2 := by
  induction vas generalizing s with
  | nil => exact .refl s
  | cons va vas ih =>
    have hrow := s.fetched_gatherRow w hint m va n
    unfold State.gatherRows
    split
    · next he => rw [he] at hrow; exact hrow
    · next x t he => rw [he] at hrow; exact hrow.trans (ih t)

theorem State.fetched_readSource (s : State) (w ch : Nat) (j : CopyJob) : s.Fetched (s.readSource w ch j).2.2 := by
  unfold State.readSource
  split
  · have hrange := (State.tried_range (s.chanMaker w ch j true true false) { acc := { rd := true } } (pieces j.idx (4 * j.nidx)) s).1
    split
    · next he => rw [he] at hrange; exact hrange
    · next ps t he => rw [he] at hrange; exact hrange.trans (State.fetched_gatherRows _ _ _ _ _ t)
  · have hrange := (State.tried_range (s.chanMaker w ch j (j.ssp || j.scv) true false) { acc := { rd := true } } (s.srcPieces w j) s).1
    dsimp only
    split
    · exact hrange
    · exact hrange.trans (State.filled_bayReads _ _ _ _).fetched

theorem State.fetched_writePlaces (s : State) (w ch : Nat) (j : CopyJob) : s.Fetched (s.writePlaces w ch j).2.2 :=
  (State.tried_range _ _ _ s).1

theorem State.fetched_bitmapPlaces (s : State) (w ch : Nat) (j : CopyJob) : s.Fetched (s.bitmapPlaces w ch j).2.2 := by
  unfold State.bitmapPlaces
  split
  · exact (State.tried_range _ _ _ s).1
  · exact .refl s

theorem State.fetched_sigPlaces (s : State) (w ch : Nat) (j : CopyJob) (h : How) : s.Fetched (s.sigPlaces w ch j h).2.2 :=
  (State.tried_range _ _ _ s).1

theorem State.fetched_primed (s : State) (w ch : Nat) (j : CopyJob) : s.Fetched (s.primed w ch j) := s.fetched_setChan w ch _

theorem State.fetched_copyTrial (s : State) (w ch : Nat) (j : CopyJob) : s.Fetched (s.copyTrial w ch j).2 := by
  unfold State.copyTrial
  split
  · split
    · exact .refl s
    · exact (s.fetched_primed w ch j).trans (State.fetched_readSource _ _ _ _)
  · split
    · exact .refl s
    · have hwrite := s.fetched_writePlaces w ch j
      split
      · next he => rw [he] at hwrite; exact hwrite
      · next ps t he =>
        rw [he] at hwrite
        have hbits := t.fetched_bitmapPlaces w ch j
        split
        · next he => rw [he] at hbits; exact hwrite.trans hbits
        · next bs u he =>
          rw [he] at hbits
          have hsig := u.fetched_sigPlaces w ch j sigHow
          split
          · exact hwrite.trans hbits
          · split
            · next he => rw [he] at hsig; exact (hwrite.trans hbits).trans hsig
            · next he => rw [he] at hsig; exact (hwrite.trans hbits).trans hsig

/-! The focused agent's work under way and its records, by which a completion record is judged. -/

/-- The focused agent stands with the same work under way and the same completion records. -/
def State.SameTasks (s t : State) : Prop := t.cur.ident = s.cur.ident ∧ t.cur.work = s.cur.work ∧ t.cur.recs = s.cur.recs

theorem State.SameTasks.refl (s : State) : s.SameTasks s := ⟨rfl, rfl, rfl⟩

theorem State.SameTasks.trans {s t u : State} (h : s.SameTasks t) (h' : t.SameTasks u) : s.SameTasks u :=
  ⟨h'.1.trans h.1, h'.2.1.trans h.2.1, h'.2.2.trans h.2.2⟩

theorem State.Fetched.sameTasks {s t : State} (h : s.Fetched t) : s.SameTasks t := ⟨h.cur.ident, h.cur.work, h.cur.recs⟩

theorem State.SameTasks.of_cur {s t : State} (h : t.cur = s.cur) : s.SameTasks t := by
  unfold State.SameTasks
  rw [h]
  exact ⟨rfl, rfl, rfl⟩

theorem State.Stored.sameTasks {s t : State} (h : s.Stored t) : s.SameTasks t := .of_cur h.cur

theorem State.stored_deliver (s : State) (w : Nat) (j : CopyJob) (ps bs : List Place) : s.Stored (s.deliver w j ps bs) :=
  (s.stored_putRange _ _ _ _).trans (State.stored_putRange _ _ _ _ _)

theorem State.sameTasks_signalKeyed (s : State) (who : DWord) (q : Place) (old : Nat) : s.SameTasks (s.signalKeyed who q old) := by
  unfold State.signalKeyed
  split
  · exact .refl s
  · have hcur (c : Course) : (if c.ident == who then { c with atoms := c.atoms + 1 } else c).ident = c.ident ∧
        (if c.ident == who then { c with atoms := c.atoms + 1 } else c).work = c.work ∧
        (if c.ident == who then { c with atoms := c.atoms + 1 } else c).recs = c.recs := by
      split <;> exact ⟨rfl, rfl, rfl⟩
    exact hcur s.cur

theorem State.sameTasks_layRels (s : State) (cs : List Carry) (a n : Nat) (rmw : Bool) : s.SameTasks (s.layRels cs a n rmw) := by
  obtain ⟨r, h⟩ := s.layRels_eq cs a n rmw
  rw [h]
  exact .refl s

theorem State.sameTasks_signalAt (s : State) (w ch : Nat) (j : CopyJob) (q : Place) : s.SameTasks (s.signalAt w ch j q) := by
  unfold State.signalAt
  dsimp only
  refine State.SameTasks.trans ?_ (State.sameTasks_signalKeyed _ _ _ _)
  refine State.SameTasks.trans (State.SameTasks.trans ?_ (State.sameTasks_layRels _ _ _ _ _)) (.of_cur rfl)
  refine State.SameTasks.trans ?_ ((State.stored_dropBlocks _ _ _).trans (State.stored_pastHost _ _ _)).sameTasks
  have hown := (s.fetched_setChan w ch _).sameTasks.trans (State.stored_ownFrame (s.setChan w ch
    { s.chan w ch with sync := ((s.chan w ch).sync.release (s.chan w ch).ident 7).2 }) j.launch w q.va q.pa).sameTasks
  split
  · exact hown.trans (State.filled_cacheWrites _ _ _ _).stored.sameTasks
  · exact hown

/-! The end of a copy that fails (R373, R376). -/

/-- The destination bytes that a failing copy leaves written, and those of its bitmap. -/
def State.failStores (s : State) (w : Nat) (j : CopyJob) (bits : List Place) (kept : List (Place × List Byte)) (written : Nat) : State :=
  let s := s.putRange j.launch w j.hint kept
  s.putRange j.launch w j.hint (keptBytes (cutBytes bits (bitmapBytes j.nonres (s.bytesAt bits))) (fun i => written.testBit (j.len + i)))

/-- A signal over the fabric that timed out has been made once or not at all. -/
def State.failSignal (s : State) (w ch : Nat) (j : CopyJob) (whole : Bool) : State :=
  let (made, s) := if whole then s.drawBit else (false, s)
  if made then
    match s.sigPlaces w ch j sigHow with
    | (none, q :: _, s2) => s2.signalAt w ch j q
    | _ => s
  else s

/-- What a failure reports, and the room that it gives back. -/
def State.failReports (s : State) (w ch : Nat) (j : CopyJob) (code : Code) (fault : Option RangeFault) : State :=
  let s := if code = 0x10 then s.lifeAdd 0x32 1 else s
  let x := s.chan w ch
  let s := match fault with
    | some f => if code = 0x0B then (s.countEvent w 10 1).memEvent 4 f.pa (dieOf w) x.ident f.other f.rc x.sync.rc 0 else s
    | none => s
  let s := if code = 0x0F then (let d := s.draw; d.2.memEvent 5 (d.1 % 2 ^ 52 / 32 * 32) (dieOf w) x.ident 0 0 0 0) else s
  let d := (s.plane w j.plane).chute j.dch
  if j.dcv then s.modChute w j.plane j.dch (fun q => { q with resv := q.resv - j.len / d.size }) else s

theorem State.sameTasks_failStores (s : State) (w : Nat) (j : CopyJob) (bits : List Place) (kept : List (Place × List Byte)) (written : Nat) :
    s.SameTasks (s.failStores w j bits kept written) :=
  ((s.stored_putRange _ _ _ _).trans (State.stored_putRange _ _ _ _ _)).sameTasks

theorem State.sameTasks_failSignal (s : State) (w ch : Nat) (j : CopyJob) (whole : Bool) : s.SameTasks (s.failSignal w ch j whole) := by
  have hdraw : s.SameTasks (if whole then s.drawBit else (false, s)).2 := by
    split
    · exact s.fetched_drawBit.sameTasks
    · exact .refl s
  unfold State.failSignal
  generalize (if whole then s.drawBit else (false, s)) = x at hdraw
  obtain ⟨made, t⟩ := x
  have hsig := t.fetched_sigPlaces w ch j sigHow
  dsimp only at hdraw ⊢
  split
  · split
    · next q r u he =>
      rw [he] at hsig
      exact (hdraw.trans hsig.sameTasks).trans (u.sameTasks_signalAt w ch j q)
    · exact hdraw
  · exact hdraw

theorem State.sameTasks_failReports (s : State) (w ch : Nat) (j : CopyJob) (code : Code) (fault : Option RangeFault) :
    s.SameTasks (s.failReports w ch j code fault) := by
  have hlife (t : State) : t.SameTasks (if code = 0x10 then t.lifeAdd 0x32 1 else t) := by split <;> exact .refl _
  have hrace (t : State) (x : Chan) : t.SameTasks (match fault with
      | some f => if code = 0x0B then (t.countEvent w 10 1).memEvent 4 f.pa (dieOf w) x.ident f.other f.rc x.sync.rc 0 else t
      | none => t) := by
    split
    · split
      · exact ((t.fetched_countEvent w 10 1).trans (State.fetched_memEvent _ _ _ _ _ _ _ _ _)).sameTasks
      · exact .refl t
    · exact .refl t
  have hpeer (t : State) (x : Chan) : t.SameTasks (if code = 0x0F then
      (let d := t.draw; d.2.memEvent 5 (d.1 % 2 ^ 52 / 32 * 32) (dieOf w) x.ident 0 0 0 0) else t) := by
    split
    · exact (State.Fetched.trans ⟨.refl _, rfl, rfl, rfl, rfl, rfl, rfl⟩ (State.fetched_memEvent _ _ _ _ _ _ _ _ _)).sameTasks
    · exact .refl t
  have hroom (t : State) (n : Nat) : t.SameTasks (if j.dcv then t.modChute w j.plane j.dch (fun q => { q with resv := q.resv - n }) else t) := by
    split <;> exact .refl _
  exact (((hlife s).trans (hrace _ _)).trans (hpeer _ _)).trans (hroom _ _)

end Sys2Proof.Machine

namespace Sys2Proof.CopyRuns

section
variable {s : State} {w ch : Nat} {j : CopyJob}

theorem onChan_job (h : (s.chan w ch).job = some j) (f : CopyJob → State) : s.onChan w ch f = f j := by
  unfold State.onChan
  rw [h]

/-- A copy's end records its status for a course that stood with the same work and records. -/
theorem recorded_endCopy {t : State} (h : s.SameTasks t) (status : Code) (bytes : Nat) : ∀ g, j.sig = some g → s.cur.ident = j.ident → ch < 8 →
    s.cur.Recorded (t.endCopy w ch j status bytes).cur g status ch bytes (if j.kind = .cpyg then j.bmap else 0) := by
  obtain ⟨hident, hwork, hrecs⟩ := h
  intro g hsig hid hch
  obtain ⟨r, hcur⟩ := t.endCopy_cur w ch j status bytes (hident.trans hid)
  rw [hcur]
  exact Course.recorded_congr hwork hrecs (Course.endsCopy_recorded r hsig hch)

/-- What a failure that is due does: the trial, the bytes kept, the signal, the reports, the copy's end. -/
theorem exec_copyFailure (hjob : (s.chan w ch).job = some j) (code : Code) (written : Nat) : exec (.copyFailure w ch code written) s = .next (
    let r := (s.copyTrial w ch j).1
    let own := (r.fault.map (fun f => f.code)) == some code
    if !own && !(code == 0x10 && s.copyTimedOut w ch j) then s
    else
      let whole := !own && s.farSignal w ch j && j.started && written == 2 ^ j.len - 1
      let kept := keptBytes (cutBytes r.dst j.data) (fun i => ((own && r.signal) || whole) || written.testBit i)
      ((((if own || r.fault.isNone then (s.copyTrial w ch j).2 else s).failStores w j r.bits kept written).failSignal w ch j whole).failReports
        w ch j code r.fault).endCopy w ch j code kept.length) :=
  congrArg Host.Outcome.next (onChan_job hjob _)

theorem exec_copyStart (hjob : (s.chan w ch).job = some j) (hnot : j.started = false) (hpub : s.unpublished w j = false) {x : ReadOut} {s2 : State}
    (hread : (s.primed w ch j).readSource w ch j = (none, x, s2)) : exec (.copyStart w ch) s = .next (
      if s.anyStall w x.places then s
      else s2.setChan w ch { s2.chan w ch with job := some { j with
        started := true, data := x.data, nonres := x.nonres, sIdx := ((s.plane w j.plane).chute j.sch).cons, since := s.count (dieOf w) } }) := by
  refine congrArg Host.Outcome.next ((onChan_job hjob _).trans ?_)
  dsimp only
  rw [if_neg (by simp [hnot, hpub]), hread]

theorem exec_remoteSignal (hjob : (s.chan w ch).job = some j) (hsigv : j.sigv = true) (hsig : j.signalled = false) (hstarted : j.started = true)
    {ps rest : List Place} {p : Place} {s1 s2 : State} (hplaces : s.writePlaces w ch j = (none, ps, s1)) (hstall : s.anyStall w ps = false)
    (hcounter : (s1.deliver w j ps []).sigPlaces w ch j sigHow = (none, p :: rest, s2)) (hawake : s2.anyStall w [p] = false) :
    exec (.remoteSignal w ch) s = .next (
      if s2.signalFull p then s
      else
        let t := (s2.signalAt w ch j p).outstanding j.launch w (· - 1)
        t.setChan w ch { t.chan w ch with job := some { j with written := true, signalled := true } }) := by
  refine congrArg Host.Outcome.next ((onChan_job hjob _).trans ?_)
  dsimp only
  rw [if_neg (by simp [hstarted, hsigv, hsig]), hplaces]
  dsimp only
  rw [if_neg (by simp [hstall]), hcounter]
  dsimp only
  rw [hawake, Bool.false_or]

theorem exec_copyComplete_written (hjob : (s.chan w ch).job = some j) (hstarted : j.started = true) (hscv : j.scv = false)
    (hsig : j.signalled = true) (hwritten : j.written = true) : exec (.copyComplete w ch) s = .next (s.endCopy w ch j 0 j.len) := by
  refine congrArg Host.Outcome.next ((onChan_job hjob _).trans ?_)
  dsimp only
  rw [if_neg (by simp [hstarted, hscv, hsig]), if_pos hwritten]

theorem exec_copyComplete (hjob : (s.chan w ch).job = some j) (hstarted : j.started = true) (hscv : j.scv = false) (hsigv : j.sigv = false)
    (hdcv : j.dcv = false) (hwritten : j.written = false) {ps bs : List Place} {s1 s2 : State} (hplaces : s.writePlaces w ch j = (none, ps, s1))
    (hbits : s1.bitmapPlaces w ch j = (none, bs, s2)) (hstall : s.anyStall w (ps ++ bs) = false) :
    exec (.copyComplete w ch) s = .next ((s2.deliver w j ps bs).endCopy w ch j 0 j.len) := by
  refine congrArg Host.Outcome.next ((onChan_job hjob _).trans ?_)
  dsimp only
  rw [if_neg (by simp [hstarted, hscv, hsigv]), if_neg (by simp [hwritten]), hplaces]
  dsimp only
  rw [hbits]
  dsimp only
  rw [if_neg (by simp [hstall]), if_neg (by simp [hdcv])]

/-- A failure that is due ends the copy, in a state with the agents' work and records as they stood. -/
theorem exec_copyFailure_due (hjob : (s.chan w ch).job = some j) (code : Code) (written : Nat)
    (h : (s.copyFault w ch j).map (fun f => f.code) = some code ∨ (code = 0x10 ∧ s.copyTimedOut w ch j = true)) :
    ∃ t n, exec (.copyFailure w ch code written) s = .next (t.endCopy w ch j code n) ∧ s.SameTasks t ∧
      ((s.copyFault w ch j).map (fun f => f.code) = some code →
        let x := (s.copyTrial w ch j).1
        n = (keptBytes (cutBytes x.dst j.data) (fun i => x.signal || written.testBit i)).length) := by
  have htrial := (s.fetched_copyTrial w ch j).sameTasks
  have hstart : s.SameTasks (if ((s.copyTrial w ch j).1.fault.map (fun f => f.code)) == some code || (s.copyTrial w ch j).1.fault.isNone
      then (s.copyTrial w ch j).2 else s) := by
    split
    · exact htrial
    · exact .refl s
  refine ⟨_, _, (exec_copyFailure hjob code written).trans (congrArg Host.Outcome.next (if_neg ?_)),
    ((hstart.trans (State.sameTasks_failStores _ _ _ _ _ _)).trans (State.sameTasks_failSignal _ _ _ _ _)).trans
      (State.sameTasks_failReports _ _ _ _ _ _), fun hown => ?_⟩
  · rcases h with h | ⟨rfl, h⟩
    · have hown : ((s.copyTrial w ch j).1.fault.map (fun f => f.code)) = some code := h
      simp [hown]
    · simp [h]
  · have hown : ((s.copyTrial w ch j).1.fault.map (fun f => f.code)) = some code := hown
    simp [hown]

end

theorem copySteps : Claims.CopySteps := by
  intro s w ch j hjob q recorded
  have hfails {t : State} (code : Code) (n : Nat) (h : s.SameTasks t) : ((t.endCopy w ch j code n).chan w ch).job = none ∧
      recorded (t.endCopy w ch j code n) code n := ⟨State.endCopy_job _ _ _ _ _ _, recorded_endCopy h code n⟩
  refine ⟨fun h => ?_, fun hscv hpub => ?_, fun x s2 hnot hpub hread => ⟨fun hstall => ?_, fun hstall => ?_⟩, fun hstarted hscv heaten => ?_,
    fun h => ?_, fun ps p rest s1 s2 hsigv hsig hstarted hplaces hstall hcounter hawake => ⟨fun hfull => ?_, fun hfull => ?_⟩, fun h => ?_,
    fun hstarted hscv hsigv hsig hwritten => ?_, fun ps bs s1 s2 hstarted hscv hsigv hdcv hwritten hplaces hbits hstall => ?_, fun code written hcode hpeer => ?_,
    fun f code written hfault hcode => ?_, fun written hfault hpeer => ?_⟩
  · exact congrArg Host.Outcome.next ((onChan_job hjob _).trans (if_pos (by simp [h])))
  · exact congrArg Host.Outcome.next ((onChan_job hjob _).trans (if_pos (by simpa [State.unpublished, hscv] using .inr hpub)))
  · rw [exec_copyStart hjob hnot (by simpa [State.unpublished] using hpub) hread, if_pos hstall]
  · rw [exec_copyStart hjob hnot (by simpa [State.unpublished] using hpub) hread, if_neg (by simp [hstall])]
    exact ⟨_, rfl, rfl, congrArg Chan.job ((State.chan_setChan _ _ _ _ _).trans (if_pos rfl))⟩
  · refine ⟨_, congrArg Host.Outcome.next ((onChan_job hjob _).trans (if_neg ?_)), ?_, congrArg Chan.job ((State.chan_setChan _ _ _ _ _).trans (if_pos rfl)), rfl⟩
    · simpa [hstarted, hscv] using heaten
    · exact congrArg Chute.cons ((s.chute_modChute w j.plane j.sch j.sch (fun q => { q with cons := q.step q.cons 1 })).trans (if_pos rfl))
  · refine congrArg Host.Outcome.next ((onChan_job hjob _).trans (if_pos ?_))
    rcases h with h | h | h <;> simp [h]
  · rw [exec_remoteSignal hjob hsigv hsig hstarted hplaces hstall hcounter hawake, if_pos hfull]
  · rw [exec_remoteSignal hjob hsigv hsig hstarted hplaces hstall hcounter hawake, if_neg (by simp [hfull])]
    generalize s2.signalAt w ch j p = y
    exact ⟨_, rfl, rfl, congrArg Chan.job ((State.chan_setChan _ _ _ _ _).trans (if_pos rfl))⟩
  · refine congrArg Host.Outcome.next ((onChan_job hjob _).trans (if_pos ?_))
    rcases h with h | ⟨h, h'⟩
    · simp [h]
    · simp [h, h']
  · exact ⟨exec_copyComplete_written hjob hstarted hscv hsig hwritten, (hfails 0 j.len (.refl s)).2⟩
  · have hwrite := s.fetched_writePlaces w ch j
    have hmap := s1.fetched_bitmapPlaces w ch j
    rw [hplaces] at hwrite
    rw [hbits] at hmap
    exact ⟨exec_copyComplete hjob hstarted hscv hsigv hdcv hwritten hplaces hbits hstall,
      (hfails 0 j.len ((hwrite.trans hmap).sameTasks.trans (State.stored_deliver _ _ _ _ _).sameTasks)).2⟩
  · have hown : ((s.copyTrial w ch j).1.fault.map (fun f => f.code)) ≠ some code := hcode
    rw [exec_copyFailure hjob]
    refine congrArg Host.Outcome.next (if_pos ?_)
    simpa [hown, imp_iff_not_or] using hpeer
  · obtain ⟨t, n, hexec, htasks, hn⟩ := exec_copyFailure_due hjob code written (.inl (by rw [hfault]; exact congrArg some hcode))
    obtain rfl := hn (by rw [hfault]; exact congrArg some hcode)
    exact ⟨_, hexec, hfails code _ htasks⟩
  · obtain ⟨t, n, hexec, htasks, -⟩ := exec_copyFailure_due hjob 0x10 written (.inr ⟨rfl, hpeer⟩)
    obtain ⟨hgone, hrecord⟩ := hfails 0x10 n htasks
    exact ⟨_, n, hexec, hgone, hrecord⟩

/-- Settles O39: a copy's steps by the branch each takes; what they leave of its course decides its completion record. -/
theorem copyRuns : Obligations.CopyRuns := ⟨copySteps, completionRecords⟩

end Sys2Proof.CopyRuns
end

section
/-! SUPPORT. The matrix engine's steps (R118, R268, R276, R342, R353, R367). -/

open Sys2Proof Sys2Proof.Machine

namespace Sys2Proof.Machine

/-! What is done to agents and launches alone. -/

/-- The state but for its agents and launches. -/
def State.AgentsOnly (s t : State) : Prop := ∃ c ps ls, t = { s with cur := c, parked := ps, launches := ls }

theorem State.AgentsOnly.refl (s : State) : s.AgentsOnly s := ⟨_, _, _, rfl⟩

theorem State.AgentsOnly.trans {s t u : State} (h : s.AgentsOnly t) (h' : t.AgentsOnly u) : s.AgentsOnly u := by
  obtain ⟨c, ps, ls, rfl⟩ := h
  obtain ⟨c', ps', ls', rfl⟩ := h'
  exact ⟨c', ps', ls', rfl⟩

theorem State.AgentsOnly.planes {s t : State} (h : s.AgentsOnly t) : t.planes = s.planes := by obtain ⟨_, _, _, rfl⟩ := h; rfl
theorem State.AgentsOnly.mem {s t : State} (h : s.AgentsOnly t) : t.mem = s.mem := by obtain ⟨_, _, _, rfl⟩ := h; rfl
theorem State.AgentsOnly.dregs {s t : State} (h : s.AgentsOnly t) : t.dregs = s.dregs := by obtain ⟨_, _, _, rfl⟩ := h; rfl

theorem State.agentsOnly_modWhere (s : State) (q : Course → Bool) (f : Course → Course) : s.AgentsOnly (s.modWhere q f) := ⟨_, _, _, rfl⟩

theorem State.agentsOnly_modLaunch (s : State) (n : Nat) (f : Launch → Launch) : s.AgentsOnly (s.modLaunch n f) := ⟨_, _, _, rfl⟩

theorem State.agentsOnly_endMember (s : State) (m : EngMember) : s.AgentsOnly (s.endMember m) := s.agentsOnly_modWhere _ _

theorem State.agentsOnly_foldl {α : Type} (f : State → α → State) (hf : ∀ (s : State) (a : α), s.AgentsOnly (f s a)) (l : List α) (s : State) :
    s.AgentsOnly (l.foldl f s) :=
  List.foldlRecOn (motive := fun t => s.AgentsOnly t) _ _ (.refl s) fun t ht a _ => ht.trans (hf t a)

/-! What an agent does by itself, and the focus comes back (R268). -/

/-- What no act of an agent changes, and no move of the focus, stands after an act within an agent. -/
theorem State.within_keeps {α : Type} (g : State → α) (hfocus : ∀ s c ps, g { s with cur := c, parked := ps } = g s) {f : State → State}
    (hf : ∀ t, g (f t) = g t) (s : State) (who : DWord) : g (s.within who f) = g s := by
  have hmove {t u : State} {w : DWord} (h : t.focus w = some u) : g u = g t := by
    obtain ⟨c, ps, rfl⟩ := State.focus_eq h
    exact hfocus t c ps
  unfold State.within
  split
  · rfl
  · next s1 h =>
    dsimp only
    cases hback : (f s1).focus s.cur.ident with
    | none => exact (hf s1).trans (hmove h)
    | some u => exact ((hmove hback).trans (hf s1)).trans (hmove h)

theorem State.mem_planes_note (s : State) (c : Course) (reason : Nat) (pc : DWord) :
    ((s.note c reason pc).mem, (s.note c reason pc).planes) = (s.mem, s.planes) := by
  obtain ⟨o, h⟩ := s.note_eq c reason pc
  rw [h]

theorem State.mem_planes_account (s : State) (st : Stream) (p : Plan) : ((s.account st p).mem, (s.account st p).planes) = (s.mem, s.planes) := by
  unfold State.account
  cases st <;> simp only [State.modLaunch_mem, State.modLaunch_planes, State.countEvent_mem, State.countEvent_planes]

theorem State.mem_planes_stepped (s : State) (st : Stream) : ((s.stepped st).mem, (s.stepped st).planes) = (s.mem, s.planes) := by
  unfold State.stepped
  dsimp only
  split
  · rfl
  · split <;> rfl

theorem State.mem_planes_accountHeld (s : State) (who : DWord) : ((s.accountHeld who).mem, (s.accountHeld who).planes) = (s.mem, s.planes) :=
  State.within_keeps (fun t => (t.mem, t.planes)) (fun _ _ _ => rfl)
    (f := fun s => { ({ s with word := 0 } : State).account (s.cur.streamOf true) { lat := none } with word := s.word })
    (fun t => ({ t with word := 0 } : State).mem_planes_account (t.cur.streamOf true) { lat := none }) s who

/-! The engine's queue (R276). -/

section
variable (s : State) (w p : Nat)

theorem State.plane_setHead (o : Option EngOp) :
    (s.setHead w p o).plane w p = { s.plane w p with engine := o.toList ++ (s.plane w p).engine.tail } := State.plane_setPlane_self _ _ _ _

theorem State.plane_enqueue (o : EngOp) : (s.enqueue w p o).plane w p = { s.plane w p with engine := (s.plane w p).engine ++ [o] } :=
  State.plane_setPlane_self _ _ _ _

theorem State.plane_modChute (ch : Nat) (f : Chute → Chute) :
    (s.modChute w p ch f).plane w p = (s.plane w p).setChute ch (f ((s.plane w p).chute ch)) := State.plane_setPlane_self _ _ _ _

/-- Members' chutes change, and the queue stands. -/
theorem State.foldl_modChute_engine (f : EngMember → Chute → Chute) (ms : List EngMember) :
    ((ms.foldl (fun s m => s.modChute w p m.c (f m)) s).plane w p).engine = (s.plane w p).engine ∧
      (ms.foldl (fun s m => s.modChute w p m.c (f m)) s).mem = s.mem := by
  refine List.foldlRecOn (motive := fun t : State => (t.plane w p).engine = (s.plane w p).engine ∧ t.mem = s.mem) _ _ ⟨rfl, rfl⟩ fun t ht m _ => ?_
  rw [State.plane_modChute]
  exact ht

end

theorem Plane.seatMembers_ident (pl : Plane) (kt : Nat) (done ms : List EngMember) :
    (pl.seatMembers kt done ms).map (fun m => m.ident) = (done ++ ms).map (fun m => m.ident) := by
  induction ms generalizing done with
  | nil => simp [Plane.seatMembers]
  | cons m ms ih =>
    unfold Plane.seatMembers
    dsimp only
    rw [ih]
    simp

/-- An operation that may fire stands at the head of its plane's queue, with its entries published and room for its rows (R118). -/
theorem State.fireable_spec {s : State} {w p : Nat} {o : EngOp} (h : s.fireable w = some (p, o)) :
    (s.plane w p).opReady o = true ∧ (s.plane w p).engine.head? = some o := by
  unfold State.fireable at h
  split at h
  · cases h
  · split at h
    · cases h
    · split at h
      · cases h
      · next q _ o' r hq =>
        split at h
        · next hready =>
          obtain ⟨rfl, rfl⟩ := Prod.mk.inj (Option.some.inj h)
          exact ⟨(Bool.and_eq_true_iff.1 hready).1, by rw [hq]; rfl⟩
        · cases h

/-! A gang of a plane (R266, R268). -/

/-- A gang that has been put back is found as it is now, or is gone with its last member. -/
theorem Plane.gang_setGang {pl : Plane} {g g' : Gang} {lid : Word} {gid : Nat} (hkey : g.lid = lid ∧ g.gid = gid)
    (h : (pl.setGang g).gang lid gid = some g') : g' = g := by
  obtain ⟨rfl, rfl⟩ := hkey
  have hnone : (pl.gangs.filter (fun o => !(o.lid == g.lid && o.gid == g.gid))).find? (fun o => o.lid == g.lid && o.gid == g.gid) = none :=
    List.find?_eq_none.2 fun o ho => by simpa [imp_iff_not_or] using (List.mem_filter.1 ho).2
  unfold Plane.gang Plane.setGang at h
  dsimp only at h
  split at h
  · exact absurd (hnone.symm.trans h) (by simp)
  · rw [List.find?_append, hnone] at h
    simpa using h.symm

theorem Plane.gang_key {pl : Plane} {g : Gang} {lid : Word} {gid : Nat} (h : pl.gang lid gid = some g) : g.lid = lid ∧ g.gid = gid := by
  simpa using List.find?_some h

/-! Firing tries every access (R118, R367). -/

theorem State.tried_fireMember (s : State) (w p kt : Nat) (fa : Word) (m : EngMember) : s.Tried (s.fireMember w p kt fa m).2.2.2.2 := by
  unfold State.fireMember
  dsimp only
  generalize (s.syncPubs m.ident _ _) = y
  have hreads := State.tried_range (s.memberMaker w p m.ident y true) { acc := { rd := true } }
    ((s.plane w p).tilePieces m m.aIdx (tileBytes (Slot.of fa 0)) kt).flatten s
  generalize s.range (s.memberMaker w p m.ident y true) _ _ = x at hreads
  obtain ⟨f, ps, t⟩ := x
  dsimp only at hreads ⊢
  cases f with
  | some f => exact hreads
  | none =>
    dsimp only
    have hwrites := State.tried_range (s.memberMaker w p m.ident y false) { acc := { wr := true } }
      ((s.plane w p).rowPieces m m.cIdx).flatten t
    generalize t.range (s.memberMaker w p m.ident y false) _ _ = x at hwrites
    refine (hreads.trans hwrites).trans ?_
    split
    · exact State.tried_poisonUsed _ _ _ _
    · exact .refl _

theorem State.tried_fireAll (w p kt : Nat) (fa : Word) (ms : List EngMember) (s : State) : s.Tried (s.fireAll w p kt fa ms).2.2.2 := by
  induction ms generalizing s with
  | nil => exact .refl s
  | cons m ms ih =>
    have hfirst := s.tried_fireMember w p kt fa m
    unfold State.fireAll
    split
    · next he => rw [he] at hfirst; exact hfirst
    · next he => rw [he] at hfirst; exact hfirst.trans (ih _)

end Sys2Proof.Machine

namespace Sys2Proof.EngineAndWeights

section
variable {s : State} {w p : Nat} {lid : Word} {gid : Nat}

/-- The courses of a gang that have arrived at its latch, in rank order. -/
def arrivals (s : State) (w p : Nat) (lid : Word) (gid : Nat) (g : Gang) : List (Course × EngMember) :=
  (s.heldAt w p lid gid).filter (fun e => g.arrived.testBit e.1.rank)

/-- The members of a gang's operation, with the numbers that its issue gives their work. -/
def issuedMembers (s : State) (hs : List (Course × EngMember)) : List EngMember :=
  hs.zipIdx.map (fun e => { e.1.2 with workId := s.nextId + e.2 })

/-- A gang's operation (R268). -/
def gangOp (s : State) (i : Instr) (lead : Course) (hs : List (Course × EngMember)) : EngOp :=
  { members := issuedMembers s hs, kt := (matrixFields i).1, fa := lead.slotWord (matrixFields i).2.1 0, fb := lead.slotWord (matrixFields i).2.2 0,
    fired := false, rows := [] }

/-- The operation takes its place, and the gang's latch is empty. -/
def gangQueued (s : State) (w p : Nat) (g : Gang) (o : EngOp) : State :=
  let s1 := s.enqueue w p o
  s1.setPlane w p ((s1.plane w p).setGang { g with arrived := 0, first := none })

/-- The issue of a gang's operation in all members at once (R268). -/
def gangIssued (s : State) (w p : Nat) (g : Gang) (o : EngOp) : State :=
  let s1 := o.members.foldl (fun s m =>
    s.modWhere (fun c => c.ident == m.ident) (fun c => c.issueHeld m m.workId (s.cycleOf (dieOf w)))) (gangQueued s w p g o)
  let s1 := o.members.foldl (fun s m => s.accountHeld m.ident) { s1 with nextId := s.nextId + o.members.length }
  o.members.foldl (fun (s : State) (m : EngMember) => s.within m.ident (fun s => s.stepped (s.cur.streamOf true))) s1

theorem gangIssued_spec (s : State) (w p : Nat) (g : Gang) (o : EngOp) : (gangIssued s w p g o).mem = s.mem ∧
    (gangIssued s w p g o).plane w p =
      (({ s.plane w p with engine := (s.plane w p).engine ++ [o] } : Plane).setGang { g with arrived := 0, first := none }) := by
  have hsteps (t : State) : (o.members.foldl (fun (s : State) (m : EngMember) => s.within m.ident (fun s => s.stepped (s.cur.streamOf true))) t).mem = t.mem ∧
      (o.members.foldl (fun (s : State) (m : EngMember) => s.within m.ident (fun s => s.stepped (s.cur.streamOf true))) t).planes = t.planes := by
    refine List.foldlRecOn (motive := fun u : State => u.mem = t.mem ∧ u.planes = t.planes) _ _ ⟨rfl, rfl⟩ fun u hu m _ => ?_
    obtain ⟨hm, hp⟩ := Prod.mk.inj (State.within_keeps (fun t => (t.mem, t.planes)) (fun _ _ _ => rfl) (f := fun s => s.stepped (s.cur.streamOf true))
      (fun t => t.mem_planes_stepped _) u m.ident)
    exact ⟨hm.trans hu.1, hp.trans hu.2⟩
  have haccounts (t : State) : (o.members.foldl (fun (s : State) (m : EngMember) => s.accountHeld m.ident) t).mem = t.mem ∧
      (o.members.foldl (fun (s : State) (m : EngMember) => s.accountHeld m.ident) t).planes = t.planes := by
    refine List.foldlRecOn (motive := fun u : State => u.mem = t.mem ∧ u.planes = t.planes) _ _ ⟨rfl, rfl⟩ fun u hu m _ => ?_
    obtain ⟨hm, hp⟩ := Prod.mk.inj (u.mem_planes_accountHeld m.ident)
    exact ⟨hm.trans hu.1, hp.trans hu.2⟩
  have hissues (t : State) := State.agentsOnly_foldl (fun (s : State) (m : EngMember) =>
    s.modWhere (fun c => c.ident == m.ident) (fun c => c.issueHeld m m.workId (s.cycleOf (dieOf w)))) (fun s m => s.agentsOnly_modWhere _ _) o.members t
  have hmem : (gangIssued s w p g o).mem = (gangQueued s w p g o).mem := (hsteps _).1.trans ((haccounts _).1.trans (hissues _).mem)
  have hplanes : (gangIssued s w p g o).planes = (gangQueued s w p g o).planes := (hsteps _).2.trans ((haccounts _).2.trans (hissues _).planes)
  refine ⟨hmem, (State.plane_congr hplanes w p).trans ((State.plane_setPlane_self _ _ _ _).trans ?_)⟩
  rw [State.plane_enqueue]

theorem exec_gangIssue {g : Gang} {i : Instr} {n : Nat} {lead : Course × EngMember} {hs : List (Course × EngMember)}
    (hg : (s.plane w p).gang lid gid = some g) (hfirst : g.first = some (i, n)) (hhs : arrivals s w p lid gid g = lead :: hs)
    (hsize : g.size ≤ (lead :: hs).length) (hactive : (s.plane w p).st = .active) (hservice : (s.wall w).service = .inService)
    (hall : ∀ e ∈ lead :: hs, e.1.trap = none ∧ e.1.halted = false ∧ s.redefining w p e.2.a = false ∧ s.redefining w p e.2.c = false ∧
      e.1.flagFull e.2.sig = false ∧ s.breaksAt e.1 (e.1.streamOf true) = false ∧
      (s.plane w p).chutesBad e.2 (matrixFields i).1 (Slot.of (lead.1.slotWord (matrixFields i).2.1 0) 0) = false)
    (hroom : (s.plane w p).engine.length < 16) :
    exec (.gangIssue w p lid gid) s = .next (gangIssued s w p g (gangOp s i lead.1 (lead :: hs))) := by
  obtain ⟨c, m⟩ := lead
  refine congrArg Host.Outcome.next ?_
  dsimp only
  rw [hg]
  dsimp only
  change arrivals s w p lid gid g = _ at hhs
  unfold arrivals at hhs
  rw [hhs, hfirst]
  dsimp only
  have hgo : ((c, m) :: hs).any (fun e => e.1.trap.isSome || (e.1.halted && !s.isStepped e.1.ident (e.1.streamOf true)) ||
      s.redefining w p e.2.a || s.redefining w p e.2.c) = false := by
    refine List.any_eq_false.2 fun e he => ?_
    obtain ⟨h1, h2, h3, h4, -⟩ := hall e he
    simp [h1, h2, h3, h4]
  have hbreaks : ((c, m) :: hs).find? (fun e => s.breaksAt e.1 (e.1.streamOf true)) = none :=
    List.find?_eq_none.2 fun e he => by
      obtain ⟨-, -, -, -, -, h, -⟩ := hall e he
      simp [h]
  have hchutes : ((c, m) :: hs).find? (fun e => (s.plane w p).chutesBad e.2 (matrixFields i).1 (Slot.of (c.slotWord (matrixFields i).2.1 0) 0)) = none :=
    List.find?_eq_none.2 fun e he => by
      obtain ⟨-, -, -, -, -, -, h⟩ := hall e he
      simpa using h
  have hflags : ((c, m) :: hs).any (fun e => e.1.flagFull e.2.sig) = false :=
    List.any_eq_false.2 fun e he => by
      obtain ⟨-, -, -, -, h, -⟩ := hall e he
      simp [h]
  rw [if_neg (by rw [hgo, hactive, hservice]; simpa using hsize), hbreaks, hchutes]
  dsimp only
  rw [if_neg (by rw [hflags]; simpa using hroom)]
  rfl

/-- A member at a comparator halts, and no operation enters the queue (R343). -/
theorem gangIssue_breaks {e : Course × EngMember} (he : e ∈ s.heldAt w p lid gid) (hbreak : s.breaksAt e.1 (e.1.streamOf true) = true)
    (harrived : ∀ g, (s.plane w p).gang lid gid = some g → g.arrived.testBit e.1.rank = true) :
    ∃ t, exec (.gangIssue w p lid gid) s = .next t ∧ (t.plane w p).engine = (s.plane w p).engine := by
  refine ⟨_, rfl, ?_⟩
  dsimp only
  cases hg : (s.plane w p).gang lid gid with
  | none => rfl
  | some g =>
    have hmem : e ∈ (s.heldAt w p lid gid).filter (fun e => g.arrived.testBit e.1.rank) := List.mem_filter.2 ⟨he, harrived g hg⟩
    dsimp only
    generalize (s.heldAt w p lid gid).filter (fun e => g.arrived.testBit e.1.rank) = hs at hmem
    split
    · split
      · rfl
      · split
        · next e' _ =>
          exact congrArg Plane.engine (State.within_keeps (fun t => t.plane w p) (fun _ _ _ => rfl) (f := fun s => s.haltHere (s.cur.streamOf true))
            (fun t => State.plane_congr (Prod.mk.inj ((t.modC (fun c => { c with halted := true })).mem_planes_note t.cur 1 (t.cur.pc (t.cur.streamOf true)))).2 w p)
            s e'.1.ident)
        · next hnone => exact absurd hbreak (by simpa using List.find?_eq_none.1 hnone e hmem)
    · rfl

/-- The operation does not issue while a member is missing or may not issue. -/
theorem gangIssue_waits {g : Gang} (hg : (s.plane w p).gang lid gid = some g)
    (h : (arrivals s w p lid gid g).length < g.size ∨ ∃ e ∈ arrivals s w p lid gid g, e.1.trap.isSome = true) :
    exec (.gangIssue w p lid gid) s = .next s := by
  refine congrArg Host.Outcome.next ?_
  dsimp only
  rw [hg]
  dsimp only
  unfold arrivals at h
  generalize (s.heldAt w p lid gid).filter (fun e => g.arrived.testBit e.1.rank) = hs at h
  split
  · refine if_pos ?_
    rcases h with h | ⟨e, he, htrap⟩
    · simp only [decide_eq_true h, Bool.true_or]
    · exact Bool.or_eq_true_iff.2 (.inr (List.any_eq_true.2 ⟨e, he, by simp [htrap]⟩))
  · rfl

end

end Sys2Proof.EngineAndWeights
end

section
/-! SUPPORT. The matrix engine's operations from their firing on (R118, R276, R367). -/

open Sys2Proof Sys2Proof.Machine

namespace Sys2Proof.EngineAndWeights

section
variable {s : State} {w p : Nat} {o : EngOp} {r : List EngOp}

/-! Firing. -/

/-- What firing leaves of an operation. -/
def firedOp (pl : Plane) (o : EngOp) (ms : List EngMember) (xs : List (Sync × List (List Byte))) : EngOp :=
  { o with members := ms, fired := true, rows := List.zipWith (fun (m : EngMember) (x : Sync × List (List Byte)) =>
      pl.product o.kt (Slot.of o.fa 0) (Slot.of o.fb 0) m.steps x.2) ms xs }

theorem engineFire_spec {xs : List (Sync × List (List Byte))} {s1 : State} (hfire : s.fireable w = some (p, o))
    (hall : s.fireAll w p o.kt o.fa ((s.plane w p).seatMembers o.kt [] o.members) = (none, xs, false, s1)) (hplanes : s1.planes = s.planes) :
    let o' := firedOp (s.plane w p) o ((s.plane w p).seatMembers o.kt [] o.members) xs
    ∃ t, exec (.engineFire w) s = .next t ∧ t.mem = s1.mem ∧ (t.plane w p).engine = o' :: (s.plane w p).engine.tail := by
  intro o'
  have hexec : exec (.engineFire w) s = .next (
      ((s.plane w p).seatMembers o.kt [] o.members).foldl (fun s m => s.modChute w p m.c (fun q => { q with resv := q.resv + m.out }))
        ((List.zip ((s.plane w p).seatMembers o.kt [] o.members) xs).foldl (fun s e =>
          s.modWhere (fun c => c.ident == e.1.ident) (fun c => { c with sync := e.2.1 })) (s1.setHead w p (some o')))) := by
    change execEngineFire w s = _
    unfold execEngineFire
    rw [hfire]
    dsimp only
    rw [hall]
    rfl
  have hsyncs := State.agentsOnly_foldl (fun (s : State) (e : EngMember × Sync × List (List Byte)) =>
    s.modWhere (fun c => c.ident == e.1.ident) (fun c => { c with sync := e.2.1 })) (fun s e => s.agentsOnly_modWhere _ _)
    (List.zip ((s.plane w p).seatMembers o.kt [] o.members) xs) (s1.setHead w p (some o'))
  generalize (List.zip ((s.plane w p).seatMembers o.kt [] o.members) xs).foldl _ _ = u at hexec hsyncs
  obtain ⟨hengine, hmem⟩ := State.foldl_modChute_engine u w p (fun m q => { q with resv := q.resv + m.out })
    ((s.plane w p).seatMembers o.kt [] o.members)
  refine ⟨_, hexec, hmem.trans hsyncs.mem, hengine.trans ?_⟩
  rw [State.plane_congr hsyncs.planes, State.plane_setHead, State.plane_congr hplanes]
  rfl

/-! Entries. -/

theorem engineEntryConsumed_spec {j : Nat} {m : EngMember} (hrun : s.runningPlane w = some p) (hq : (s.plane w p).engine = o :: r) (hfired : o.fired = true)
    (hm : o.members[j]? = some m) (hleft : m.eaten < m.need o.kt) (hturn : ∀ x ∈ o.members.take j, x.a = m.a → x.need o.kt ≤ x.eaten) :
    ∃ t, exec (.engineEntryConsumed w j) s = .next t ∧ t.mem = s.mem ∧
      (t.plane w p).engine = { o with members := o.members.set j { m with eaten := m.eaten + 1 } } :: r ∧
      ((t.plane w p).chute m.a).cons = (((s.plane w p).chute m.a).cons + 1) % (2 * ((s.plane w p).chute m.a).cap) := by
  have hexec : exec (.engineEntryConsumed w j) s = .next ((s.setHead w p (some { o with members := o.members.set j { m with eaten := m.eaten + 1 } })).modChute w p m.a
      (fun q => { q with cons := q.step q.cons 1 })) := by
    change execEngineEntryConsumed w j s = _
    unfold execEngineEntryConsumed
    rw [hrun]
    dsimp only
    rw [hq]
    dsimp only
    rw [hm]
    refine congrArg Host.Outcome.next (if_neg ?_)
    have hnone : (o.members.take j).any (fun x => x.a == m.a && decide (x.eaten < x.need o.kt)) = false :=
      List.any_eq_false.2 fun x hx => by simpa using hturn x hx
    rw [hnone, hfired]
    simpa using hleft
  refine ⟨_, hexec, rfl, ?_, ?_⟩
  · rw [State.plane_modChute, State.plane_setHead, hq]
    rfl
  · rw [State.plane_modChute, State.plane_setHead, Plane.chute_setChute, if_pos rfl]
    rfl

/-! Completion. -/

theorem exec_engineOperationComplete (hrun : s.runningPlane w = some p) (hq : (s.plane w p).engine = o :: r) (hfired : o.fired = true) :
    exec (.engineOperationComplete w) s = .next (
      if o.members.any (fun m => decide (m.eaten < m.need o.kt)) then s
      else match s.landAll w p o.members with
        | (some _, _, _) => s
        | (none, xs, s1) =>
          if s.anyStall w xs.flatten then s
          else o.members.foldl State.endMember (((List.zip o.members (List.zip xs o.rows)).foldl (fun s e => s.putRows w p e.1 e.2.1 e.2.2) s1).setHead w p none)) := by
  change execEngineOperationComplete w s = _
  unfold execEngineOperationComplete
  rw [hrun]
  dsimp only
  rw [hq]
  dsimp only
  rw [hfired, Bool.not_true, Bool.false_or] <;> rfl

/-- A publication moves its chute alone, and no agent. -/
theorem publish_frame (s : State) (w p ch n : Nat) (carry : Carry) : (s.publish w p ch n carry).cur = s.cur ∧
    ((s.publish w p ch n carry).plane w p).engine = (s.plane w p).engine := by
  unfold State.publish
  dsimp only
  obtain ⟨r, hr⟩ := State.foldl_layRels_eq [carry] 1 false (chuteKeys w p ch ((s.plane w p).chute ch) ((s.plane w p).chute ch).prod n) s
  rw [hr, State.plane_modChute]
  exact ⟨rfl, rfl⟩

/-- Rows written and published change no queue, and of the focused course what it knows of others. -/
theorem putRows_frame (s : State) (w p : Nat) (m : EngMember) (ps : List Place) (rows : List (List Word)) :
    ((s.putRows w p m ps rows).plane w p).engine = (s.plane w p).engine ∧ ∃ y, (s.putRows w p m ps rows).cur = { s.cur with sync := y } := by
  unfold State.putRows
  dsimp only
  have hput := s.stored_putRange (((s.agents.find? (fun c => c.ident == m.ident)).map (fun c => c.launch)).getD s.launches.length) w {}
    (cutBytes ps (rows.flatten.flatMap (fun x => bytesLE 4 x.toNat)))
  generalize s.putRange _ _ _ _ = t at hput
  generalize (t.memberOf m.ident).1.release m.ident 3 = r
  obtain ⟨hcur, hengine⟩ := publish_frame (t.modWhere (fun c => c.ident == m.ident) (fun c => { c with sync := r.2 })) w p m.c m.out r.1
  rw [State.plane_modChute]
  refine ⟨hengine.trans (congrArg Plane.engine (State.plane_congr hput.planes w p)), if s.cur.ident == m.ident then r.2 else s.cur.sync, hcur.trans ?_⟩
  change (if t.cur.ident == m.ident then { t.cur with sync := r.2 } else t.cur) = _
  rw [hput.cur]
  split <;> rfl

theorem foldl_putRows_frame (w p : Nat) (es : List (EngMember × List Place × List (List Word))) (s : State) :
    ((es.foldl (fun s e => s.putRows w p e.1 e.2.1 e.2.2) s).plane w p).engine = (s.plane w p).engine ∧
      ∃ y, (es.foldl (fun s e => s.putRows w p e.1 e.2.1 e.2.2) s).cur = { s.cur with sync := y } := by
  refine List.foldlRecOn (motive := fun t : State => (t.plane w p).engine = (s.plane w p).engine ∧ ∃ y, t.cur = { s.cur with sync := y }) _ _
    ⟨rfl, s.cur.sync, rfl⟩ fun t ⟨hengine, y, hcur⟩ e _ => ?_
  obtain ⟨hengine', z, hcur'⟩ := putRows_frame t w p e.1 e.2.1 e.2.2
  exact ⟨hengine'.trans hengine, z, by rw [hcur', hcur]⟩

/-- The end of the only member's work lowers its flag. -/
theorem endMember_flag {s : State} {m : EngMember} {f : Nat} {y : Work} (hident : s.cur.ident = m.ident) (hwork : s.cur.workOf m.workId = some y)
    (hsig : y.sig = some f) : (s.endMember m).cur = s.cur.finish y ∧ (s.endMember m).cur.flag f = s.cur.flag f - 1 ∧
      (s.endMember m).cur.workOf m.workId = none := by
  have hcur : (s.endMember m).cur = s.cur.finish y := by
    refine (if_pos (by simpa using hident)).trans ?_
    rw [hwork]
  rw [hcur]
  exact ⟨rfl, Course.flag_finish hsig, Course.workOf_finish_of_workOf hwork⟩

theorem engineOperationComplete_spec {xs : List (List Place)} {s1 : State} (hrun : s.runningPlane w = some p) (hq : (s.plane w p).engine = o :: r)
    (hfired : o.fired = true) (hread : ∀ m ∈ o.members, m.need o.kt ≤ m.eaten) (hland : s.landAll w p o.members = (none, xs, s1))
    (hstall : s.anyStall w xs.flatten = false) (hplanes : s1.planes = s.planes) (hcur : s1.cur = s.cur) :
    ∃ t, exec (.engineOperationComplete w) s = .next t ∧ (t.plane w p).engine = r ∧
      ∀ m f, o.members = [m] → m.sig = some f → s.cur.ident = m.ident →
        (∃ y, s.cur.workOf m.workId = some y ∧ y.sig = some f ∧ y.writes = []) → t.cur.flag f = s.cur.flag f - 1 := by
  have hall : o.members.any (fun m => decide (m.eaten < m.need o.kt)) = false := List.any_eq_false.2 fun m hm => by simpa using hread m hm
  obtain ⟨hengine, y, hputs⟩ := foldl_putRows_frame w p (List.zip o.members (List.zip xs o.rows)) s1
  have hexec := exec_engineOperationComplete hrun hq hfired
  rw [hall, if_neg Bool.false_ne_true, hland] at hexec
  dsimp only at hexec
  rw [hstall, if_neg Bool.false_ne_true] at hexec
  generalize (List.zip o.members (List.zip xs o.rows)).foldl _ _ = u at hengine hputs hexec
  refine ⟨_, hexec, ?_, fun m f hmembers _ hident ⟨k, hk, hksig, _⟩ => ?_⟩
  · rw [State.plane_congr (State.agentsOnly_foldl State.endMember State.agentsOnly_endMember o.members (u.setHead w p none)).planes,
      State.plane_setHead]
    change (u.plane w p).engine.tail = r
    rw [hengine, State.plane_congr hplanes, hq]
    rfl
  · rw [hmembers, List.foldl_cons, List.foldl_nil]
    have hucur : (u.setHead w p none).cur = { s.cur with sync := y } := hputs.trans (by rw [hcur])
    obtain ⟨-, hflag, -⟩ := endMember_flag (s := u.setHead w p none) (m := m) (y := k) (f := f) (by rw [hucur]; exact hident) (by rw [hucur]; exact hk) hksig
    rw [hflag, hucur]
    rfl

/-! Cancellation (R367). -/

/-- One member of a cancelled operation: its flag is noted for the trap 0x43, or its launch reports 0x43. -/
def cancelMember (s : State) (m : EngMember) : State :=
  match m.sig, s.agents.find? (fun c => c.ident == m.ident) with
  | some fl, _ => s.modWhere (fun c => c.ident == m.ident) (fun c => { c with cancelled := c.cancelled ++ [fl] })
  | none, some c => s.modLaunch c.launch (fun l => if l.status = 0 then { l with status := 0x43 } else l)
  | none, none => s

theorem cancelOp_eq (s : State) (w p : Nat) (o : EngOp) (f : RangeFault) (who : DWord) : s.cancelOp w p o f who =
    o.members.foldl State.endMember (o.members.foldl cancelMember ((s.memEvent 6 (f.pa / 32 * 32) (dieOf w) who 0 0 0 0).setHead w p none)) := rfl

theorem agentsOnly_cancelMember (s : State) (m : EngMember) : s.AgentsOnly (cancelMember s m) := by
  unfold cancelMember
  split
  · exact s.agentsOnly_modWhere _ _
  · exact s.agentsOnly_modLaunch _ _
  · exact .refl s

/-- What a cancellation leaves beside agents and launches: a record of kind 6, and the queue without its head. -/
theorem cancelOp_frame (s : State) (w p : Nat) (o : EngOp) (f : RangeFault) (who : DWord) :
    ((s.memEvent 6 (f.pa / 32 * 32) (dieOf w) who 0 0 0 0).setHead w p none).AgentsOnly (s.cancelOp w p o f who) := by
  rw [cancelOp_eq]
  exact (State.agentsOnly_foldl _ agentsOnly_cancelMember _ _).trans (State.agentsOnly_foldl _ State.agentsOnly_endMember _ _)

theorem exec_engineOperationCancel {x : RangeFault × DWord} {xs : List (Sync × List (List Byte))} {st : Bool} {s1 : State}
    (hfire : s.fireable w = some (p, o)) (hall : s.fireAll w p o.kt o.fa ((s.plane w p).seatMembers o.kt [] o.members) = (some x, xs, st, s1)) :
    exec (.engineFire w) s = .next s ∧ exec (.engineOperationCancel w) s = .next ({ s1 with tags := s.tags }.cancelOp w p o x.1 x.2) := by
  constructor
  · change execEngineFire w s = _
    unfold execEngineFire
    rw [hfire]
    dsimp only
    rw [hall]
  · change execEngineOperationCancel w s = _
    unfold execEngineOperationCancel
    rw [hfire]
    dsimp only
    rw [hall]

/-- The kind stands at byte 48 of a memory event's record (R364). -/
theorem getElem_eventBytes_kind (s : State) (kind pa die : Nat) (who other otherRc rc sub : DWord) :
    (s.eventBytes kind pa die who other otherRc rc sub)[48]'(by simp [State.eventBytes_length]) = BitVec.ofNat 8 kind := by
  simp [State.eventBytes, bytesLE]

/-- The record of a cancellation stands at the ring's head, where the ring has room. -/
theorem memEvent_room (s : State) (pa die : Nat) (who : DWord) (hsize : (s.dreg 0x892).toNat ≠ 0)
    (hroom : (s.dreg 0x893 - s.dreg 0x894).toNat ≠ (s.dreg 0x892).toNat) :
    (s.memEvent 6 pa die who 0 0 0 0).dreg 0x893 = s.dreg 0x893 + 1 ∧
      (s.memEvent 6 pa die who 0 0 0 0).byte (s.dreg64 0x890 + 64 * ((s.dreg 0x893).toNat % (s.dreg 0x892).toNat) + 48) = 6#8 := by
  rw [State.memEvent_eq_ringTakes]
  obtain ⟨mo, hmo⟩ := s.lifeCounted_eq 6 pa
  rw [hmo]
  have hlen := State.eventBytes_length { s with monitor := mo } 6 pa die who 0 0 0 0
  obtain ⟨hhead, -, hbytes⟩ := State.ringTakes_room (s := { s with monitor := mo }) who
    (State.eventBytes { s with monitor := mo } 6 pa die who 0 0 0 0) hsize hroom
  refine ⟨hhead, (hbytes _).trans ((State.byte_store _ _ _ _).trans ((dif_pos ?_).trans ?_))⟩
  · exact ⟨Nat.le_add_right _ _, by rw [hlen]; exact (Nat.add_sub_cancel_left (s.dreg64 0x890 + 64 * ((s.dreg 0x893).toNat % (s.dreg 0x892).toNat)) 48).trans_lt (by decide)⟩
  · rw [← getElem_eventBytes_kind { s with monitor := mo } 6 pa die who 0 0 0 0]
    congr 1
    exact Nat.add_sub_cancel_left _ _

/-- The state in which a cancellation's record has been written, before the operation leaves the queue. -/
def cancelNoted (s s1 : State) (w : Nat) (x : RangeFault × DWord) : State :=
  { s1 with tags := s.tags }.memEvent 6 (x.1.pa / 32 * 32) (dieOf w) x.2 0 0 0 0

theorem cancelNoted_tried {s1 : State} (h : s.Tried s1) (x : RangeFault × DWord) : s.Tried (cancelNoted s s1 w x) :=
  (h.trans (u := { s1 with tags := s.tags }) ⟨⟨.refl _, rfl, rfl, rfl, rfl, rfl, rfl⟩, .of_eq rfl rfl⟩).trans
    ⟨State.fetched_memEvent _ _ _ _ _ _ _ _ _, State.ringOnly_memEvent _ _ _ _ _ _ _ _ _⟩

/-- A cancelled operation's only member with a flag: it falls, is noted, and the work is gone. -/
theorem cancelOp_flag {x : RangeFault × DWord} {s1 : State} (h : s.Tried s1) {m : EngMember} {f : Nat} {y : Work} (hmembers : o.members = [m])
    (hsig : m.sig = some f) (hident : s.cur.ident = m.ident) (hwork : s.cur.workOf m.workId = some y) (hy : y.sig = some f) :
    let t := { s1 with tags := s.tags }.cancelOp w p o x.1 x.2
    f ∈ t.cur.cancelled ∧ t.cur.flag f = s.cur.flag f - 1 ∧ t.cur.workOf m.workId = none := by
  intro t
  have hcur := (cancelNoted_tried (w := w) h x).1.cur
  have ht : t = (cancelMember ((cancelNoted s s1 w x).setHead w p none) m).endMember m := by
    change { s1 with tags := s.tags }.cancelOp w p o x.1 x.2 = _
    rw [cancelOp_eq, hmembers]
    rfl
  have hnoted : (cancelMember ((cancelNoted s s1 w x).setHead w p none) m).cur =
      { (cancelNoted s s1 w x).cur with cancelled := (cancelNoted s s1 w x).cur.cancelled ++ [f] } := by
    unfold cancelMember
    rw [hsig]
    exact if_pos (beq_iff_eq.2 (hcur.ident.trans hident))
  generalize cancelMember ((cancelNoted s s1 w x).setHead w p none) m = u at ht hnoted
  obtain ⟨hfinish, hflag, hgone⟩ := endMember_flag (s := u) (m := m) (y := y) (f := f) (by rw [hnoted]; exact hcur.ident.trans hident)
    (by rw [hnoted]; exact (congrArg (List.find? (fun (k : Work) => k.id == m.workId)) hcur.work).trans hwork) hy
  rw [ht]
  refine ⟨?_, hflag.trans ?_, hgone⟩
  · rw [hfinish]
    obtain ⟨fs, h', e, w', hf⟩ := u.cur.finish_eq y
    obtain ⟨s', w', v, p, qe, qs, q, b, rs, me, re, l, ea, ec, hw⟩ := Course.foldl_write_eq y.writes u.cur
    rw [hf, hw, hnoted]
    exact List.mem_append_right _ List.mem_cons_self
  · rw [hnoted]
    exact congrArg (fun t => Sparse.get t f 0 - 1) hcur.flags

/-- A cancelled operation's only member without a flag: its launch reports 0x43, if it reports nothing yet. -/
theorem cancelOp_status {x : RangeFault × DWord} {s1 : State} (h : s.Tried s1) {m : EngMember} {l : Launch} (hmembers : o.members = [m])
    (hsig : m.sig = none) (hident : s.cur.ident = m.ident) (hl : s.launches[s.cur.launch]? = some l) :
    let t := { s1 with tags := s.tags }.cancelOp w p o x.1 x.2
    ∃ l', t.launches[s.cur.launch]? = some l' ∧ l'.status = if l.status = 0 then 0x43 else l.status := by
  intro t
  have hnoted := (cancelNoted_tried (w := w) h x).1
  have ht : t = (cancelMember ((cancelNoted s s1 w x).setHead w p none) m).endMember m := by
    change { s1 with tags := s.tags }.cancelOp w p o x.1 x.2 = _
    rw [cancelOp_eq, hmembers]
    rfl
  have hfind : ((cancelNoted s s1 w x).setHead w p none).agents.find? (fun c => c.ident == m.ident) = some (cancelNoted s s1 w x).cur :=
    List.find?_cons_of_pos (beq_iff_eq.2 (hnoted.cur.ident.trans hident))
  have hlaunches : t.launches = (cancelNoted s s1 w x).launches.modify (cancelNoted s s1 w x).cur.launch
      (fun l => if l.status = 0 then { l with status := 0x43 } else l) := by
    rw [ht]
    change (cancelMember ((cancelNoted s s1 w x).setHead w p none) m).launches = _
    unfold cancelMember
    rw [hsig, hfind]
    rfl
  rw [hlaunches, hnoted.launches, hnoted.cur.launch]
  refine ⟨if l.status = 0 then { l with status := 0x43 } else l, by simp [hl], ?_⟩
  split <;> rfl

theorem engineOperationCancel_spec {x : RangeFault × DWord} {xs : List (Sync × List (List Byte))} {st : Bool} {s1 : State}
    (hall : s.fireAll w p o.kt o.fa ((s.plane w p).seatMembers o.kt [] o.members) = (some x, xs, st, s1)) :
    let t := { s1 with tags := s.tags }.cancelOp w p o x.1 x.2
    s.Tried s1 ∧ (t.plane w p).engine = (s.plane w p).engine.tail ∧ (∀ n, (t.plane w p).chute n = (s.plane w p).chute n) ∧
      (∀ a, ¬ s.InEventRing a → t.byte a = s.byte a) ∧
      ((s1.dreg 0x892).toNat ≠ 0 → (s1.dreg 0x893 - s1.dreg 0x894).toNat ≠ (s1.dreg 0x892).toNat →
        t.dreg 0x893 = s1.dreg 0x893 + 1 ∧
          t.byte (s1.dreg64 0x890 + 64 * ((s1.dreg 0x893).toNat % (s1.dreg 0x892).toNat) + 48) = 6#8) := by
  intro t
  have hs1 : s.Tried s1 := by
    have htried := State.tried_fireAll w p o.kt o.fa ((s.plane w p).seatMembers o.kt [] o.members) s
    rw [hall] at htried
    exact htried
  have hnoted := cancelNoted_tried (w := w) hs1 x
  have hframe : ((cancelNoted s s1 w x).setHead w p none).AgentsOnly t := cancelOp_frame _ _ _ _ _ _
  have hplane : t.plane w p = { s.plane w p with engine := (s.plane w p).engine.tail } := by
    rw [State.plane_congr hframe.planes, State.plane_setHead, State.plane_congr hnoted.1.planes]
    rfl
  have hbyte (a : Nat) : t.byte a = (cancelNoted s s1 w x).byte a := congrArg (Sparse.get · a 0) hframe.mem
  refine ⟨hs1, by rw [hplane], fun n => by rw [hplane]; rfl, fun a ha => (hbyte a).trans (hnoted.2.2 a ha), fun hsize hroom => ?_⟩
  obtain ⟨hhead, hkind⟩ := memEvent_room { s1 with tags := s.tags } (x.1.pa / 32 * 32) (dieOf w) x.2 hsize hroom
  exact ⟨(congrArg (Sparse.get · 0x893 0) hframe.dregs).trans hhead, (hbyte _).trans hkind⟩

end

theorem engineSteps : Claims.EngineSteps := by
  intro s w p o r lid gid pl
  refine ⟨fun g i n hs lead hg hfirst hhs hlead hsize hactive hservice hall hroom => ?_, fun e he hbreak harrived => gangIssue_breaks he hbreak harrived,
    fun g hg hlen => gangIssue_waits hg (.inl (Nat.lt_of_le_of_lt (List.length_filter_le _ _) hlen)),
    fun g e hg he harrived htrap => gangIssue_waits hg (.inr ⟨e, List.mem_filter.2 ⟨he, harrived⟩, htrap⟩), fun hnone => ?_, fun hfire m hm => ?_,
    fun xs s1 hfire hall hplanes => ?_, fun x xs st s1 hfire hall hplanes => ?_, fun hrun hq hfired => ⟨?_, fun h => ?_, ?_⟩⟩
  · obtain ⟨tail, rfl⟩ : ∃ tail, hs = lead :: tail := by
      cases hs with
      | nil => cases hlead
      | cons e tail => exact ⟨tail, by rw [Option.some.inj hlead]⟩
    obtain ⟨hmem, hplane⟩ := gangIssued_spec s w p g (gangOp s i lead.1 (lead :: tail))
    refine ⟨_, _, exec_gangIssue hg hfirst hhs hsize hactive hservice hall hroom, hmem, ?_, rfl, by rw [hplane]; rfl, fun g' hg' => ?_⟩
    · simp [gangOp, issuedMembers]
    · rw [hplane] at hg'
      obtain rfl := Plane.gang_setGang (g := { g with arrived := 0, first := none }) (show g.lid = lid ∧ g.gid = gid from Plane.gang_key hg) hg'
      exact ⟨rfl, rfl⟩
  · refine ⟨?_, fun hidle => ?_⟩
    · change execEngineFire w s = _
      unfold execEngineFire
      rw [hnone]
    · change execEngineOperationCancel w s = _
      unfold execEngineOperationCancel
      rw [hnone]
      dsimp only
      rw [hidle]
  · obtain ⟨hready, -⟩ := State.fireable_spec hfire
    simpa using List.all_eq_true.1 hready m hm
  · obtain ⟨t, hexec, hmem, hengine⟩ := engineFire_spec hfire hall hplanes
    exact ⟨t, _, hexec, hmem, hengine, rfl, rfl, Plane.seatMembers_ident pl o.kt [] o.members⟩
  · obtain ⟨hfires, hcancels⟩ := exec_engineOperationCancel hfire hall
    obtain ⟨htried, hengine, hchutes, hbytes, hring⟩ := engineOperationCancel_spec hall
    refine ⟨hfires, _, hcancels, hengine, hchutes, hbytes, hring, fun m f hmembers hsig hident ⟨y, hy, hysig, _⟩ => ?_,
      fun m l hmembers hsig hident hl => cancelOp_status htried hmembers hsig hident hl⟩
    exact cancelOp_flag htried hmembers hsig hident hy hysig
  · exact fun j m hm hleft hturn => engineEntryConsumed_spec hrun hq hfired hm hleft hturn
  · rw [exec_engineOperationComplete hrun hq hfired, if_pos (by simpa using h)]
  · intro xs s1 hread hland hstall hplanes hcur hparked
    obtain ⟨t, hexec, hengine, hflag⟩ := engineOperationComplete_spec hrun hq hfired hread hland hstall hplanes hcur
    exact ⟨t, hexec, hengine, fun m f hmembers hsig hident _ hwork => hflag m f hmembers hsig hident hwork⟩

end Sys2Proof.EngineAndWeights
end

section
/-! SUPPORT. Loads of the weight buffer (R271, R376). -/

open Sys2Proof Sys2Proof.Machine

namespace Sys2Proof.Machine

/-! The weight buffer's bytes. -/

/-- The bytes of a string written one after the other, read back. -/
theorem Sparse.get_foldl_zipIdx (bs : List Byte) (a k : Nat) (t : Sparse Byte) (x : Nat) :
    Sparse.get ((bs.zipIdx k).foldl (fun t e => Sparse.set t (a + e.2) e.1 0) t) x 0 =
      if a + k ≤ x ∧ x < a + k + bs.length then bs.getD (x - (a + k)) 0 else Sparse.get t x 0 := by
  induction bs generalizing k t with
  | nil => rw [if_neg (by simp)]; rfl
  | cons b bs ih =>
    rw [List.zipIdx_cons, List.foldl_cons, ih, Sparse.get_set]
    by_cases hx : x = a + k
    · rw [if_neg (by omega), if_pos hx, if_pos (by simp [hx])]
      simp [hx]
    · by_cases hin : a + (k + 1) ≤ x ∧ x < a + (k + 1) + bs.length
      · have hsub : x - (a + k) = x - (a + (k + 1)) + 1 := by omega
        rw [if_pos hin, if_pos (by simp; omega), hsub, List.getD_cons_succ]
      · rw [if_neg hin, if_neg hx, if_neg (by simp; omega)]

theorem Plane.wbytes_setWbytes_self (pl : Plane) (a : Nat) {n : Nat} {bs : List Byte} (h : bs.length = n) : (pl.setWbytes a bs).wbytes a n = bs := by
  refine List.ext_getElem (by simp [Plane.wbytes, h]) fun i hi hi' => ?_
  simp only [Plane.wbytes, Plane.setWbytes, List.getElem_map, List.getElem_range]
  rw [Sparse.get_foldl_zipIdx, if_pos (by omega)]
  simp [List.getD, List.getElem?_eq_getElem hi']

theorem Plane.wbytes_setWbytes_other (pl : Plane) {a b n : Nat} {bs : List Byte} (h : b + n ≤ a ∨ a + bs.length ≤ b) :
    (pl.setWbytes a bs).wbytes b n = pl.wbytes b n := by
  refine List.ext_getElem (by simp [Plane.wbytes]) fun i hi hi' => ?_
  simp only [Plane.wbytes, Plane.setWbytes, List.getElem_map, List.getElem_range]
  have hi : i < n := by simpa [Plane.wbytes] using hi
  rw [Sparse.get_foldl_zipIdx, if_neg (by omega)]

theorem Plane.slotWord_setWbytes (pl : Plane) (slot e : Nat) : (pl.setWbytes (8 * slot) (bytesLE 8 e)).slotWord slot = e % 2 ^ 64 := by
  unfold Plane.slotWord
  rw [Plane.wbytes_setWbytes_self pl _ (bytesLE_length 8 e), ofBytesLE_bytesLE]
  rfl

theorem ebit_eq_testBit (x n : Nat) : ebit x n = x.testBit n := by
  rw [Nat.testBit_eq_decide_div_mod_eq]
  rfl

/-- A source that failed leaves a directory entry without its valid bit (R271). -/
theorem loadedEntry_failed {fmt : Word} {off tiles len old : Nat} {code : Code} {bs : List Byte} (h : code ≠ 0) :
    (loadedEntry fmt off tiles len (code, bs) old).testBit 56 = false := by
  have hcode : (code == 0) = false := by simpa using h
  unfold loadedEntry
  dsimp only
  rw [hcode, Bool.false_and, if_neg Bool.false_ne_true]
  split
  · next hold =>
    rw [ebit_eq_testBit, Nat.testBit_eq_decide_div_mod_eq, decide_eq_true_eq] at hold
    rw [Nat.testBit_eq_decide_div_mod_eq, decide_eq_false_iff_not]
    omega
  · next hold => simpa [ebit_eq_testBit] using hold

end Sys2Proof.Machine

namespace Sys2Proof.EngineAndWeights

/-- The own part of `WBLD` (R271, R376). -/
def wbldBody (sl : BitVec 6) (fs : BitVec 3) (ra : BitVec 6) (bp : BitVec 5) (rb : BitVec 6) (sp : BitVec 1) (s : State) : Res :=
  let c := s.cur
  let fmt := c.slotWord fs.toNat 0
  let off := (c.S ra.toNat).toNat
  let z := (c.S rb.toNat).toNat
  let tiles := z / 2 ^ 16
  let len := z % 2 ^ 15
  let n := 32 * len
  let src := c.S64 (2 * bp.toNat)
  let from_ := (lo32 src).toNat
  if tiles = 0 ∨ ebit z 15 ∨ len = 0 ∨ 16383 < len ∨ off % 32 ≠ 0 ∨ off < 512 ∨ 524288 < off + n ∨
      !fmtOk (Slot.of fmt 0).fmt ∨ (sp = 1 ∧ 0x100000 < from_ + n) then .trap s { code := 0x65 }
  else
    let r := if sp = 1 then s.readSp from_ n
      else s.reach c.ctx none { acc := { rd := true } } ((pieces src.toNat n).map (fun p => ⟨0, p.1, p.2⟩))
    let put (s : State) (x : Code × List Byte) : Res :=
      .done s { lat := none, act := .wbld c.plane sl.toNat fmt off tiles len x s.now }
    match r with
    | .wait => .wait s
    | .trap s' t => put s' (t.code, [])
    | .ok s' ps _ => put s' (0, s'.bytesAt ps)
    | .lost s' _ _ => put s' (0x10, [])

section
variable {s : State} {k : Ctl} {sl ra rb : BitVec 6} {fs : BitVec 3} {bp : BitVec 5} {sp : BitVec 1}

theorem exec_wbld (hsys : s.cur.sys = none) (hready : s.Ready true k {}) (hslot : s.cur.slotBad fs.toNat = false) :
    exec (.wbld k sl fs ra bp rb sp) s = .next (match wbldBody sl fs ra bp rb sp s with
      | .wait s' => s'
      | .trap s' t => s'.trapAt (s.cur.streamOf true) t
      | .done s' p => s'.issued (s.cur.streamOf true) (sigFlag k) {} p) := by
  refine congrArg Host.Outcome.next ?_
  rw [hsys, hslot]
  exact State.issue_issues hready.1 hready.2

/-- What a source's bytes or its failure leave to do. -/
theorem wbld_answers {t : State} {pl : Plan} (hsys : s.cur.sys = none) (hready : s.Ready true k {}) (hslot : s.cur.slotBad fs.toNat = false)
    (h : wbldBody sl fs ra bp rb sp s = .done t pl) : Answers (.wbld k sl fs ra bp rb sp) s true k {} t pl := by
  unfold Answers
  rw [exec_wbld hsys hready hslot, h]

end

/-! Completion of a load. -/

/-- What a load's completion leaves of a course (R271): its record, then the end of its work. -/
def loadEnds (c : Course) (k : Work) (code : Code) (good : Bool) (len : Nat) : Course :=
  (c.recordFor k.sig (if code ≠ 0 then code else if good then 0 else 0x41) code 0 (if good then 32 * len else 0) 0).finish k

/-- A plane once a load's bytes and directory entry stand. -/
def loadedPlane (pl : Plane) (slot off e : Nat) (bs : List Byte) : Plane :=
  (if ebit e 56 then pl.setWbytes off bs else pl).setWbytes (8 * slot) (bytesLE 8 e)

section
variable {s f : State} {who : DWord} {id : Nat} {w : Work} {p slot : Nat} {fmt : Word} {off tiles len : Nat} {code : Code} {bs : List Byte} {since : DWord}

theorem wbldComplete_early (hfocus : s.focus who = some f) (hwork : f.cur.workOf id = some w)
    (hact : w.act = .wbld p slot fmt off tiles len (0x10, bs) since) (hearly : (f.now - since).toNat < 2 ^ 24) :
    exec (.wbldComplete who id) s = .next s := by
  change execWbldComplete who id s = _
  unfold execWbldComplete
  rw [hfocus]
  dsimp only
  rw [hwork]
  dsimp only
  rw [hact]
  refine congrArg Host.Outcome.next (if_pos ?_)
  rw [decide_eq_true hearly]
  rfl

theorem exec_wbldComplete (hfocus : s.focus who = some f) (hwork : f.cur.workOf id = some w)
    (hact : w.act = .wbld p slot fmt off tiles len (code, bs) since) (hlate : code = 0x10 → 2 ^ 24 ≤ (f.now - since).toNat)
    (hidle : (f.plane f.cur.wall p).engine = []) (hfirst : ∀ l ∈ f.loading f.cur.wall p, id ≤ l.id) :
    let e := loadedEntry fmt off tiles len (code, bs) ((f.plane f.cur.wall p).slotWord slot)
    exec (.wbldComplete who id) s = .next (((f.setPlane f.cur.wall p (loadedPlane (f.plane f.cur.wall p) slot off e bs)).lifeAdd 0x32
      (if code == 0x10 then 1 else 0)).modC (fun c => loadEnds c w code (ebit e 56) len)) := by
  change execWbldComplete who id s = _
  unfold execWbldComplete
  rw [hfocus]
  dsimp only
  rw [hwork]
  dsimp only
  rw [hact]
  refine congrArg Host.Outcome.next ((if_neg ?_).trans rfl)
  have htime : ((code == 0x10) && decide ((f.now - since).toNat < 2 ^ 24)) = false := by
    simpa using hlate
  have hloads (g : Loading → Bool) : (f.loading f.cur.wall p).any (fun l => decide (l.id < id) && g l) = false :=
    List.any_eq_false.2 fun l hl => by simp [Nat.not_lt.2 (hfirst l hl)]
  rw [hidle, hloads]
  simpa [Config.peerLimit] using hlate

/-- A record and the end of its work item, which awaits no write. -/
theorem loadEnds_spec (c : Course) {k : Work} (code : Code) (good : Bool) (len : Nat) (hfailed : code ≠ 0 → good = false) :
    (loadEnds c k code good len).workOf k.id = none ∧
    ∀ g, k.sig = some g → k.writes = [] → (loadEnds c k code good len).flag g = c.flag g - 1 ∧
      let status : Code := if code ≠ 0 then code else if good then 0 else 0x41
      (status = 0 → c.Recorded (loadEnds c k code good len) g 0 0 (32 * len) 0) ∧
      (status ≠ 0 → (loadEnds c k code good len).Holds g status code 0 0 0) := by
  refine ⟨Course.workOf_finish _ _, fun g hsig hwrites => ?_⟩
  have hends : loadEnds c k code good len =
      (c.record g (if code ≠ 0 then code else if good then 0 else 0x41) code 0 (if good then 32 * len else 0) 0).finish k := by
    unfold loadEnds
    rw [hsig]
    rfl
  rw [hends]
  refine ⟨(Course.flag_finish hsig).trans (congrArg (fun t => Sparse.get t g 0 - 1) (Course.record_frame _ _ _ _ _ _ _).1), fun hstatus => ?_, fun hstatus => ?_⟩
  · obtain ⟨rfl, rfl⟩ : code = 0 ∧ good = true := by
      by_cases hcode : code = 0
      · cases good with
        | true => exact ⟨hcode, rfl⟩
        | false => simp [hcode] at hstatus
      · exact absurd ((if_pos hcode).symm.trans hstatus) hcode
    refine Course.recorded_of_record (by decide) fun n _ => ?_
    rw [Course.finish_recs_of_none _ hwrites]
    rfl
  · have hgood : good = false := by
      cases good with
      | false => rfl
      | true =>
        by_cases hcode : code = 0
        · simp [hcode] at hstatus
        · exact hfailed hcode
    obtain ⟨hholds, -⟩ := Course.record_holds (c := c) (f := g) (code := code) (chan := 0) (bytes := if good then 32 * len else 0) (bmap := 0) (by decide)
      (fun h => hstatus h.1)
    obtain ⟨h1, h2, h3, h4, h5, h6⟩ := hholds
    constructor <;> rw [Course.finish_recs_of_none _ hwrites]
    · exact h1
    · exact h2
    · exact h3
    · rw [h4, hgood]; rfl
    · exact h5
    · exact h6

end

theorem weightLoads : Claims.WeightLoads := by
  intro s k sl ra rb fs bp sp hsys hready hslot c fmt off z tiles len src bad read
  have hcond : (tiles = 0 ∨ ebit z 15 ∨ len = 0 ∨ 16383 < len ∨ off % 32 ≠ 0 ∨ off < 512 ∨ 524288 < off + 32 * len ∨
      !fmtOk (Slot.of fmt 0).fmt ∨ (sp = 1 ∧ 0x100000 < (lo32 src).toNat + 32 * len)) ↔ bad := by
    rw [ebit_eq_testBit, Bool.not_eq_true']
  refine ⟨fun hbad => ?_, fun hgood => ?_, fun f who id w p slot fmt off tiles len bs since hfocus hwork hact hearly => wbldComplete_early hfocus hwork hact hearly,
    fun f who id w p slot fmt off tiles len code bs since hfocus hwork hact hlate hslots hoff hbs hidle hfirst => ?_⟩
  · unfold Traps
    rw [exec_wbld hsys hready hslot, show wbldBody sl fs ra bp rb sp s = .trap s { code := 0x65 } from if_pos (hcond.2 hbad)]
  · have hbody : wbldBody sl fs ra bp rb sp s = (match read with
        | .wait => .wait s
        | .trap t x => .done t { lat := none, act := .wbld c.plane sl.toNat fmt off tiles len (x.code, []) t.now }
        | .ok t ps _ => .done t { lat := none, act := .wbld c.plane sl.toNat fmt off tiles len (0, t.bytesAt ps) t.now }
        | .lost t _ _ => .done t { lat := none, act := .wbld c.plane sl.toNat fmt off tiles len (0x10, []) t.now }) := if_neg (mt hcond.1 hgood)
    intro put
    clear_value read
    cases read with
    | ok t ps ab => exact wbld_answers hsys hready hslot hbody
    | trap t x => exact wbld_answers hsys hready hslot hbody
    | lost t ps ab => exact wbld_answers hsys hready hslot hbody
    | wait => rw [exec_wbld hsys hready hslot, hbody]
  · intro pl e
    have hvalid : ebit e 56 = e.testBit 56 := ebit_eq_testBit e 56
    obtain ⟨hgone, hends⟩ := loadEnds_spec f.cur (k := w) code (ebit e 56) len (fun h => hvalid.trans (loadedEntry_failed h))
    have hplane (u : Plane) (g : Course → Course) (n : Nat) : (((f.setPlane f.cur.wall p u).lifeAdd 0x32 n).modC g).plane f.cur.wall p = u :=
      State.plane_setPlane_self f f.cur.wall p u
    refine ⟨_, exec_wbldComplete hfocus hwork hact hlate hidle hfirst, (State.focus_mem hfocus : f.mem = s.mem), ?_, ?_, fun h => ?_, fun h => ?_, loadedEntry_failed, fun g hsig hwrites => ?_⟩
    · rw [← Course.id_of_workOf hwork]
      exact hgone
    · rw [hplane]
      exact Plane.slotWord_setWbytes _ _ _
    · rw [hplane]
      unfold loadedPlane
      rw [Plane.wbytes_setWbytes_other _ (.inr (by rw [bytesLE_length]; omega)), if_pos (hvalid.trans h), Plane.wbytes_setWbytes_self _ _ hbs]
    · rw [hplane]
      unfold loadedPlane
      rw [Plane.wbytes_setWbytes_other _ (.inr (by rw [bytesLE_length]; omega)), if_neg (by rw [hvalid, h]; exact Bool.false_ne_true)]
    · obtain ⟨hflag, hzero, hfail⟩ := hends g hsig hwrites
      rw [← hvalid]
      refine ⟨hflag, hzero, fun h => ?_⟩
      obtain ⟨h1, h2, h3, h4, h5, h6⟩ := hfail h
      exact ⟨h1, h2, h3, h4, h5, h6⟩

/-- Settles O58: the engine by the case of each step, a load of the weight buffer by its source and by what its completion writes. -/
theorem engineAndWeights : Obligations.EngineAndWeights := ⟨engineSteps, weightLoads⟩

end Sys2Proof.EngineAndWeights
end

section
/-! SUPPORT. Where the events of copies and of the matrix engine happen: their steps happen as the statements about copies and the engine say. -/

open Sys2Proof Sys2Proof.Machine

namespace Sys2Proof.UnitEventsComplete

/-- Settles O19: each event is a step of `CopySteps` or of `EngineSteps`. -/
theorem unitEventsComplete : Obligations.UnitEventsComplete := by
  intro s w p ch j o r pl q job engine
  obtain ⟨-, -, -, -, -, -, hfire, hcancel, hrun⟩ := EngineAndWeights.engineSteps s w p o r 0 0
  refine ⟨fun hjob => ?_, ?_, ?_, ?_, ?_⟩
  · obtain ⟨-, -, hstart, hconsumed, -, hsignal, -, hwritten, hcomplete, -, hfail, -⟩ := CopyRuns.copySteps s w ch j hjob
    refine ⟨fun x s2 hnot hpub hread hstall => ?_, fun hstarted hscv heaten => ?_,
      fun ps x rest s1 s2 hsigv hsig hstarted hplaces hstall hcounter hawake hroom => ?_, fun hstarted hscv hsigv hsig hwr => ?_,
      fun ps bs s1 s2 hstarted hscv hsigv hdcv hwr hplaces hbits hstall => ?_, fun f written hfault => ?_⟩
    · obtain ⟨t, hexec, -, ht⟩ := (hstart x s2 hnot hpub hread).2 hstall
      exact ⟨t, hexec, ht⟩
    · obtain ⟨t, hexec, -, ht, -⟩ := hconsumed hstarted hscv heaten
      exact ⟨t, hexec, ht⟩
    · obtain ⟨t, hexec, -, ht⟩ := (hsignal ps x rest s1 s2 hsigv hsig hstarted hplaces hstall hcounter hawake).2 hroom
      exact ⟨t, hexec, ht⟩
    · exact ⟨_, (hwritten hstarted hscv hsigv hsig hwr).1, State.endCopy_job _ _ _ _ _ _, State.endCopy_mem _ _ _ _ _ _⟩
    · exact ⟨_, (hcomplete ps bs s1 s2 hstarted hscv hsigv hdcv hwr hplaces hbits hstall).1, State.endCopy_job _ _ _ _ _ _, State.endCopy_mem _ _ _ _ _ _⟩
    · obtain ⟨t, hexec, ht, -⟩ := hfail f f.code written hfault rfl
      exact ⟨t, hexec, ht⟩
  · intro lid gid g i n hs lead hg hfirst hhs hlead hsize hactive hservice hall hroom
    obtain ⟨hissue, -⟩ := EngineAndWeights.engineSteps s w p o r lid gid
    obtain ⟨t, op, hexec, -, hlen, -, hengine, -⟩ := hissue g i n hs lead hg hfirst hhs hlead hsize hactive hservice hall hroom
    exact ⟨t, op, hexec, hengine, hlen⟩
  · intro xs s1 hf hall hplanes
    obtain ⟨t, o', hexec, -, hengine, hfired, -⟩ := hfire xs s1 hf hall hplanes
    exact ⟨t, o', hexec, hengine, hfired⟩
  · intro x xs st s1 hf hall hplanes
    obtain ⟨-, t, hexec, hengine, -⟩ := hcancel x xs st s1 hf hall hplanes
    exact ⟨t, hexec, hengine⟩
  · intro hr hq hfired
    obtain ⟨hconsumed, -, hcomplete⟩ := hrun hr hq hfired
    refine ⟨fun n m hm hleft hturn => ?_, fun xs s1 hread hland hstall hplanes hcur hparked => ?_⟩
    · obtain ⟨t, hexec, -, hengine, -⟩ := hconsumed n m hm hleft hturn
      exact ⟨t, hexec, hengine⟩
    · obtain ⟨t, hexec, hengine, -⟩ := hcomplete xs s1 hread hland hstall hplanes hcur hparked
      exact ⟨t, hexec, hengine⟩

end Sys2Proof.UnitEventsComplete
end

section
/-! SUPPORT. Storage that wakes, drains, scans, the retirement of walls (R120, R174, R382 to R385). -/

open Sys2Proof Sys2Proof.Machine

namespace Sys2Proof.Machine

/-! What stands of walls, planes and dies while records are written and bytes come into sight. -/

/-- Walls, planes and dies stand as they were. -/
structure State.SameHouse (s t : State) : Prop where
  walls : t.walls = s.walls
  planes : t.planes = s.planes
  dies : t.dies = s.dies

theorem State.SameHouse.refl (s : State) : s.SameHouse s := ⟨rfl, rfl, rfl⟩

theorem State.SameHouse.trans {s t u : State} (h : s.SameHouse t) (h' : t.SameHouse u) : s.SameHouse u :=
  ⟨h'.walls.trans h.walls, h'.planes.trans h.planes, h'.dies.trans h.dies⟩

theorem State.SameHouse.wall {s t : State} (h : s.SameHouse t) (w : Nat) : t.wall w = s.wall w := congrArg (Sparse.get · w Wall.zero) h.walls
theorem State.SameHouse.plane {s t : State} (h : s.SameHouse t) (w p : Nat) : t.plane w p = s.plane w p := State.plane_congr h.planes w p
theorem State.SameHouse.die {s t : State} (h : s.SameHouse t) (d : Nat) : t.die d = s.die d := congrArg (Sparse.get · d Die.zero) h.dies

theorem State.sameHouse_suspectRecord (s : State) (kind : Nat) (pattern : Byte) (at_ : DWord) (w asid : Nat) (lid : Word) :
    s.SameHouse (s.suspectRecord kind pattern at_ w asid lid) := by
  unfold State.suspectRecord
  dsimp only
  split
  · exact .refl s
  · split
    · exact ⟨rfl, rfl, rfl⟩
    · have hraise (t : State) (e : Word) : t.SameHouse (t.raiseEventWord e) := by
        obtain ⟨c, ps, h, -⟩ := t.raiseEventWord_eq e
        rw [h]
        exact ⟨rfl, rfl, rfl⟩
      have hstore (a : Nat) (bs : List Byte) : s.SameHouse (s.releaseStore 0 8 a bs) := by
        obtain ⟨c, ps, p, r, h, -⟩ := s.releaseStore_eq 0 8 a bs
        rw [h]
        exact ⟨rfl, rfl, rfl⟩
      refine State.SameHouse.trans ?_ (hraise _ _)
      exact (hstore _ _).trans ⟨rfl, rfl, rfl⟩

theorem State.sameHouse_revealAll (s : State) : s.SameHouse s.revealAll := by
  unfold State.revealAll
  refine List.foldlRecOn (motive := fun t => s.SameHouse t) _ _ (.refl s) fun t ht n _ => ht.trans ?_
  unfold State.reveal
  split
  · exact .refl t
  · exact ⟨rfl, rfl, rfl⟩

theorem State.sameHouse_blank (s : State) (a n : Nat) : s.SameHouse (s.blank a n) := by
  unfold State.blank
  obtain ⟨h, hh⟩ := s.pastHost_eq a n
  rw [hh]
  exact ⟨rfl, rfl, rfl⟩

theorem State.wall_passes (s : State) (w : Nat) : s.passes.wall w = s.wall w := rfl
theorem State.wall_lifeAdd (s : State) (sel n w : Nat) : (s.lifeAdd sel n).wall w = s.wall w := rfl

theorem State.wall_setWall_self (s : State) (w : Nat) (x : Wall) : (s.setWall w x).wall w = x := by
  rw [State.wall_setWall, if_pos rfl]

end Sys2Proof.Machine

namespace Sys2Proof.WallScans

/-- A bit that is cleared in a mask is clear. -/
theorem getLsbD_clear {n : Nat} (x : BitVec n) (i : Nat) : (x &&& ~~~(BitVec.ofNat n (2 ^ i))).getLsbD i = false := by
  by_cases h : i < n
  · rw [BitVec.getLsbD_and, BitVec.getLsbD_not, BitVec.getLsbD_ofNat, Nat.testBit_two_pow_self]
    simp [h]
  · exact BitVec.getLsbD_of_ge _ _ (Nat.not_lt.1 h)

section
variable {s : State} {w bay idx : Nat} {pat : Byte}

/-- A plane with a bank awake. -/
def wokenBank (x : Plane) (idx : Nat) : Plane := { x with waking := x.waking &&& ~~~(BitVec.ofNat 64 (2 ^ idx)) }

theorem bankWakes (h : (s.plane w 0).waking.getLsbD idx = true) : ∃ t, exec (.storageWakeComplete true (3 * w) idx) s = .next t ∧ t.mem = s.mem ∧
    (t.plane w 0).waking.getLsbD idx = false ∧ (t.plane w 0).off = (s.plane w 0).off := by
  have hexec : exec (.storageWakeComplete true (3 * w) idx) s = execStorageWakeComplete true (3 * w) idx s := rfl
  unfold execStorageWakeComplete at hexec
  dsimp only at hexec
  rw [if_pos rfl, show 3 * w / 3 = w by omega, show 3 * w % 3 = 0 by omega, h, Bool.not_true, if_neg Bool.false_ne_true] at hexec
  have hplane := State.plane_setPlane_self s w 0 (wokenBank (s.plane w 0) idx)
  have hoff := congrArg Plane.off hplane
  have hawake := (congrArg (fun y : Plane => y.waking.getLsbD idx) hplane).trans (getLsbD_clear (s.plane w 0).waking idx)
  exact ⟨_, hexec, rfl, hawake, hoff⟩

theorem clearTags_foldl (ns : List Nat) (s : State) : ∃ ts, ns.foldl (fun (s : State) (n : Nat) => s.clearTags (128 * n) 128) s = { s with tags := ts } :=
  List.foldlRecOn (motive := fun t : State => ∃ ts, t = { s with tags := ts }) _ _ ⟨s.tags, rfl⟩ fun t ⟨ts, ht⟩ n _ => by
    subst ht
    exact ⟨_, rfl⟩

theorem waysWake (h : (Sparse.get s.waysWake bay 0).getLsbD idx = true) : ∃ t, exec (.storageWakeComplete false bay idx) s = .next t ∧ t.mem = s.mem ∧
    (Sparse.get t.waysWake bay 0).getLsbD idx = false ∧ t.waysOff = s.waysOff := by
  have hexec : exec (.storageWakeComplete false bay idx) s = execStorageWakeComplete false bay idx s := rfl
  unfold execStorageWakeComplete at hexec
  simp only [h, Bool.not_true, Bool.false_eq_true, if_false] at hexec
  obtain ⟨ts, hts⟩ := clearTags_foldl
    ((s.lines.filter (fun e => e.1 / 16 / baySets == bay && e.1 % 16 / 2 == idx)).map (fun e => e.2.line)) s
  rw [hts] at hexec
  refine ⟨_, hexec, rfl, ?_, rfl⟩
  dsimp only
  rw [Sparse.get_set, if_pos rfl]
  exact getLsbD_clear _ _

/-! Drains. -/

theorem deactivate_eq (s : State) (w : Nat) (held : Bool) : ∃ c ps pls, s.deactivate w held = { s with cur := c, parked := ps, planes := pls } := by
  unfold State.deactivate
  split
  · exact ⟨_, _, _, rfl⟩
  · exact ⟨_, _, _, rfl⟩

theorem deactivate_plane {a : Nat} (h : s.activePlane w = some a) : (s.deactivate w true).plane w a = { s.plane w a with st := .ready, heldPlane := true } := by
  unfold State.deactivate
  rw [h]
  exact (State.plane_setPlane_self s w a { s.plane w a with st := .ready, heldPlane := true } :)

theorem drains (hfree : ∀ v ∈ bayWalls bay, (s.wall v).service ≠ .drained ∧ (s.wall v).service ≠ .retest) (hnext : s.nextDrain bay = some w) :
    ∃ t, exec (.plumbDrain bay) s = .next t ∧ (t.wall w).service = .drained ∧ t.mem = s.mem ∧ (t.wall w).scanStart = s.count (w / 48) ∧
      ∀ a, s.activePlane w = some a → (t.plane w a).st = .ready ∧ (t.plane w a).heldPlane = true := by
  have hnone : (bayWalls bay).any (fun w => (s.wall w).service == .drained || (s.wall w).service == .retest) = false :=
    List.any_eq_false.2 fun v hv => by
      obtain ⟨h1, h2⟩ := hfree v hv
      simp [h1, h2]
  have hexec : exec (.plumbDrain bay) s = execPlumbDrain bay s := rfl
  unfold execPlumbDrain at hexec
  rw [hnone, if_neg Bool.false_ne_true, hnext] at hexec
  dsimp only at hexec
  obtain ⟨c, ps, pls, hd⟩ := deactivate_eq s w true
  refine ⟨_, hexec, ?_, ?_, ?_, fun a ha => ?_⟩
  · rw [State.wall_passes, State.wall_setWall_self]
  · rw [hd]
    rfl
  · rw [State.wall_passes, State.wall_setWall_self, hd]
    rfl
  · have hplane := deactivate_plane ha
    generalize s.deactivate w true = u at hplane
    exact ⟨congrArg Plane.st hplane, congrArg Plane.heldPlane hplane⟩

/-! Scans. -/

theorem exec_plumbScanPass (w : Nat) (s : State) : exec (.plumbScanPass w) s = .next (
    if ((s.wall w).service ≠ .drained ∧ (s.wall w).service ≠ .retest) ∨ !s.scanned w ∨ ((s.wall w).service = .retest ∧ !s.cleared w) then s
    else
      let t := if (s.wall w).service = .retest then s.suspectRecord 2 (s.wall w).failure.1 (s.wall w).failure.2 w 0 0 else s
      ((t.setWall w { t.wall w with service := .inService, lastScan := (s.wall w).scanStart }).lifeAdd 3 1).passes) := rfl

/-- A scan that passes returns the wall to service (R174). -/
theorem scanPasses (hservice : (s.wall w).service = .drained ∨ ((s.wall w).service = .retest ∧ s.cleared w = true)) (hscanned : s.scanned w = true) :
    ∃ t, exec (.plumbScanPass w) s = .next t ∧ (t.wall w).service = .inService ∧ (t.wall w).lastScan = (s.wall w).scanStart ∧
      ((s.wall w).service = .drained → t.mem = s.mem) := by
  rw [exec_plumbScanPass, if_neg (by rcases hservice with h | ⟨h, hc⟩ <;> simp [*])]
  refine ⟨_, rfl, ?_, ?_, fun h => ?_⟩
  · dsimp only
    rw [State.wall_passes, State.wall_lifeAdd, State.wall_setWall_self]
  · dsimp only
    rw [State.wall_passes, State.wall_lifeAdd, State.wall_setWall_self]
  · dsimp only
    rw [if_neg (by simp [h])]
    rfl

/-- A first scan that fails is followed by a second (R382). -/
theorem scanFails (hservice : (s.wall w).service = .drained) (hscanned : s.scanned w = true) :
    ∃ t, exec (.plumbScanFail w pat) s = .next t ∧ (t.wall w).service = .retest := by
  refine ⟨_, congrArg Host.Outcome.next (if_neg (by simp [hservice, hscanned])), ?_⟩
  dsimp only
  rw [State.wall_lifeAdd, State.wall_setWall_self]

theorem cleared_of_empty (h : ∀ q < 3, s.seats w q = [] ∧ (s.plane w q).st ≠ .streaming) : s.cleared w = true := by
  refine List.all_eq_true.2 fun q hq => ?_
  obtain ⟨hseats, hst⟩ := h q (List.mem_range.1 hq)
  simp [hseats, hst]

/-! Retirement. -/

/-- The wall's planes are empty, and its channels are remembered. -/
def emptied (s : State) (w : Nat) : State := ([0, 1, 2].foldl (fun s p => s.setPlane w p Plane.zero) s).rememberChans w

theorem emptied_plane (s : State) (w : Nat) {q : Nat} (hq : q < 3) : (emptied s w).plane w q = Plane.zero := by
  have hplane : (emptied s w).plane w q = (((s.setPlane w 0 Plane.zero).setPlane w 1 Plane.zero).setPlane w 2 Plane.zero).plane w q := rfl
  rw [hplane]
  by_cases h2 : q = 2
  · rw [h2, State.plane_setPlane_self]
  · rw [State.plane_setPlane_other _ _ (by omega)]
    by_cases h1 : q = 1
    · rw [h1, State.plane_setPlane_self]
    · rw [State.plane_setPlane_other _ _ (by omega), show q = 0 by omega, State.plane_setPlane_self]

/-- A spare of the die has taken the number of a wall whose planes are gone; `at_` is where its scratchpads begin (R385). -/
def spareTakes (g : State) (w at_ : Nat) (d : Die) : State :=
  let s := ((g.blank at_ (3 * 0x100000)).clearTags at_ (3 * 0x100000)).setDie (w / 48) { d with spares := d.spares - 1 }
  let m := s.monitor
  let s := { s with monitor := { m with lifeNow := Sparse.set m.lifeNow 6 ((List.range 4).map (fun k => (s.die k).spares)).sum 0 } }
  s.setWall w { Wall.zero with service := .spare, phys := some (50 - d.spares), lastScan := (s.wall w).lastScan }

theorem spareTakes_spec (g : State) (w at_ : Nat) (d : Die) : (spareTakes g w at_ d).planes = g.planes ∧
    ((spareTakes g w at_ d).wall w).service = .spare ∧ ((spareTakes g w at_ d).die (w / 48)).spares = d.spares - 1 := by
  have hblank := g.sameHouse_blank at_ (3 * 0x100000)
  unfold spareTakes
  generalize g.blank at_ (3 * 0x100000) = b at hblank
  refine ⟨hblank.planes, ?_, ?_⟩
  · dsimp only
    rw [State.wall_setWall_self]
  · have hdie := Sparse.get_set b.dies (w / 48) (w / 48) { d with spares := d.spares - 1 } Die.zero
    rw [if_pos rfl] at hdie
    exact congrArg Die.spares hdie

/-- The state in which a wall's planes go: its commits are rolled back, the failure is recorded and counted (R384, R385). -/
def retireNoted (s : State) (w : Nat) : State :=
  ((((s.draw.2.failCommits w).suspectRecord 3 (BitVec.ofNat 8 s.draw.1) (s.count (w / 48)) w 0 0).lifeAdd 4 1).lifeAdd 5 1).passes

theorem exec_wallRetire (hservice : (s.wall w).service = .retest) (hscanned : s.scanned w = true) (hcleared : s.cleared w = true) :
    exec (.wallRetire w) s = .next (
      let u := retireNoted s w
      if (s.die (w / 48)).spares = 0 then ((emptied u w).setWall w { u.wall w with service := .retired, cache := [], pcache := [] }).revealAll
      else
        ((spareTakes (emptied u w) w (u.scratch w 0 0) (s.die (w / 48))).suspectRecord 4 (BitVec.ofNat 8 s.draw.1) (s.count (w / 48)) w 0 0).revealAll) :=
  congrArg Host.Outcome.next (if_neg (by simp [hservice, hscanned, hcleared]))

/-- A wall whose second scan fails is retired, and a free spare of its die takes its number (R385). -/
theorem retires (hservice : (s.wall w).service = .retest) (hscanned : s.scanned w = true) (hcleared : s.cleared w = true) :
    ∃ t, exec (.wallRetire w) s = .next t ∧ (∀ q < 3, (t.plane w q).st = .idle) ∧
      ((s.die (w / 48)).spares = 0 → (t.wall w).service = .retired) ∧
      ((s.die (w / 48)).spares ≠ 0 → (t.wall w).service = .spare ∧ (t.die (w / 48)).spares = (s.die (w / 48)).spares - 1) := by
  have hexec := exec_wallRetire hservice hscanned hcleared
  generalize retireNoted s w = u at hexec
  dsimp only at hexec
  by_cases hspares : (s.die (w / 48)).spares = 0
  · rw [if_pos hspares] at hexec
    refine ⟨_, hexec, fun q hq => ?_, fun _ => ?_, fun h => absurd hspares h⟩
    · rw [(State.sameHouse_revealAll _).plane]
      exact congrArg Plane.st (emptied_plane u w hq)
    · rw [(State.sameHouse_revealAll _).wall, State.wall_setWall_self]
  · rw [if_neg hspares] at hexec
    obtain ⟨hplanes, hwall, hdie⟩ := spareTakes_spec (emptied u w) w (u.scratch w 0 0) (s.die (w / 48))
    have hhouse := (State.sameHouse_suspectRecord (spareTakes (emptied u w) w (u.scratch w 0 0) (s.die (w / 48))) 4
      (BitVec.ofNat 8 s.draw.1) (s.count (w / 48)) w 0 0).trans (State.sameHouse_revealAll _)
    refine ⟨_, hexec, fun q hq => ?_, fun h => absurd h hspares, fun _ => ⟨?_, ?_⟩⟩
    · rw [hhouse.plane, State.plane_congr hplanes, emptied_plane u w hq]
      rfl
    · rw [hhouse.wall, hwall]
    · rw [hhouse.die, hdie]

end

/-- Settles O5: each event's branch, with what its records and revelations leave of walls, planes and dies. -/
theorem wallScans : Obligations.WallScans := by
  intro s w bay idx pat hw hbay x
  refine ⟨fun _ h => bankWakes h, fun _ h => waysWake h, fun ⟨v, hv, h⟩ => ?_, drains, fun h h' => ?_, fun h => ⟨?_, ?_, ?_⟩, fun h hs => ?_,
    fun h hs hc => ?_, fun h hc => ⟨?_, ?_⟩, scanFails, fun h => ?_, fun h hs hempty => retires h hs (cleared_of_empty hempty)⟩
  · exact congrArg Host.Outcome.next (if_pos (List.any_eq_true.2 ⟨v, hv, by rcases h with h | h <;> simp [h]⟩))
  · exact congrArg Host.Outcome.next (if_pos (.inl ⟨h, h'⟩))
  · exact congrArg Host.Outcome.next (if_pos (by simp [h]))
  · exact congrArg Host.Outcome.next (if_pos (by simp [h]))
  · exact congrArg Host.Outcome.next (if_pos (by simp [h]))
  · obtain ⟨t, hexec, hin, hlast, hmem⟩ := scanPasses (.inl h) hs
    exact ⟨t, hexec, hin, hlast, hmem h⟩
  · obtain ⟨t, hexec, hin, hlast, -⟩ := scanPasses (.inr ⟨h, hc⟩) hs
    exact ⟨t, hexec, hin, hlast⟩
  · exact congrArg Host.Outcome.next (if_pos (.inr (.inr ⟨h, by simp [hc]⟩)))
  · exact congrArg Host.Outcome.next (if_pos (.inr (.inr (by simp [hc]))))
  · exact congrArg Host.Outcome.next (if_pos (.inl h))

end Sys2Proof.WallScans
end


section
/-! SUPPORT. What the sequencers' operations leave of the state: the bytes that are moved, the entries of a queue, the placing of a course, and a pass
over a die's queues (R163, R169, R171, R313). -/

open Sys2Proof Sys2Proof.Machine

namespace Sys2Proof.Machine

/-- Only the bytes of memory and what is kept beside them may change. -/
def State.BytesOnly (s t : State) : Prop := ∃ m h r p g, t = { s with mem := m, hostMem := h, rels := r, poison := p, tags := g }

theorem State.BytesOnly.refl (s : State) : s.BytesOnly s := ⟨_, _, _, _, _, rfl⟩

theorem State.BytesOnly.trans {s t u : State} (h : s.BytesOnly t) (h' : t.BytesOnly u) : s.BytesOnly u := by
  obtain ⟨_, _, _, _, _, rfl⟩ := h
  obtain ⟨_, _, _, _, _, rfl⟩ := h'
  exact ⟨_, _, _, _, _, rfl⟩

theorem State.bytesOnly_storeNat (s : State) (a n x : Nat) : s.BytesOnly (s.storeNat a n x) := ⟨_, _, _, _, _, rfl⟩

theorem State.bytesOnly_clearTags (s : State) (a n : Nat) : s.BytesOnly (s.clearTags a n) := ⟨_, _, _, _, _, rfl⟩

theorem State.bytesOnly_blank (s : State) (a n : Nat) : s.BytesOnly (s.blank a n) := by
  unfold State.blank
  obtain ⟨h, hh⟩ := s.pastHost_eq a n
  rw [hh]
  exact ⟨_, _, _, _, _, rfl⟩

theorem State.bytesOnly_moveBytes (s : State) (src n dst : Nat) : s.BytesOnly (s.moveBytes src n dst) :=
  (s.bytesOnly_blank dst n).trans ⟨_, _, _, _, _, rfl⟩

theorem State.bytesOnly_writeArea (s : State) (a n : Nat) (fs : List (Nat × Nat × Nat)) : s.BytesOnly (s.writeArea a n fs) := by
  unfold State.writeArea State.putFields
  refine List.foldlRecOn (motive := fun (t : State) => s.BytesOnly t) _ _ (s.bytesOnly_blank a n) fun t ht f _ => ht.trans ?_
  exact t.bytesOnly_storeNat _ _ _

theorem State.bytesOnly_dropGated (s : State) (w p : Nat) (banks : DWord) : s.BytesOnly (s.dropGated w p banks) := by
  unfold State.dropGated
  split
  · exact .refl s
  · exact ⟨_, _, _, _, _, rfl⟩

theorem State.bytesOnly_copyRels (s : State) (a n b : Nat) : s.BytesOnly (s.copyRels a n b) := by
  unfold State.copyRels
  split
  · exact .refl s
  · exact ⟨_, _, _, _, _, rfl⟩

/-! Launches and queues. -/

theorem State.queue_setQueue (s : State) (q j : Nat) (x : LQueue) : (s.setQueue q x).queue j = if j = q then x else s.queue j :=
  Sparse.get_set s.queues q j x LQueue.zero

theorem State.queue_congr {s t : State} (h : t.queues = s.queues) (q : Nat) : t.queue q = s.queue q := by
  unfold State.queue
  rw [h]

theorem State.launch_modLaunch {s t : State} {n : Nat} (hl : t.launches = s.launches) (h : n < s.launches.length) (f : Launch → Launch) :
    (t.modLaunch n f).launch n = f (s.launch n) := by
  simp [State.launch, State.modLaunch, hl, h]

/-! Placing (R163, R171). -/

/-- Plane data of a launch changes bytes of memory and planes alone. -/
theorem State.install_eq (s : State) (n w p : Nat) : ∃ t, s.BytesOnly t ∧ ∃ pls, s.install n w p = { t with planes := pls } := by
  unfold State.install
  dsimp only
  split
  · exact ⟨s, .refl s, _, rfl⟩
  · exact ⟨_, ((s.bytesOnly_moveBytes _ _ _).trans (State.bytesOnly_dropGated _ _ _ _)).trans (State.bytesOnly_clearTags _ _ _), _, rfl⟩

/-- A course that takes a place alone is one agent more and one course of its launch placed. -/
theorem State.placeCourse_spec {s : State} {n : Nat} (h : n < s.launches.length) (w p : Nat) (make : DWord → Course) :
    let t := s.placeCourse n w p none make
    t.queues = s.queues ∧ t.agents.length = s.agents.length + 1 ∧ (t.launch n).placed = (s.launch n).placed + 1 ∧
      (t.launch n).queue = (s.launch n).queue ∧ (t.launch n).hdr = (s.launch n).hdr := by
  obtain ⟨t, ⟨_, _, _, _, _, rfl⟩, _, ht⟩ := s.install_eq n w p
  unfold State.placeCourse
  rw [ht]
  refine ⟨rfl, by simp [State.agents, State.addCourse, State.modLaunch], ?_⟩
  dsimp only
  rw [State.launch_modLaunch (s := s) ?same h]
  case same => rfl
  exact ⟨rfl, rfl, rfl⟩

theorem State.length_of_bayPlaces {s : State} {n bay k : Nat} {ps : List (Nat × Nat)} (h : s.bayPlaces n bay k false = some ps) : ps.length = k := by
  unfold State.bayPlaces at h
  simp only [Bool.false_eq_true, if_false, Option.ite_none_left_eq_some, Option.some.injEq, Nat.not_lt] at h
  obtain ⟨hroom, rfl⟩ := h
  exact List.length_take_of_le hroom

/-- The one course of a launch that is placed alone takes one place. -/
theorem State.placeFresh_one {s u : State} {n : Nat} (hcount : (s.launch n).hdr.gcnt = 1) (hplaced : (s.launch n).placed = 0)
    (hgroups : (s.launch n).groups = 0) (halone : s.pairQueue (s.launch n).queue = false) (hu : s.placeFresh n = some u) :
    ∃ w p make, u = (s.modLaunch n (fun l => { l with pairQ := false })).placeCourse n w p none make := by
  have hpair : s.asPairs n = false := by simp [State.asPairs, hplaced, hgroups, halone]
  unfold State.placeFresh at hu
  dsimp only at hu
  have hk : min (max 1 (s.launch n).hdr.cluster) ((s.launch n).hdr.gcnt - (s.launch n).placed) = 1 := by omega
  rw [hpair, hk] at hu
  obtain ⟨bay, -, hbay⟩ := List.exists_of_findSome?_eq_some hu
  obtain ⟨ps, hps, rfl⟩ := Option.map_eq_some_iff.mp hbay
  obtain ⟨⟨w, p⟩, rfl⟩ := List.length_eq_one_iff.mp (State.length_of_bayPlaces hps)
  rw [show List.range 1 = [0] from rfl, List.foldl_cons, List.foldl_nil]
  exact ⟨w, p, _, rfl⟩

/-! Passes (R169, R171). -/

theorem State.settleHead_of_head {s : State} {q : Nat} (h : (s.queue q).head.isSome = true) (fuel : Nat) : State.settleHead q fuel s = s := by
  cases fuel with
  | zero => rfl
  | succ n => exact if_pos h

theorem State.settleHead_of_empty {s : State} {q : Nat} (h : (s.queue q).ents = []) (fuel : Nat) : State.settleHead q fuel s = s := by
  cases fuel with
  | zero => rfl
  | succ n =>
    unfold State.settleHead
    simp [State.nextHead, h]

/-- No queue of a die has its head changed where each has one, or has no entry. -/
theorem State.settleHeads {s : State} {die : Nat} (h : ∀ k < 16, (s.queue (16 * die + k)).head.isSome = true ∨ (s.queue (16 * die + k)).ents = []) :
    (List.range 16).foldl (fun s k => State.settleHead (16 * die + k) ((s.queue (16 * die + k)).ents.length + 1) s) s = s := by
  refine List.foldlRecOn (motive := fun (t : State) => t = s) _ _ rfl fun t ht k hk => ?_
  rw [ht]
  rcases h k (List.mem_range.mp hk) with hhead | hents
  · exact State.settleHead_of_head hhead _
  · exact State.settleHead_of_empty hents _

theorem State.bestQueue_none {s : State} {die : Nat} (h : ∀ k < 16, (s.queue (16 * die + k)).head = none) (blocked : List Nat) :
    s.bestQueue die blocked = none := by
  unfold State.bestQueue
  refine List.foldlRecOn (motive := fun b => b = none) _ _ rfl fun b hb q hq => ?_
  obtain ⟨k, hk, rfl⟩ := List.mem_map.mp hq
  rw [h k (List.mem_range.mp hk), hb]
  exact ite_self none

/-- The one queue of a die that has a head is the best. -/
theorem State.bestQueue_single {s : State} {die p n : Nat} (hp : p < 16) (hhead : (s.queue (16 * die + p)).head = some n)
    (hothers : ∀ k < 16, k ≠ p → (s.queue (16 * die + k)).head = none) : s.bestQueue die [] = some (16 * die + p, n) := by
  unfold State.bestQueue
  have hl : ∀ k ∈ List.range 16, k ≠ p → (s.queue (16 * die + k)).head = none := fun k hk => hothers k (List.mem_range.mp hk)
  have hmem : p ∈ List.range 16 := List.mem_range.mpr hp
  rw [List.foldl_map]
  obtain ⟨b, hnone⟩ : ∃ b : Option (Nat × Nat), b = none := ⟨_, rfl⟩
  rw [← hnone]
  have hb : b = some (16 * die + p, n) ∨ b = none ∧ p ∈ List.range 16 := .inr ⟨hnone, hmem⟩
  clear hmem hnone
  revert hl hb
  generalize List.range 16 = l
  intro hl hb
  induction l generalizing b with
  | nil => exact hb.resolve_right fun h => List.not_mem_nil h.2
  | cons k ks ih =>
    refine ih _ (fun j hj => hl j (List.mem_cons_of_mem k hj)) ?_
    simp only [List.contains_nil, Bool.false_eq_true, if_false]
    by_cases hk : k = p
    · left
      rcases hb with rfl | ⟨rfl, -⟩
      · simp [hk, hhead]
      · simp [hk, hhead]
    · rw [hl k List.mem_cons_self hk]
      exact hb.imp_right fun h => ⟨h.1, (List.mem_cons.mp h.2).resolve_left (Ne.symm hk)⟩

/-- A value by recursion on a number, one step unfolded. -/
theorem brecOn_succ {α : Type} (f : (n : Nat) → Nat.below (motive := fun _ => α) n → α) (n : Nat) :
    ∃ b, Nat.brecOn (motive := fun _ => α) (n + 1) f = f (n + 1) (PProd.mk (Nat.brecOn n f) b) := ⟨_, rfl⟩

/-- A pass, one step unfolded. The equation that Lean derives for it takes too long to prove, since it evaluates what settles the sixteen heads. -/
theorem State.passLoop_succ (die fuel : Nat) :
    ∃ b, State.passLoop die (fuel + 1) = State.passLoop._f die (fuel + 1) (PProd.mk (State.passLoop die fuel) b) := by
  delta State.passLoop
  with_reducible exact brecOn_succ (State.passLoop._f die) fuel

/-- A pass ends once no queue has a head that it considers. -/
theorem State.passLoop_none {s : State} {die : Nat} {blocked : List Nat}
    (hheads : ∀ k < 16, (s.queue (16 * die + k)).head.isSome = true ∨ (s.queue (16 * die + k)).ents = [])
    (hbest : s.bestQueue die blocked = none) (fuel : Nat) : State.passLoop die fuel blocked s = s := by
  cases fuel with
  | zero => rfl
  | succ m =>
    obtain ⟨b, hb⟩ := State.passLoop_succ die m
    rw [hb]
    delta State.passLoop._f
    dsimp only
    rw [State.settleHeads hheads, hbest]

/-- A pass whose best head is a fresh launch, and the last of its courses to be placed, goes on with the next head. -/
theorem State.passLoop_places {s u t : State} {die q n : Nat} {blocked : List Nat}
    (hheads : ∀ k < 16, (s.queue (16 * die + k)).head.isSome = true ∨ (s.queue (16 * die + k)).ents = [])
    (hbest : s.bestQueue die blocked = some (q, n)) (hfresh : (s.launch n).hdr.fresh = true) (hu : s.placeFresh n = some u)
    (ht : u.setQueue q { u.queue q with since := none, closed := false } = t) (hall : t.allPlaced n = true) (fuel : Nat) :
    State.passLoop die (fuel + 1) blocked s = State.passLoop die fuel blocked (t.dropEnt n) := by
  obtain ⟨b, hb⟩ := State.passLoop_succ die fuel
  rw [hb]
  delta State.passLoop._f
  dsimp only
  rw [State.settleHeads hheads, hbest]
  dsimp only
  rw [if_pos hfresh, hu]
  dsimp only
  rw [ht, if_pos hall]

end Sys2Proof.Machine

end


section
/-! SUPPORT. The events of the command sequencers: a pass that places a course, doorbells, the reset of a queue, and answers to page requests (R169 to
R172, R313, R314, R390). -/

open Sys2Proof Sys2Proof.Machine

namespace Sys2Proof.DeviceEventsComplete

variable {s : State} {die p n q : Nat}

theorem passes_alone (hshelf : s.shelf = []) (hpaired : ∀ c ∈ s.agents, c.lonely = false) : exec (.placementPass die) s = .next
    (State.passLoop die (65537 * ((s.queues.map (fun e => e.2.ents.length)).sum + 1)) [] s) := by
  have hhome : s.homeless = [] := by simp [State.homeless, hshelf]
  have hseat : s.seatPartners die = s := by
    have hnone : s.agents.filter (fun c => c.lonely && dieOf c.wall == die) = [] := List.filter_eq_nil_iff.mpr fun c hc => by simp [hpaired c hc]
    unfold State.seatPartners
    rw [hnone]
    rfl
  change execPlacementPass die s = _
  unfold execPlacementPass
  dsimp only
  rw [hhome, List.filter_nil, List.foldl_nil, hseat]

/-- The one entry of a die's queues, a launch of one course, is placed by a pass, and no entry is left. -/
theorem passPlacesOne {u : State} (hp : p < 16) (hshelf : s.shelf = []) (hpaired : ∀ c ∈ s.agents, c.lonely = false)
    (hothers : ∀ j < 16, j ≠ p → s.queue (16 * die + j) = LQueue.zero) (hhead : (s.queue (16 * die + p)).head = some n)
    (hents : (s.queue (16 * die + p)).ents = [n]) (hn : n < s.launches.length) (hqueue : (s.launch n).queue = 16 * die + p)
    (hfresh : (s.launch n).hdr.fresh = true) (hu : s.placeFresh n = some u) (hcount : (s.launch n).hdr.gcnt = 1)
    (hplaced : (s.launch n).placed = 0) (hgroups : (s.launch n).groups = 0) (halone : s.pairQueue (16 * die + p) = false) :
    ∃ t, exec (.placementPass die) s = .next t ∧ (t.queue (16 * die + p)).head = none ∧ (t.launch n).placed = 1 ∧
      t.agents.length = s.agents.length + 1 := by
  obtain ⟨w, pl, make, rfl⟩ := State.placeFresh_one hcount hplaced hgroups (hqueue ▸ halone) hu
  obtain ⟨hqueues, hagents, hone, hq, hhdr⟩ := State.placeCourse_spec
    (s := s.modLaunch n (fun l => { l with pairQ := false })) (n := n) (by simpa [State.modLaunch] using hn) w pl make
  rw [State.launch_modLaunch rfl hn] at hone hq hhdr
  generalize (s.modLaunch n (fun l => { l with pairQ := false })).placeCourse n w pl none make = u at *
  replace hqueues : u.queues = s.queues := hqueues
  have hzero {j : Nat} (hj : j < 16) (hjp : j ≠ p) : u.queue (16 * die + j) = LQueue.zero :=
    (State.queue_congr hqueues _).trans (hothers j hj hjp)
  have hheads : ∀ k < 16, (s.queue (16 * die + k)).head.isSome = true ∨ (s.queue (16 * die + k)).ents = [] := fun k hk => by
    by_cases hkp : k = p
    · exact .inl (by rw [hkp, hhead]; rfl)
    · exact .inr (by rw [hothers k hk hkp]; rfl)
  have hbest : s.bestQueue die [] = some (16 * die + p, n) :=
    State.bestQueue_single hp hhead fun k hk hkp => by rw [hothers k hk hkp]; rfl
  obtain ⟨m, hm⟩ := Nat.exists_eq_succ_of_ne_zero (n := 65537 * ((s.queues.map (fun e => e.2.ents.length)).sum + 1)) (by omega)
  obtain ⟨t, ht⟩ : ∃ t, u.setQueue (16 * die + p) { u.queue (16 * die + p) with since := none, closed := false } = t := ⟨_, rfl⟩
  have hlaunch : t.launch n = u.launch n := by rw [← ht]; rfl
  have htq (k : Nat) : t.queue k = if k = 16 * die + p then { u.queue (16 * die + p) with since := none, closed := false } else u.queue k := by
    rw [← ht]
    exact State.queue_setQueue _ _ _ _
  have hall : t.allPlaced n = true := by
    unfold State.allPlaced
    simp [hlaunch, hhdr, hfresh, hcount, hone]
  have hdropped (k : Nat) (hk : k < 16) : ((t.dropEnt n).queue (16 * die + k)).head = none ∧ ((t.dropEnt n).queue (16 * die + k)).ents = [] := by
    unfold State.dropEnt
    dsimp only
    rw [hlaunch, hq, hqueue, State.queue_setQueue, htq (16 * die + p), if_pos rfl, State.queue_congr hqueues]
    by_cases hkp : k = p
    · rw [if_pos (by rw [hkp])]
      simp [hhead, hents]
    · rw [if_neg (by omega), htq, if_neg (by omega), hzero hk hkp]
      exact ⟨rfl, rfl⟩
  refine ⟨t.dropEnt n, ?_, (hdropped p hp).1, ?_, ?_⟩
  · rw [passes_alone hshelf hpaired, hm, State.passLoop_places hheads hbest hfresh hu ht hall,
      State.passLoop_none (fun k hk => .inr (hdropped k hk).2) (State.bestQueue_none (fun k hk => (hdropped k hk).1) _)]
  · change (t.launch n).placed = 1
    rw [hlaunch, hone]
    simp [hplaced]
  · rw [← ht]
    exact hagents

/-- A queue closes its region once its head is blocked for the age limit. -/
theorem headAgeExpires {t0 : DWord} (hsince : (s.queue q).since = some t0) (hage : t0.toNat + Config.ageLimit ≤ (s.count (queueDie q)).toNat) :
    ∃ t, exec (.headAgeExpire q) s = .next t ∧ (t.queue q).closed = true := by
  have hshut : s.shut q (s.queue q) = true := by
    unfold State.shut
    rw [hsince]
    simp [State.qtick, hage]
  refine ⟨s.setQueue q { s.queue q with closed := true }, congrArg Host.Outcome.next (if_pos hshut), ?_⟩
  rw [State.queue_setQueue, if_pos rfl]

/-! Doorbells (R168, R313). -/

theorem entryBad_congr {s t : State} (h : t.mem = s.mem) (a : Nat) : t.entryBad a = s.entryBad a := by
  unfold State.entryBad State.num State.loadNat State.load State.byte
  rw [h]

/-- An entry that breaks no rule is one launch more. -/
theorem arriveEntry_launches {a : Nat} (hgood : s.entryBad a = false) : (s.arriveEntry q a).launches.length = s.launches.length + 1 := by
  have hfeat : (s.takeFeatures (s.qasid q)).launches = s.launches ∧ (s.takeFeatures (s.qasid q)).mem = s.mem := by
    unfold State.takeFeatures
    split <;> exact ⟨rfl, rfl⟩
  unfold State.arriveEntry
  dsimp only
  rw [if_neg]
  · rw [← hfeat.1]
    exact List.length_append
  · rw [entryBad_congr (s := s) ?mem, hgood]
    case mem => exact hfeat.2
    exact Bool.false_ne_true

theorem readQueue_one (hopen : s.num (s.qdesc q) 22 2 % 2 = 1) (hsize : s.num (s.qdesc q) 8 4 ≠ 0)
    (hnew : (s.num (s.qdesc q) 12 4 + 2 ^ 33 - (s.num (s.qdesc q) 16 4 + s.inRing q)) % 2 ^ 32 = 1)
    (hgood : s.entryBad (s.num (s.qdesc q) 0 8 + 64 * ((s.num (s.qdesc q) 16 4 + s.inRing q) % s.num (s.qdesc q) 8 4)) = false) :
    (s.readQueue q).launches.length = s.launches.length + 1 := by
  have hbit : ebit (s.num (s.qdesc q) 22 2) 0 = true := by simpa [ebit] using hopen
  have hmin : min (s.num (s.qdesc q) 8 4) 1 = 1 := by omega
  unfold State.readQueue
  dsimp only
  rw [if_neg (by simp [hbit, hsize]), hnew, hmin, show List.range 1 = [0] from rfl, List.foldl_cons, List.foldl_nil, arriveEntry_launches]
  · simp
  · exact (entryBad_congr (s := s) rfl _).trans hgood

theorem lqbellTakesOne {v : Word} (hv : v.toNat ≤ 63) (hread : (s.readQueue v.toNat).launches.length = s.launches.length + 1) :
    ∃ t, exec (.lqbellWrite v) s = .next t ∧ t.launches.length = s.launches.length + 1 :=
  ⟨_, congrArg Host.Outcome.next (if_neg (Nat.not_lt.mpr hv)), hread⟩

/-- A queue that is reset is as at reset. -/
theorem lqrstEmpties {v : Word} (hv : v.toNat ≤ 63) : ∃ t, exec (.lqrstWrite v) s = .next t ∧ t.queue v.toNat = LQueue.zero := by
  have hexec : exec (.lqrstWrite v) s = execLqrstWrite v s := rfl
  unfold execLqrstWrite at hexec
  dsimp only at hexec
  rw [if_neg (by omega : ¬ 63 < v.toNat)] at hexec
  refine ⟨_, hexec, ?_⟩
  generalize List.foldl _ (s.readQueue v.toNat) _ = t
  exact (t.queue_setQueue v.toNat v.toNat LQueue.zero).trans (if_pos rfl)

/-! Answers to page requests (R283, R314). -/

theorem ofBytesLE_lt (bs : List Byte) : ofBytesLE bs < 256 ^ bs.length := by
  induction bs with
  | nil => exact Nat.one_pos
  | cons b r ih =>
    have hb : b.toNat < 256 := b.isLt
    simp only [ofBytesLE, List.length_cons, pow_succ]
    omega

theorem loadNat_lt (s : State) (a n : Nat) : s.loadNat a n < 256 ^ n := by
  simpa [State.loadNat, State.load] using ofBytesLE_lt (s.load a n)

/-- The answer of a page request stands in its list entry. -/
theorem loadNat_answerEntry (s : State) (list : List Nat) (i code : Nat) (hcode : code < 4) :
    (s.answerEntry list i code).loadNat (list.getD i 0) 8 = s.loadNat (list.getD i 0) 8 / 4 * 4 + code := by
  have hlt : s.loadNat (list.getD i 0) 8 < 256 ^ 8 := loadNat_lt s _ 8
  unfold State.answerEntry
  dsimp only
  rw [State.loadNat_storeNat]
  exact Nat.mod_eq_of_lt (by omega)

theorem pgansAnswers {v : Word} {work : Work} {list : List Nat} {e : Nat × Nat} (hcode : v.toNat % 4 ≠ 0) (hparked : s.parked = [])
    (hwork : s.cur.work = [work]) (hact : work.act = .pgreq list n [e]) (hkey : e.1 % 2 ^ 30 = v.toNat / 4) :
    ∃ t, exec (.pgansWrite v) s = .next t ∧
      t.loadNat (list.getD e.2 0) 8 = s.loadNat (list.getD e.2 0) 8 / 4 * 4 + v.toNat % 4 := by
  have hexec : exec (.pgansWrite v) s = execPgansWrite v s := rfl
  unfold execPgansWrite at hexec
  dsimp only at hexec
  have hagents : s.agents = [s.cur] := by simp [State.agents, hparked]
  rw [if_neg hcode, hagents] at hexec
  simp only [List.findSome?_cons, hwork, hact, List.find?_cons, hkey, beq_self_eq_true, Option.map_some] at hexec
  refine ⟨_, hexec, ?_⟩
  rw [← loadNat_answerEntry s list e.2 (v.toNat % 4) (by omega)]
  split <;> rfl

end Sys2Proof.DeviceEventsComplete

end


section
/-! SUPPORT. The events of planes: a switch, and the streams of a plane that its sequencer moves (R17, R166, R167, R382). -/

open Sys2Proof Sys2Proof.Machine

namespace Sys2Proof.Machine

theorem State.BytesOnly.planes {s t : State} (h : s.BytesOnly t) : t.planes = s.planes := by obtain ⟨_, _, _, _, _, rfl⟩ := h; rfl
theorem State.BytesOnly.agents {s t : State} (h : s.BytesOnly t) : t.agents = s.agents := by obtain ⟨_, _, _, _, _, rfl⟩ := h; rfl

theorem State.agents_modWhere (s : State) (q : Course → Bool) (f : Course → Course) :
    (s.modWhere q f).agents = s.agents.map (fun c => if q c then f c else c) := rfl

theorem State.plane_passes (s : State) (w p : Nat) : s.passes.plane w p = s.plane w p := rfl

/-- The answer of a context request leaves every plane as it is. -/
theorem State.planes_answerCtx (s : State) (who : DWord) (k : Work) (status : Nat) : (s.answerCtx who k status).planes = s.planes := by
  unfold State.answerCtx
  split
  · exact (State.within_keeps (f := fun s => s.modC (fun c => c.finish k)) State.planes (fun _ _ _ => rfl) (fun _ => rfl) _ who).trans (s.bytesOnly_writeArea _ _ _).planes
  · rfl

theorem State.planes_settleCtx (s : State) (w : Nat) (asks : Nat → Nat → DWord → Bool) : (s.settleCtx w asks).planes = s.planes := by
  unfold State.settleCtx
  dsimp only
  split
  · split
    · split
      · exact s.planes_answerCtx _ _ _
      · rfl
    · rfl
  · rfl

theorem State.bytesOnly_shelveRels (s : State) (w p key : Nat) : s.BytesOnly (s.shelveRels w p key) :=
  (s.bytesOnly_copyRels _ _ _).trans (State.bytesOnly_copyRels _ _ _ _)

theorem State.scanAgain_eq (s : State) (w : Nat) : ∃ ws, s.scanAgain w = { s with walls := ws } := by
  unfold State.scanAgain
  split
  · exact ⟨_, rfl⟩
  · exact ⟨s.walls, rfl⟩

end Sys2Proof.Machine

namespace Sys2Proof.DeviceEventsComplete

variable {s : State} {w p : Nat}

theorem st_activate : ((s.activate w p).plane w p).st = .active :=
  congrArg Plane.st (s.plane_setPlane_self w p { s.plane w p with st := .active, wantActive := false, heldPlane := false })

/-- The one Ready plane of a wall in service becomes Active where none is. -/
theorem switchCompletes (hserving : s.serving w = true) (hnone : s.activePlane w = none) (hready : s.planesIn w .ready = [p]) :
    ∃ t, exec (.planeSwitchComplete w) s = .next t ∧ (t.plane w p).st = .active := by
  have hpick : (([p].find? (fun q => (s.plane w q).heldPlane)).or [p].head?) = some p := by
    cases h : (s.plane w p).heldPlane <;> simp [h]
  have hexec : exec (.planeSwitchComplete w) s = execPlaneSwitchComplete w s := rfl
  unfold execPlaneSwitchComplete at hexec
  dsimp only at hexec
  rw [if_neg (by simp [hserving])] at hexec
  simp only [hnone, hready, hpick] at hexec
  refine ⟨_, hexec, ?_⟩
  have hdeact : s.deactivate w false = s := by unfold State.deactivate; rw [hnone]
  rw [hdeact]
  generalize Option.isSome none = b
  have hst : (((s.activate w p).countEvent w 14 (if b then 1 else 0)).plane w p).st = .active := by
    rw [State.plane_congr (State.countEvent_planes _ _ _ _)]
    exact st_activate
  refine Eq.trans ?_ hst
  split
  · rfl
  · exact congrArg Plane.st (State.plane_congr (State.planes_settleCtx _ _ _) w p)

theorem streamOutBegins {i : Option DWord} {n : Nat} {e : Option Nat} {b : Bool} (hstream : (s.plane w p).stream = some ⟨false, i, n, e, b⟩)
    (hready : (s.plane w p).st = .ready) (hidle : s.planesIn w .streaming = []) (hquiet : s.quiet w p = true) :
    ∃ t, exec (.streamOutBegin w p) s = .next t ∧ (t.plane w p).st = .streaming := by
  have hexec : exec (.streamOutBegin w p) s = execStreamOutBegin w p s := rfl
  unfold execStreamOutBegin at hexec
  rw [hstream] at hexec
  dsimp only at hexec
  rw [if_neg (by simp [hready, hidle, hquiet])] at hexec
  refine ⟨_, hexec, ?_⟩
  rw [State.plane_passes, State.plane_setPlane_self]

/-- A plane that its sequencer moves out is Idle, and no course resides there any more. -/
theorem streamOutCompletes {n : Nat} {e : Option Nat} {b : Bool} (hst : (s.plane w p).st = .streaming)
    (hstream : (s.plane w p).stream = some ⟨false, none, n, e, b⟩) :
    ∃ t, exec (.streamOutComplete w p) s = .next t ∧ (t.plane w p).st = .idle ∧ t.residents w p = [] := by
  have hexec : exec (.streamOutComplete w p) s = execStreamOutComplete w p s := rfl
  unfold execStreamOutComplete at hexec
  rw [hst, hstream] at hexec
  dsimp only at hexec
  refine ⟨_, hexec, ?_⟩
  clear hexec
  have hbytes := (s.bytesOnly_moveBytes (s.scratch w p 0) 0x100000 (movedBytes (movedKey w p))).trans
    (State.bytesOnly_shelveRels _ w p (movedKey w p))
  generalize (s.moveBytes (s.scratch w p 0) 0x100000 (movedBytes (movedKey w p))).shelveRels w p (movedKey w p) = s1 at *
  generalize Sparse.put s1.shelf (movedKey w p) (s.plane w p) = sh
  generalize hleft : State.modWhere { s1 with shelf := sh } _ _ = s2
  obtain ⟨ws, hws⟩ := ((s2.unseatTwins w p).setPlane w p (s.plane w p).left).scanAgain_eq w
  rw [hws]
  constructor
  · exact congrArg Plane.st (State.plane_setPlane_self (s2.unseatTwins w p) w p _)
  · refine List.filter_eq_nil_iff.mpr fun c hc => ?_
    change c ∈ (s2.unseatTwins w p).agents at hc
    rw [State.unseatTwins, State.agents_modWhere, ← hleft, State.agents_modWhere, List.map_map] at hc
    obtain ⟨d, -, rfl⟩ := List.mem_map.mp hc
    have hres : d.sys.isNone && d.resident && d.wall == w && d.plane == p → d.resident && d.sys.isNone && d.wall == w && d.plane == p := by
      simp only [Bool.and_eq_true]
      tauto
    by_cases hd : d.resident && d.sys.isNone && d.wall == w && d.plane == p
    · simp only [Function.comp_apply, if_pos hd]
      split <;> simp [Course.leaving]
    · simp only [Function.comp_apply, if_neg hd]
      split <;> exact fun h => hd (hres h)

theorem streamInCompletes {n : Nat} {e : Option Nat} {b : Bool} (hst : (s.plane w p).st = .streaming)
    (hstream : (s.plane w p).stream = some ⟨true, none, n, e, b⟩) (hstill : ∀ c ∈ s.agents, c.moving = false) :
    ∃ t, exec (.streamInComplete w p) s = .next t ∧ (t.plane w p).st = .ready := by
  have hnone : s.agents.filter (fun c => c.moving && 3 * c.wall + c.plane == n) = [] :=
    List.filter_eq_nil_iff.mpr fun c hc => by simp [hstill c hc]
  have hexec : exec (.streamInComplete w p) s = execStreamInComplete w p s := rfl
  unfold execStreamInComplete at hexec
  rw [hst, hstream] at hexec
  dsimp only at hexec
  rw [hnone, List.foldl_nil] at hexec
  refine ⟨_, hexec, ?_⟩
  refine (congrArg Plane.st ((State.sameHouse_blank (State.endIn s w p _ _ _ _) _ 0x100000).plane w p)).trans ?_
  exact congrArg Plane.st (State.plane_setPlane_self _ w p _)

end Sys2Proof.DeviceEventsComplete

end


section
/-! SUPPORT. The events of a bay's slice: a sector that is written back, and a granule that comes in (R105, R122). -/

open Sys2Proof Sys2Proof.Machine

namespace Sys2Proof.Machine

/-- A way of a slice that holds a line. -/
def State.holdsLine (s : State) (b line way : Nat) : Bool := (s.bayLine b line way).valid != 0 && (s.bayLine b line way).line == line

theorem State.wayOf_eq_some (s : State) (b line w : Nat) :
    s.wayOf b line = some w ↔ s.holdsLine b line w = true ∧ w < 16 ∧ ∀ j < w, s.holdsLine b line j = false := by
  unfold State.wayOf State.holdsLine
  simp only [List.find?_range_eq_some, List.mem_range, Bool.not_eq_true']

theorem hasBit_eq_testBit (x n : Nat) : hasBit x n = x.testBit n := by
  rw [Nat.testBit_eq_decide_div_mod_eq]
  rfl

theorem State.mergedHome_eq (s : State) (ns : List Nat) : ∃ h, s.mergedHome ns = { s with hostMem := h } := by
  unfold State.mergedHome
  split
  · exact ⟨s.hostMem, rfl⟩
  · exact ⟨_, rfl⟩

theorem State.bayLine_setLine (s : State) (b line way j : Nat) {x : BayLine} (h : x.valid ≠ 0) :
    (s.setLine b line way x).bayLine b line j = if j = way then x else s.bayLine b line j := by
  unfold State.setLine State.bayLine
  rw [if_neg h, Sparse.get_set]
  have hkey : lineKey b line j = lineKey b line way ↔ j = way := by
    unfold lineKey
    omega
  simp only [hkey]

/-- The way that a line takes is one of the slice's, where its first pair is on. -/
theorem State.victim_spec {s : State} {b : Nat} (hon : s.wayOn b 0 = true) (line : Nat) :
    ∃ w < 16, ∃ f, s.victim b line = (some w, { s with free := f }) := by
  have hways {w : Nat} (h : w ∈ (List.range 16).filter (s.wayOn b)) : w < 16 := List.mem_range.mp (List.mem_filter.mp h).1
  have hmem : 0 ∈ (List.range 16).filter (s.wayOn b) := List.mem_filter.mpr ⟨List.mem_range.mpr (by decide), hon⟩
  unfold State.victim
  dsimp only
  split
  · next w hw => exact ⟨w, hways (List.mem_of_find?_eq_some hw), s.free, rfl⟩
  · generalize (List.range 16).filter (s.wayOn b) = ws at *
    obtain ⟨pool, hpool⟩ : ∃ pool, (if ws.filter (fun w => !(s.bayLine b line w).keep) = [] then ws
        else ws.filter (fun w => !(s.bayLine b line w).keep)) = pool := ⟨_, rfl⟩
    have hne : pool ≠ [] := by
      rw [← hpool]
      split
      · exact List.ne_nil_of_mem hmem
      · assumption
    have hsub : ∀ w ∈ pool, w ∈ ws := by
      rw [← hpool]
      split
      · exact fun _ h => h
      · exact fun _ h => (List.mem_filter.mp h).1
    have hlt : Config.freeNat s.free % pool.length < pool.length := Nat.mod_lt _ (List.length_pos_iff.mpr hne)
    rw [hpool, List.getElem?_eq_getElem hlt]
    exact ⟨_, hways (hsub _ (List.getElem_mem hlt)), _, rfl⟩

/-- Sectors of a line come into one way of a slice: the first that holds the line, or one that takes it. -/
theorem State.fillLine_spec {s : State} {b mask : Nat} (hon : s.wayOn b 0 = true) (hmask : mask ≠ 0) (line : Nat) (keep : Bool) :
    ∃ w < 16, ∃ x : BayLine, x.line = line ∧ (∃ old, x.valid = old ||| mask) ∧ (∀ j < w, s.holdsLine b line j = false) ∧
      ∀ k, Sparse.get (s.fillLine b line mask keep).lines k BayLine.none = if k = lineKey b line w then x else Sparse.get s.lines k BayLine.none := by
  have hor (old : Nat) : old ||| mask ≠ 0 := fun h => hmask (Nat.or_eq_zero_iff.mp h).2
  unfold State.fillLine
  split
  · next w hw =>
    obtain ⟨hholds, hlt, hbefore⟩ := (s.wayOf_eq_some b line w).mp hw
    refine ⟨w, hlt, { s.bayLine b line w with valid := (s.bayLine b line w).valid ||| mask, keep := (s.bayLine b line w).keep || keep },
      State.line_of_wayOf hw, ⟨_, rfl⟩, hbefore, fun k => ?_⟩
    dsimp only [State.setLine]
    rw [if_neg (hor _), Sparse.get_set]
  · next hnone =>
    obtain ⟨w, hlt, f, hv⟩ := State.victim_spec hon line
    rw [hv]
    obtain ⟨m, h, hd, -⟩ := State.dropLine_eq { s with free := f } b line w
    refine ⟨w, hlt, ⟨line, mask, 0, keep⟩, rfl, ⟨0, (Nat.zero_or mask).symm⟩, fun j hj => ?_, fun k => ?_⟩
    · have := List.find?_eq_none.mp hnone j (List.mem_range.mpr (hj.trans hlt))
      simpa [State.holdsLine] using this
    · dsimp only
      rw [hd]
      dsimp only [State.setLine]
      rw [if_neg hmask, Sparse.get_set]
      split
      · rfl
      · next hk => exact Sparse.get_del_other _ hk _

theorem State.bayHolds_fillLine {s : State} {b mask n : Nat} (hon : s.wayOn b 0 = true) (hbit : hasBit mask (n % 4) = true) (keep : Bool) :
    (s.fillLine b (n / 4) mask keep).bayHolds b n = true := by
  have hmask : mask ≠ 0 := by rintro rfl; simp [hasBit_eq_testBit] at hbit
  obtain ⟨w, hlt, x, hline, ⟨old, hvalid⟩, hbefore, hget⟩ := State.fillLine_spec hon hmask (n / 4) keep
  have hway (j : Nat) : (s.fillLine b (n / 4) mask keep).bayLine b (n / 4) j = if j = w then x else s.bayLine b (n / 4) j := by
    refine (hget _).trans ?_
    have hkey : lineKey b (n / 4) j = lineKey b (n / 4) w ↔ j = w := by
      unfold lineKey
      omega
    simp only [hkey]
    rfl
  have hof : (s.fillLine b (n / 4) mask keep).wayOf b (n / 4) = some w := by
    refine (State.wayOf_eq_some _ _ _ _).mpr ⟨?_, hlt, fun j hj => ?_⟩
    · have hne : old ||| mask ≠ 0 := fun h => hmask (Nat.or_eq_zero_iff.mp h).2
      simp [State.holdsLine, hway, hline, hvalid, hne]
    · simpa [State.holdsLine, hway, Nat.ne_of_lt hj] using hbefore j hj
  unfold State.bayHolds
  rw [hof]
  dsimp only
  rw [hway, if_pos rfl, hvalid, hasBit_eq_testBit, Nat.testBit_or, ← hasBit_eq_testBit mask, hbit, Bool.or_true]

/-- A line that comes into another set of a slice leaves what the slice holds of a line. -/
theorem State.bayHolds_fillLine_other {s : State} {b mask n line : Nat} (hon : s.wayOn b 0 = true) (hmask : mask ≠ 0)
    (hset : line % baySets ≠ n / 4 % baySets) (keep : Bool) : (s.fillLine b line mask keep).bayHolds b n = s.bayHolds b n := by
  obtain ⟨w, hlt, x, -, -, -, hget⟩ := State.fillLine_spec hon hmask line keep
  have hway : ∀ j < 16, (s.fillLine b line mask keep).bayLine b (n / 4) j = s.bayLine b (n / 4) j := fun j hj => by
    refine (hget _).trans (if_neg ?_)
    unfold lineKey
    omega
  have hholds : ∀ j < 16, (s.fillLine b line mask keep).holdsLine b (n / 4) j = s.holdsLine b (n / 4) j := fun j hj => by
    unfold State.holdsLine
    rw [hway j hj]
  have hof (i : Nat) : (s.fillLine b line mask keep).wayOf b (n / 4) = some i ↔ s.wayOf b (n / 4) = some i := by
    rw [State.wayOf_eq_some, State.wayOf_eq_some]
    constructor
    · rintro ⟨hi, hlt, hbefore⟩
      exact ⟨(hholds i hlt).symm.trans hi, hlt, fun j hj => (hholds j (hj.trans hlt)).symm.trans (hbefore j hj)⟩
    · rintro ⟨hi, hlt, hbefore⟩
      exact ⟨(hholds i hlt).trans hi, hlt, fun j hj => (hholds j (hj.trans hlt)).trans (hbefore j hj)⟩
  unfold State.bayHolds
  rw [Option.ext hof]
  split
  · next i hi => rw [hway i ((State.wayOf_eq_some _ _ _ _).mp hi).2.1]
  · rfl

theorem hasBit_sub_self {m n : Nat} (h : hasBit m n = true) : hasBit (m - 2 ^ n) n = false := by
  have hdiv : (m - 2 ^ n) / 2 ^ n = m / 2 ^ n - 1 := by simpa using Nat.sub_mul_div m (2 ^ n) 1
  simp only [hasBit, beq_iff_eq] at h
  simp only [hasBit, hdiv, beq_eq_false_iff_ne]
  omega

/-- The bits that a list names are set in their disjunction. -/
theorem hasBit_foldl_or {ns : List Nat} {n : Nat} (h : n ∈ ns) : hasBit (ns.foldl (fun a i => a ||| 2 ^ (i % 4)) 0) (n % 4) = true := by
  have hkeep (l : List Nat) (a : Nat) (ha : a.testBit (n % 4) = true) : (l.foldl (fun a i => a ||| 2 ^ (i % 4)) a).testBit (n % 4) = true :=
    List.foldlRecOn (motive := fun (a : Nat) => a.testBit (n % 4) = true) _ _ ha fun a ha i _ => by rw [Nat.testBit_or, ha, Bool.true_or]
  obtain ⟨before, after, rfl⟩ := List.append_of_mem h
  rw [hasBit_eq_testBit, List.foldl_append, List.foldl_cons]
  exact hkeep after _ (by rw [Nat.testBit_or, Nat.testBit_two_pow_self, Bool.or_true])

/-- Sectors of neighbouring lines come into a slice, and the slice holds each of them. -/
theorem State.bayHolds_fillAll {s : State} {b n : Nat} {ns : List Nat} (hon : s.wayOn b 0 = true) (hn : n ∈ ns)
    (hnear : ∀ m ∈ ns, m / 4 ≠ n / 4 → m / 4 % baySets ≠ n / 4 % baySets) (keep : Bool) : (s.fillAll b ns keep).bayHolds b n = true := by
  have hmask {m : Nat} (hm : m ∈ ns) : hasBit ((ns.filter (fun i => i / 4 == m / 4)).foldl (fun a i => a ||| 2 ^ (i % 4)) 0) (m % 4) = true :=
    hasBit_foldl_or (List.mem_filter.mpr ⟨hm, by simp⟩)
  have hfilled {t : State} (h : s.Filled t) : t.wayOn b 0 = true := by
    obtain ⟨_, _, _, _, _, rfl⟩ := h
    exact hon
  have hmem : n / 4 ∈ (ns.map (· / 4)).dedup := List.mem_dedup.mpr (List.mem_map_of_mem hn)
  have hlines : ∀ line ∈ (ns.map (· / 4)).dedup, ∃ m ∈ ns, m / 4 = line := fun line hl => List.mem_map.mp (List.mem_dedup.mp hl)
  unfold State.fillAll
  obtain ⟨before, after, hsplit⟩ := List.append_of_mem hmem
  rw [hsplit] at hlines ⊢
  rw [List.foldl_append, List.foldl_cons]
  have hbefore : s.Filled (before.foldl (fun s line => s.fillLine b line
      ((ns.filter (fun i => i / 4 == line)).foldl (fun a i => a ||| 2 ^ (i % 4)) 0) keep) s) :=
    List.foldlRecOn (motive := fun t => s.Filled t) _ _ (.refl s) fun t ht line _ => ht.trans (t.filled_fillLine _ _ _ _)
  refine (List.foldlRecOn (motive := fun (t : State) => s.Filled t ∧ t.bayHolds b n = true) _ _
    ⟨hbefore.trans (State.filled_fillLine _ _ _ _ _), State.bayHolds_fillLine (hfilled hbefore) (hmask hn) keep⟩
    fun t ht line hline => ⟨ht.1.trans (t.filled_fillLine _ _ _ _), ?_⟩).2
  obtain ⟨m, hm, rfl⟩ := hlines line (List.mem_append_right _ (List.mem_cons_of_mem _ hline))
  by_cases hsame : m / 4 = n / 4
  · rw [hsame]
    exact State.bayHolds_fillLine (hfilled ht.1) (hmask hn) keep
  · have hne : (ns.filter (fun i => i / 4 == m / 4)).foldl (fun a i => a ||| 2 ^ (i % 4)) 0 ≠ 0 := fun h0 => by
      have := hmask hm
      rw [h0] at this
      simp [hasBit_eq_testBit] at this
    rw [State.bayHolds_fillLine_other (hfilled ht.1) hne (hnear m hm hsame)]
    exact ht.2

/-- A read of a granule without a bad symbol changes marks of poison alone. -/
theorem State.readGranule_good (s : State) (base : Nat) (ns : List Nat) : ∃ p, s.readGranule base ns ⟨[]⟩ = { s with poison := p } := by
  unfold State.readGranule
  dsimp only
  split
  · exact ⟨_, rfl⟩
  · exact ⟨s.poison, rfl⟩

theorem granSize_cases (code : Nat) : granBytes code / 32 = 1 ∨ granBytes code / 32 = 2 ∨ granBytes code / 32 = 4 ∨ granBytes code / 32 = 16 := by
  unfold granBytes
  split
  · next h => interval_cases code <;> decide
  · decide

/-- A granule lies in at most four neighbouring lines, and so in different sets. -/
theorem granSectors_near {code n m : Nat} (hm : m ∈ granSectors code n) (hne : m / 4 ≠ n / 4) : m / 4 % baySets ≠ n / 4 % baySets := by
  unfold granSectors at hm
  obtain ⟨k, hk, rfl⟩ := List.mem_map.mp hm
  have hk := List.mem_range.mp hk
  change _ % 6144 ≠ _ % 6144
  rcases granSize_cases code with h | h | h | h <;> rw [h] at hk hne ⊢ <;> omega

theorem self_mem_granSectors (code n : Nat) : n ∈ granSectors code n := by
  unfold granSectors
  refine List.mem_map.mpr ⟨n % (granBytes code / 32), List.mem_range.mpr (Nat.mod_lt _ ?_), Nat.div_add_mod' n _⟩
  rcases granSize_cases code with h | h | h | h <;> rw [h] <;> decide

end Sys2Proof.Machine

namespace Sys2Proof.DeviceEventsComplete

variable {s : State} {bay sector : Nat}

/-- A dirty sector that is written back is clean, and no byte of memory changes. -/
theorem writesBack (hdirty : s.bayDirty bay sector = true) :
    ∃ t, exec (.bayCacheWriteback bay sector) s = .next t ∧ t.bayDirty bay sector = false ∧ t.mem = s.mem := by
  have hexec : exec (.bayCacheWriteback bay sector) s = execBayCacheWriteback bay sector s := rfl
  unfold State.bayDirty at hdirty
  unfold execBayCacheWriteback at hexec
  split at hdirty
  · next w hw =>
    rw [hw] at hexec
    dsimp only at hexec
    rw [if_pos hdirty] at hexec
    refine ⟨_, hexec, ?_⟩
    obtain ⟨hholds, hlt, hbefore⟩ := (s.wayOf_eq_some _ _ _).mp hw
    obtain ⟨h, hh⟩ := s.mergedHome_eq [sector]
    rw [hh]
    have hvalid : (s.bayLine bay (sector / 4) w).valid ≠ 0 := by
      simp only [State.holdsLine, Bool.and_eq_true, bne_iff_ne] at hholds
      exact hholds.1
    obtain ⟨x, hx⟩ : ∃ x, { s.bayLine bay (sector / 4) w with dirty := (s.bayLine bay (sector / 4) w).dirty - 2 ^ (sector % 4) } = x := ⟨_, rfl⟩
    obtain ⟨t, ht⟩ : ∃ t, State.setLine { s with hostMem := h } bay (sector / 4) w x = t := ⟨_, rfl⟩
    have hline (j : Nat) : t.bayLine bay (sector / 4) j = if j = w then x else s.bayLine bay (sector / 4) j := by
      rw [← ht]
      exact State.bayLine_setLine _ _ _ _ _ (by rw [← hx]; exact hvalid)
    have hsame (j : Nat) : t.holdsLine bay (sector / 4) j = s.holdsLine bay (sector / 4) j := by
      unfold State.holdsLine
      rw [hline]
      split
      · next hj => rw [hj, ← hx]
      · rfl
    have hway : t.wayOf bay (sector / 4) = some w :=
      (t.wayOf_eq_some _ _ _).mpr ⟨(hsame w).trans hholds, hlt, fun j hj => (hsame j).trans (hbefore j hj)⟩
    rw [hx, ht]
    refine ⟨?_, by rw [← ht]; rfl⟩
    unfold State.bayDirty
    rw [hway]
    dsimp only
    rw [hline, if_pos rfl, ← hx]
    exact hasBit_sub_self hdirty
  · cases hdirty

theorem fillsGranule (hbay : bay < 48) (hnot : s.bayHolds bay sector = false) (hhbm : s.isHbm (32 * sector) = true) (hon : s.wayOn bay 0 = true) :
    ∃ t, exec (.bayCacheFill bay sector ⟨[]⟩) s = .next t ∧ t.bayHolds bay sector = true := by
  have hrgn : rgn (32 * sector) = 0 := by
    simp only [State.isHbm, Bool.and_eq_true, beq_iff_eq] at hhbm
    exact hhbm.1.2
  have hexec : exec (.bayCacheFill bay sector ⟨[]⟩) s = execBayCacheFill bay sector ⟨[]⟩ s := rfl
  unfold execBayCacheFill at hexec
  dsimp only at hexec
  rw [if_neg (by simp [hnot, hrgn, Nat.not_lt.mpr (Nat.le_of_lt_succ hbay)]), if_pos hhbm] at hexec
  refine ⟨_, hexec, ?_⟩
  obtain ⟨p, hp⟩ := s.readGranule_good (32 * ((granSectors (s.granuleAt (32 * sector)) sector).headD sector))
    ((granSectors (s.granuleAt (32 * sector)) sector).filter (fun n => !s.dirtyAnywhere n && !s.bayHolds bay n))
  rw [hp]
  exact State.bayHolds_fillAll (s := { s with poison := p }) hon (self_mem_granSectors _ _) (fun m hm => granSectors_near hm) false

end Sys2Proof.DeviceEventsComplete

end


section
/-! SUPPORT. The events of clocks, counters and samples (R112, R347 to R351, R392). -/

open Sys2Proof Sys2Proof.Machine

namespace Sys2Proof.Machine

theorem State.die_setDie_self (s : State) (d : Nat) (x : Die) : (s.setDie d x).die d = x :=
  (Sparse.get_set s.dies d d x Die.zero).trans (if_pos rfl)

/-- A promise floor is no higher than the clocks of the promises that still stand. -/
theorem Die.floor_le {d : Die} {mhz : Nat} (h : ∀ e ∈ d.proms, d.cnt.toNat < e.1.toNat → e.2 ≤ mhz) : d.floor ≤ mhz := by
  refine List.foldlRecOn (motive := fun (m : Nat) => m ≤ mhz) _ _ (Nat.zero_le mhz) fun m hm c hc => Nat.max_le.mpr ⟨hm, ?_⟩
  obtain ⟨e, he, rfl⟩ := List.mem_map.mp hc
  obtain ⟨hmem, hdue⟩ := List.mem_filter.mp he
  exact h e hmem (by simpa using hdue)

theorem State.walls_putSample (s : State) (bs : List Byte) : (s.putSample bs).walls = s.walls := by
  unfold State.putSample
  dsimp only
  split
  · rfl
  · split
    · rfl
    · obtain ⟨p, h⟩ := s.unitStore_eq (s.dreg64 0x878 + 16 * ((s.dreg 0x87C).toNat % (s.dreg 0x87A).toNat)) bs
      rw [h]
      rfl

end Sys2Proof.Machine

namespace Sys2Proof.DeviceEventsComplete

variable {s : State} {w p die : Nat}

theorem clockChanges {mhz : Nat} (hdie : die < 4) (hmhz : mhz ≠ 0)
    (hproms : ∀ e ∈ (s.die die).proms, (s.die die).cnt.toNat < e.1.toNat → e.2 ≤ mhz) :
    ∃ t, exec (.clockChange die mhz) s = .next t ∧ (t.die die).mhz = mhz := by
  have hfloor : ¬ mhz < (s.die die).floor := Nat.not_lt.mpr (Die.floor_le hproms)
  refine ⟨_, congrArg Host.Outcome.next (if_neg ?_), congrArg Die.mhz (s.die_setDie_self die _)⟩
  rintro (h | h | ⟨-, h⟩)
  · omega
  · exact hmhz h
  · exact hfloor h

/-- Once promises have matured, each that is left has a tick that is still to come. -/
theorem promisesMature : ∃ t, exec (.promiseMature die) s = .next t ∧ ∀ e ∈ (t.die die).proms, (s.die die).cnt.toNat < e.1.toNat := by
  have hexec : exec (.promiseMature die) s = execPromiseMature die s := rfl
  unfold execPromiseMature at hexec
  dsimp only at hexec
  have hleft : ∀ e ∈ (s.die die).proms.filter (fun p => (s.die die).cnt.toNat < p.1.toNat), (s.die die).cnt.toNat < e.1.toNat :=
    fun e he => by simpa using (List.mem_filter.mp he).2
  by_cases hall : (s.die die).proms.filter (fun p => (s.die die).cnt.toNat < p.1.toNat) = (s.die die).proms
  · rw [if_pos hall] at hexec
    exact ⟨s, hexec, hall ▸ hleft⟩
  · rw [if_neg hall] at hexec
    refine ⟨_, hexec, ?_⟩
    rw [State.die_setDie_self]
    exact hleft

theorem sweepBaseWritten (s : State) (hi : Bool) (v : Word) : ∃ t, exec (.swpbaseWrite hi v) s = .next t ∧ t.dreg (if hi then 0x873 else 0x872) = v := by
  have hexec : exec (.swpbaseWrite hi v) s = execSwpbaseWrite hi v s := rfl
  unfold execSwpbaseWrite at hexec
  dsimp only at hexec
  refine ⟨_, hexec, ?_⟩
  generalize List.filterMap _ _ = codes
  exact (s.dreg_setDreg _ _ v).trans (if_pos rfl)

theorem sweeps (hdie : die < 4) (hper : s.dreg 0x874 ≠ 0) :
    ∃ t, exec (.sweep die) s = .next t ∧ (t.die die).sweeps = (s.die die).sweeps + 1 := by
  have hexec : exec (.sweep die) s = execSweep die s := rfl
  unfold execSweep at hexec
  dsimp only at hexec
  rw [if_neg (not_or.mpr ⟨by omega, hper⟩)] at hexec
  refine ⟨_, hexec, ?_⟩
  generalize List.foldl _ s _ = t
  exact congrArg Die.sweeps (State.die_setDie_self (t.storeNat _ 8 _) die { s.die die with sweeps := (s.die die).sweeps + 1 })

/-- A sample is taken of the one course of a lane set, and the next one follows it in slot order. -/
theorem samples {lset : Nat} {c : Course} (hactive : s.planesIn w .active = [p])
    (hcourse : (s.bySlot w p).filter (fun c => c.lset == lset) = [c]) (hfocus : s.focus c.ident = some s) :
    ∃ t, exec (.stallSample w lset) s = .next t ∧ Sparse.get (t.wall w).sampled lset 0 = c.slot + 1 := by
  have hfind : ([c].find? (fun c => decide (Sparse.get (s.wall w).sampled lset 0 ≤ c.slot))) = some c ∨
      ([c].find? (fun c => decide (Sparse.get (s.wall w).sampled lset 0 ≤ c.slot))) = none := by
    rw [List.find?_singleton]
    split
    · exact .inl rfl
    · exact .inr rfl
  have hexec : exec (.stallSample w lset) s = execStallSample w lset s := rfl
  unfold execStallSample at hexec
  rw [hactive] at hexec
  dsimp only at hexec
  rw [hcourse] at hexec
  have hwall (g : State) (bs bs' : List Byte) : ((g.putSample bs).putSample bs').wall w = g.wall w :=
    congrArg (Sparse.get · w Wall.zero) ((State.walls_putSample _ bs').trans (g.walls_putSample bs))
  rcases hfind with h | h <;> rw [h] at hexec <;> dsimp only [List.head?_cons] at hexec <;> rw [hfocus] at hexec
  all_goals
    refine ⟨_, hexec, ?_⟩
    dsimp only
    rw [hwall, State.wall_setWall_self]
    exact (Sparse.get_set (s.wall w).sampled lset lset (c.slot + 1) 0).trans (if_pos rfl)

theorem lifeSelected (s : State) (v : Word) : ∃ t, exec (.lifeselWrite v) s = .next t ∧ t.dreg 0x8B0 = v :=
  ⟨_, rfl, (s.dreg_setDreg _ _ v).trans (if_pos rfl)⟩

end Sys2Proof.DeviceEventsComplete

end


section
/-! SUPPORT. O21: the events of queues, planes, walls, caches, clocks and counters. -/

open Sys2Proof Sys2Proof.Machine

namespace Sys2Proof.DeviceEventsComplete

/-- Settles O21: each event by the lemma that says where it happens and what it leaves. -/
theorem deviceEventsComplete : Obligations.DeviceEventsComplete := by
  intro s w p bay sector die v hw hp hbay hdie x y q
  refine ⟨fun n u hshelf hpaired hothers hhead hents hn hqueue hfresh hu hcount hplaced hgroups halone =>
      passPlacesOne (by omega) hshelf hpaired hothers hhead hents hn hqueue hfresh hu hcount hplaced hgroups halone,
    fun t0 => headAgeExpires, fun hv hopen hsize hnew hgood => lqbellTakesOne hv (readQueue_one hopen hsize hnew hgood),
    lqrstEmpties, fun work list n e => pgansAnswers, fun hserving hnone hready _ => switchCompletes hserving hnone hready,
    fun i n e b => streamOutBegins, fun n e b => streamOutCompletes, fun n e b => streamInCompletes, fun hfree hnext => ?_,
    fun hdrained hscanned => ⟨?_, fun pat => WallScans.scanFails hdrained hscanned⟩, fun hretest hscanned hempty => ?_, fun idx _ hwaking => ?_,
    writesBack, fillsGranule hbay, fun mhz => clockChanges hdie, promisesMature, fun hi => sweepBaseWritten s hi v, sweeps hdie,
    fun lset c => samples, lifeSelected s v⟩
  · obtain ⟨t, hexec, hservice, -⟩ := WallScans.drains hfree hnext
    exact ⟨t, hexec, hservice⟩
  · obtain ⟨t, hexec, hservice, hlast, -⟩ := WallScans.scanPasses (.inl hdrained) hscanned
    exact ⟨t, hexec, hservice, hlast⟩
  · obtain ⟨t, hexec, -, hnone, hspare⟩ := WallScans.retires hretest hscanned (WallScans.cleared_of_empty hempty)
    refine ⟨t, hexec, ?_⟩
    split
    · next h => exact hnone h
    · next h => exact (hspare h).1
  · obtain ⟨t, hexec, -, hwoken, -⟩ := WallScans.bankWakes hwaking
    exact ⟨t, hexec, hwoken⟩

end Sys2Proof.DeviceEventsComplete

end
